-- ==== Sys2Proof/Word.lean ====
section
/-! DEFINITION. The word types of the Relair Saruf, the closed sets of names its encodings use
(register files, formats, conditions, classes), and the packet as it crosses the fabric. -/

namespace Sys2Proof

/-- A 64-bit scalar register (R212). -/
abbrev Word := BitVec 64
/-- The smallest addressable unit (R11). -/
abbrev Byte := BitVec 8
/-- A 512-bit vector register: lane i is bits [64i+63:64i] (R217). -/
abbrev Vec := BitVec 512
/-- Number of a scalar register, s0 to s31 (Table 2.1). -/
abbrev SReg := BitVec 5
/-- Number of a vector register, v0 to v15 (Table 2.1). -/
abbrev VReg := BitVec 4
/-- Number of a predicate register, q0 to q7 (Table 2.1). -/
abbrev QReg := BitVec 3
/-- A message label (R311). -/
abbrev Label := BitVec 7
/-- A core of this module: bits [14:7] logical cluster, [6:0] core (R7). -/
abbrev CoreIx := BitVec 15
/-- A hardware thread of a core. -/
abbrev ThrIx := BitVec 3

/-- The scalar and lane formats that round: the codes 0, 1, 2 of R53. -/
inductive FFmt where
  | f32 | bf16 | f16
  deriving DecidableEq, Repr

/-- Rounding selectors of Table 1.6. -/
inductive Rm where
  | rne | rz | rup | rdn | dyn | sr
  deriving DecidableEq, Repr

/-- Conditions of `cmp` and `cmpi` (Table 2.7). -/
inductive Cond where
  | eq | ne | lt | ge | ltu | geu | tst | ntst
  deriving DecidableEq, Repr

/-- Quantifiers of `br` (R59). -/
inductive Quant where
  | any | all | none | nall
  deriving DecidableEq, Repr

/-- Access sizes of R56: 1, 2, 4, 8 bytes. -/
inductive MSize where
  | b | h | w | d
  deriving DecidableEq, Repr

/-- Operations of `amo` (Table 2.8). -/
inductive AmoOp where
  | swap | add | and | or | xor | min | max | minu | maxu | faddF32 | faddBf16 | faddF16
  deriving DecidableEq, Repr

/-- Scopes of `fence` (R60). -/
inductive Scope where
  | core | cluster | module | pod
  deriving DecidableEq, Repr

/-- Priority classes (R61). -/
inductive Cls where
  | bulk | normal | high | trump
  deriving DecidableEq, Repr

/-- Element types of the vector majors (Table 2.11). -/
inductive VTy where
  | i8 | i16 | i32 | i64 | n8 | n16 | n32 | n64 | bf16 | f16 | f32 | e4m3 | e5m2 | e2m1
  deriving DecidableEq, Repr

/-- Conditions of `vcmp` (R266). -/
inductive VCond where
  | eq | ne | lt | le | gt | ge | uno | ord
  deriving DecidableEq, Repr

/-- Directory format tags 0 to 11 (Table 7.2, R160). -/
inductive Tag where
  | raw | i8 | i16 | i32 | bf16 | f16 | f32 | e4m3 | e5m2 | e2m1 | e8m0 | n8
  deriving DecidableEq, Repr

/-- The CSRs of Table 2.2. -/
inductive Csr where
  | fflags | frm | ths | cf | xb | tv | tcause | taddr | tepc | mhd0 | mhd1
  | job | team | coreid | cycle | instret | pcc0 | pcc1 | pcc2 | pcc3
  deriving DecidableEq, Repr

/-- Direction suffixes of `xcopy`: destination first, source second (R160). -/
structure Dir2 where
  srcNear : Bool
  dstNear : Bool
  deriving DecidableEq, Repr

/-- The header flit of a packet, field by field (Table 4.1). -/
structure Header where
  dcore : BitVec 7 := 0
  dcl   : BitVec 8 := 0
  dmod  : BitVec 12 := 0
  vn    : BitVec 2 := 0
  cls   : Cls := .bulk
  lab   : Label := 0
  plen  : BitVec 5 := 0
  kind  : BitVec 4 := 0
  src   : BitVec 27 := 0
  job   : BitVec 8 := 0
  tag   : BitVec 4 := 0
  txid  : BitVec 16 := 0
  stat  : BitVec 4 := 0
  aux   : BitVec 16 := 0
  rsvd  : BitVec 6 := 0
  deriving DecidableEq, Repr

/-- A packet: header and payload as 64-bit words, two to a flit (R108, R109).
`poison` lists the payload words marked poisoned in the flit check bits (R360).
`tile` is used inside the module only, where an endpoint takes or answers a whole tile together
(R167, R168): it holds a directory entry word of Table 7.1. -/
structure Packet where
  hdr    : Header := {}
  words  : List Word := []
  poison : List Nat := []
  tile   : Option Word := none
  deriving DecidableEq, Repr

/-- The two sides of DRAM that patrol scrub and training name (R385, R400). -/
inductive DramTier where
  | hbm | lpddr
  deriving DecidableEq, Repr

end Sys2Proof
end

