-- ==== Sys2Proof/Syntax.lean ====
section
/-! DEFINITION. The syntax: one constructor for every row of the opcode table (274 rows). Rows with an
instruction word carry its operand fields; the other rows are steps of units, of the loader, of the
firmware and of the outside, and carry what names the unit and what comes from outside (log 3). -/

namespace Sys2Proof

/-- The operations and events of the part: each is one whole and indivisible step (spec/95). -/
inductive Instr where
  /-- ADD. R236. -/
  | add (d a b : SReg)
  /-- SUB. R236. -/
  | sub (d a b : SReg)
  /-- MUL. R236. -/
  | mul (d a b : SReg)
  /-- MULH. R236. -/
  | mulh (d a b : SReg)
  /-- MULHU. R236. -/
  | mulhu (d a b : SReg)
  /-- MULHSU. R236. -/
  | mulhsu (d a b : SReg)
  /-- DIV. R236. -/
  | div (d a b : SReg)
  /-- DIVU. R236. -/
  | divu (d a b : SReg)
  /-- REM. R236. -/
  | rem (d a b : SReg)
  /-- REMU. R236. -/
  | remu (d a b : SReg)
  /-- AND. R236. -/
  | and (d a b : SReg)
  /-- OR. R236. -/
  | or (d a b : SReg)
  /-- XOR. R236. -/
  | xor (d a b : SReg)
  /-- ANDN. R236. -/
  | andn (d a b : SReg)
  /-- ORN. R236. -/
  | orn (d a b : SReg)
  /-- SLL. R236. -/
  | sll (d a b : SReg)
  /-- SRL. R236. -/
  | srl (d a b : SReg)
  /-- SRA. R236. -/
  | sra (d a b : SReg)
  /-- ROL. R236. -/
  | rol (d a b : SReg)
  /-- ROR. R236. -/
  | ror (d a b : SReg)
  /-- MIN. R236. -/
  | min (d a b : SReg)
  /-- MINU. R236. -/
  | minu (d a b : SReg)
  /-- MAX. R236. -/
  | max (d a b : SReg)
  /-- MAXU. R236. -/
  | maxu (d a b : SReg)
  /-- ADDS. R236. -/
  | adds (d a b : SReg)
  /-- SUBS. R236. -/
  | subs (d a b : SReg)
  /-- ADDSU. R236. -/
  | addsu (d a b : SReg)
  /-- SUBSU. R236. -/
  | subsu (d a b : SReg)
  /-- CLZ. R236. -/
  | clz (d a : SReg)
  /-- CTZ. R236. -/
  | ctz (d a : SReg)
  /-- POPC. R236. -/
  | popc (d a : SReg)
  /-- BSWAP. R236. -/
  | bswap (d a : SReg)
  /-- FADD. R237. -/
  | fadd (f : FFmt) (rm : Rm) (d a b : SReg)
  /-- FSUB. R237. -/
  | fsub (f : FFmt) (rm : Rm) (d a b : SReg)
  /-- FMUL. R237. -/
  | fmul (f : FFmt) (rm : Rm) (d a b : SReg)
  /-- FMIN. R237. -/
  | fmin (f : FFmt) (d a b : SReg)
  /-- FMAX. R237. -/
  | fmax (f : FFmt) (d a b : SReg)
  /-- FMINN. R237. -/
  | fminn (f : FFmt) (d a b : SReg)
  /-- FMAXN. R237. -/
  | fmaxn (f : FFmt) (d a b : SReg)
  /-- BOOL3. R239. -/
  | bool3 (d a b : SReg) (tab : BitVec 8)
  /-- FSHL_IMM. R240. -/
  | fshlImm (d a b : SReg) (sh : BitVec 6)
  /-- FSHR_IMM. R240. -/
  | fshrImm (d a b : SReg) (sh : BitVec 6)
  /-- FSHL_REG. R240. -/
  | fshlReg (d a b c : SReg)
  /-- FSHR_REG. R240. -/
  | fshrReg (d a b c : SReg)
  /-- EXT. R241. -/
  | ext (d a : SReg) (pos len1 : BitVec 6)
  /-- EXTN. R241. -/
  | extn (d a : SReg) (pos len1 : BitVec 6)
  /-- INS. R241. -/
  | ins (d a : SReg) (pos len1 : BitVec 6)
  /-- ADDI. R238. -/
  | addi (d a : SReg) (imm : BitVec 16)
  /-- ANDI. R238. -/
  | andi (d a : SReg) (imm : BitVec 16)
  /-- ORI. R238. -/
  | ori (d a : SReg) (imm : BitVec 16)
  /-- XORI. R238. -/
  | xori (d a : SReg) (imm : BitVec 16)
  /-- SLLI. R238. -/
  | slli (d a : SReg) (sh : BitVec 6)
  /-- SRLI. R238. -/
  | srli (d a : SReg) (sh : BitVec 6)
  /-- SRAI. R238. -/
  | srai (d a : SReg) (sh : BitVec 6)
  /-- RORI. R238. -/
  | rori (d a : SReg) (sh : BitVec 6)
  /-- LUI. R238. -/
  | lui (d : SReg) (imm : BitVec 21)
  /-- LI. R238. -/
  | li (d : SReg) (imm : BitVec 48)
  /-- CMP. R242. -/
  | cmp (qd : QReg) (cond : Cond) (a b : SReg)
  /-- CMPI. R242. -/
  | cmpi (qd : QReg) (cond : Cond) (a : SReg) (imm : BitVec 14)
  /-- SEL. R243. -/
  | sel (d : SReg) (q : QReg) (a b : SReg)
  /-- LEA. R243. -/
  | lea (d a b : SReg) (sh : BitVec 3)
  /-- LDN. R251. -/
  | ldn (sz : MSize) (x : Bool) (d a : SReg) (off : BitVec 12)
  /-- STN. R253. -/
  | stn (sz : MSize) (d a : SReg) (off : BitVec 12)
  /-- LDF. R143. -/
  | ldf (sz : MSize) (x : Bool) (d a : SReg) (off : BitVec 12)
  /-- STF. R143. -/
  | stf (sz : MSize) (d a : SReg) (off : BitVec 12)
  /-- AMO_FETCHING. R146. -/
  | amoFetch (op : AmoOp) (dbl : Bool) (d a b : SReg)
  /-- AMO_POSTED. R146. -/
  | amoPost (op : AmoOp) (dbl : Bool) (a b : SReg)
  /-- CAS. R148. -/
  | cas (dbl : Bool) (d a b : SReg)
  /-- STNB. R254. -/
  | stnb (d a : SReg) (n1 : BitVec 4) (h : Bool) (off : BitVec 11)
  /-- VLDN. R276. -/
  | vldn (vd : VReg) (a : SReg) (qp : QReg) (off : BitVec 12)
  /-- VSTN. R277. -/
  | vstn (vd : VReg) (a : SReg) (qp : QReg) (off : BitVec 12)
  /-- VGTHN. R278. -/
  | vgthn (vd : VReg) (a : SReg) (qp : QReg) (vi : VReg) (sc : BitVec 2)
  /-- VSCTN. R278. -/
  | vsctn (vd : VReg) (a : SReg) (qp : QReg) (vi : VReg) (sc : BitVec 2)
  /-- VLDF. R144. -/
  | vldf (vd : VReg) (a : SReg) (qp : QReg) (off : BitVec 12)
  /-- VSTF. R144. -/
  | vstf (vd : VReg) (a : SReg) (qp : QReg) (off : BitVec 12)
  /-- BR. R244. -/
  | br (q : QReg) (qn : Quant) (off : BitVec 21)
  /-- J. R245. -/
  | j (off : BitVec 26)
  /-- JAL. R245. -/
  | jal (off : BitVec 26)
  /-- JALR. R245. -/
  | jalr (d a : SReg) (imm : BitVec 16)
  /-- BTAG. R247. -/
  | btag (off : BitVec 21)
  /-- LOOP_REG. R249. -/
  | loopReg (n : BitVec 5) (a : SReg)
  /-- LOOP_IMM. R249. -/
  | loopImm (n : BitVec 5) (cnt : BitVec 20)
  /-- RET. R248. -/
  | ret
  /-- NOP. R256. -/
  | nop
  /-- TRAP. R257. -/
  | trap (imm : BitVec 16)
  /-- ERET. R258. -/
  | eret
  /-- YIELD. R256. -/
  | yield
  /-- COMMIT. R259. -/
  | commit
  /-- FENCE. R152. -/
  | fence (scope : Scope)
  /-- BRK. R257. -/
  | brk (imm : BitVec 16)
  /-- WAIT. R260. -/
  | wait (a : SReg)
  /-- SEND. R330. -/
  | send (cls : Cls) (a : SReg) (lab : Label) (tag : BitVec 4)
  /-- SEND_R. R331. -/
  | sendR (cls : Cls) (a : SReg) (lab : Label) (tag : BitVec 4)
  /-- SENDV. R330. -/
  | sendv (cls : Cls) (a : SReg) (lab : Label) (tag : BitVec 4) (vb : VReg)
  /-- MCAST. R331. -/
  | mcast (cls : Cls) (a : SReg) (lab : Label) (tag : BitVec 4)
  /-- GET. R149. -/
  | get (cls : Cls) (a : SReg) (lab : Label) (t : BitVec 4) (b : SReg)
  /-- PUT. R151. -/
  | put (a : SReg) (t : BitVec 4) (b : SReg)
  /-- RECV. R332. -/
  | recv (lab : Label)
  /-- ARM. R333. -/
  | arm (lab : Label)
  /-- DISARM. R333. -/
  | disarm (lab : Label)
  /-- TCNT. R333. -/
  | tcnt (d : SReg) (lab : Label)
  /-- SETF. R333. -/
  | setf (mask : Byte)
  /-- CLRF. R333. -/
  | clrf (mask : Byte)
  /-- TLAUNCH. R334. -/
  | tlaunch (a : SReg)
  /-- JDONE. R335. -/
  | jdone
  /-- BAR. R336. -/
  | bar (grp : BitVec 8)
  /-- ARRIVE. R336. -/
  | arrive (grp : BitVec 8)
  /-- CSRR. R255. -/
  | csrr (d : SReg) (csr : Csr)
  /-- CSRW. R255. -/
  | csrw (d a : SReg) (csr : Csr)
  /-- CSRS. R255. -/
  | csrs (d a : SReg) (csr : Csr)
  /-- CSRC. R255. -/
  | csrc (d a : SReg) (csr : Csr)
  /-- VADD_INT. R264. -/
  | vaddInt (ty : VTy) (vd va vb : VReg) (qp : QReg)
  /-- VSUB_INT. R264. -/
  | vsubInt (ty : VTy) (vd va vb : VReg) (qp : QReg)
  /-- VMUL_INT. R264. -/
  | vmulInt (ty : VTy) (vd va vb : VReg) (qp : QReg)
  /-- VMULH. R264. -/
  | vmulh (ty : VTy) (vd va vb : VReg) (qp : QReg)
  /-- VADDS. R264. -/
  | vadds (ty : VTy) (vd va vb : VReg) (qp : QReg)
  /-- VSUBS. R264. -/
  | vsubs (ty : VTy) (vd va vb : VReg) (qp : QReg)
  /-- VMIN_INT. R264. -/
  | vminInt (ty : VTy) (vd va vb : VReg) (qp : QReg)
  /-- VMAX_INT. R264. -/
  | vmaxInt (ty : VTy) (vd va vb : VReg) (qp : QReg)
  /-- VAND. R264. -/
  | vand (ty : VTy) (vd va vb : VReg) (qp : QReg)
  /-- VOR. R264. -/
  | vor (ty : VTy) (vd va vb : VReg) (qp : QReg)
  /-- VXOR. R264. -/
  | vxor (ty : VTy) (vd va vb : VReg) (qp : QReg)
  /-- VABS_INT. R264. -/
  | vabsInt (ty : VTy) (vd va : VReg) (qp : QReg)
  /-- VNEG_INT. R264. -/
  | vnegInt (ty : VTy) (vd va : VReg) (qp : QReg)
  /-- VADD_FP. R265. -/
  | vaddFp (f : FFmt) (rm : Rm) (vd va vb : VReg) (qp : QReg)
  /-- VSUB_FP. R265. -/
  | vsubFp (f : FFmt) (rm : Rm) (vd va vb : VReg) (qp : QReg)
  /-- VMUL_FP. R265. -/
  | vmulFp (f : FFmt) (rm : Rm) (vd va vb : VReg) (qp : QReg)
  /-- VFMA. R265. -/
  | vfma (f : FFmt) (rm : Rm) (vd va vb : VReg) (qp : QReg)
  /-- VFMS. R265. -/
  | vfms (f : FFmt) (rm : Rm) (vd va vb : VReg) (qp : QReg)
  /-- VFNMA. R265. -/
  | vfnma (f : FFmt) (rm : Rm) (vd va vb : VReg) (qp : QReg)
  /-- VMIN_FP. R265. -/
  | vminFp (f : FFmt) (vd va vb : VReg) (qp : QReg)
  /-- VMAX_FP. R265. -/
  | vmaxFp (f : FFmt) (vd va vb : VReg) (qp : QReg)
  /-- VMINN. R265. -/
  | vminn (f : FFmt) (vd va vb : VReg) (qp : QReg)
  /-- VMAXN. R265. -/
  | vmaxn (f : FFmt) (vd va vb : VReg) (qp : QReg)
  /-- VABS_FP. R265. -/
  | vabsFp (f : FFmt) (vd va : VReg) (qp : QReg)
  /-- VNEG_FP. R265. -/
  | vnegFp (f : FFmt) (vd va : VReg) (qp : QReg)
  /-- VCSGN. R265. -/
  | vcsgn (f : FFmt) (vd va vb : VReg) (qp : QReg)
  /-- VCMP. R266. -/
  | vcmp (cond : VCond) (ty : VTy) (qd : QReg) (va vb : VReg) (qp : QReg)
  /-- VCVT. R268. -/
  | vcvt (src dst : VTy) (ns : Bool) (rm : Rm) (vd va : VReg) (part qp : BitVec 3)
  /-- VRCP. R269. -/
  | vrcp (f : FFmt) (rm : Rm) (vd va : VReg) (qp : QReg)
  /-- VRSQ. R269. -/
  | vrsq (f : FFmt) (rm : Rm) (vd va : VReg) (qp : QReg)
  /-- VSQRT. R269. -/
  | vsqrt (f : FFmt) (rm : Rm) (vd va : VReg) (qp : QReg)
  /-- VDIV. R269. -/
  | vdiv (f : FFmt) (rm : Rm) (vd va vb : VReg) (qp : QReg)
  /-- VEXP2. R269. -/
  | vexp2 (f : FFmt) (rm : Rm) (vd va : VReg) (qp : QReg)
  /-- VLOG2. R269. -/
  | vlog2 (f : FFmt) (rm : Rm) (vd va : VReg) (qp : QReg)
  /-- VPERM. R270. -/
  | vperm (ty : VTy) (vd va vb : VReg) (qp : QReg)
  /-- VBCST. R270. -/
  | vbcst (ty : VTy) (vd va : VReg) (lane : BitVec 3) (qp : QReg)
  /-- VZIP. R270. -/
  | vzip (ty : VTy) (vd va vb : VReg) (qp : QReg)
  /-- VUNZIP. R270. -/
  | vunzip (ty : VTy) (vd va vb : VReg) (qp : QReg)
  /-- VREDADD. R271. -/
  | vredadd (ty : VTy) (vd va : VReg) (qp : QReg)
  /-- VREDMIN. R271. -/
  | vredmin (ty : VTy) (vd va : VReg) (qp : QReg)
  /-- VREDMAX. R271. -/
  | vredmax (ty : VTy) (vd va : VReg) (qp : QReg)
  /-- VREDMINN. R271. -/
  | vredminn (ty : VTy) (vd va : VReg) (qp : QReg)
  /-- VREDMAXN. R271. -/
  | vredmaxn (ty : VTy) (vd va : VReg) (qp : QReg)
  /-- VSLL. R272. -/
  | vsll (ty : VTy) (vd va vb : VReg) (qp : QReg)
  /-- VSRL. R272. -/
  | vsrl (ty : VTy) (vd va vb : VReg) (qp : QReg)
  /-- VSRA. R272. -/
  | vsra (ty : VTy) (vd va vb : VReg) (qp : QReg)
  /-- VSLLI. R272. -/
  | vslli (ty : VTy) (vd va : VReg) (sh : BitVec 7) (qp : QReg)
  /-- VSRLI. R272. -/
  | vsrli (ty : VTy) (vd va : VReg) (sh : BitVec 7) (qp : QReg)
  /-- VSRAI. R272. -/
  | vsrai (ty : VTy) (vd va : VReg) (sh : BitVec 7) (qp : QReg)
  /-- VBOOL3. R273. -/
  | vbool3 (vd va vb : VReg) (qp : QReg) (tab : BitVec 8)
  /-- VINS. R274. -/
  | vins (v : VReg) (sr : SReg) (lane : BitVec 3)
  /-- VEXT. R274. -/
  | vext (v : VReg) (sr : SReg) (lane : BitVec 3)
  /-- VDUP. R274. -/
  | vdup (v : VReg) (sr : SReg)
  /-- QSET. R274. -/
  | qset (sr : SReg) (q : QReg)
  /-- QGET. R274. -/
  | qget (sr : SReg) (q : QReg)
  /-- MOP. R301. -/
  | mop (n : BitVec 2) (m : Bool) (fA fB : Tag) (a b c : SReg) (lab : Label)
  /-- MOPS_ZC. R302. -/
  | mopsZc (n : BitVec 2) (m : Bool) (fA fB : Tag) (d a b c : SReg) (lab : Label)
  /-- MOPS_S24. R303. -/
  | mopsS24 (n : BitVec 2) (m : Bool) (fA fB : Tag) (d a b c : SReg) (lab : Label)
  /-- MZERO. R304. -/
  | mzero (n : BitVec 2) (m : Bool) (lab : Label)
  /-- MLOAD. R305. -/
  | mload (n : BitVec 2) (m : Bool) (fA : Tag) (a : SReg) (lab : Label)
  /-- MDRAIN. R307. -/
  | mdrain (n : BitVec 2) (m : Bool) (fA : Tag) (rm : Rm) (relu : Bool) (scale : BitVec 8) (a : SReg) (lab : Label)
  /-- MSEED. R306. -/
  | mseed (n : BitVec 2) (a : SReg)
  /-- TDIR. R209. -/
  | tdir (d a : SReg)
  /-- TZERO. R211. -/
  | tzero (a c : SReg) (lab : Label)
  /-- TFILL. R211. -/
  | tfill (f : Tag) (a b c : SReg) (lab : Label)
  /-- TIDENT. R211. -/
  | tident (f : Tag) (diag : BitVec 7) (a c : SReg) (lab : Label)
  /-- XCOPY. R169. -/
  | xcopy (dir : Dir2) (f : Tag) (cls : Cls) (d a b : SReg) (lab : Label)
  /-- XMAP_LD. R172. -/
  | xmapLd (cls : Cls) (d a b c : SReg) (lab : Label)
  /-- XMAP_ST. R172. -/
  | xmapSt (cls : Cls) (d a b c : SReg) (lab : Label)
  /-- XGATHER. R174. -/
  | xgather (x64 : Bool) (cls : Cls) (d a b c : SReg) (lab : Label)
  /-- XSCATTER. R174. -/
  | xscatter (x64 acc : Bool) (f : Tag) (cls : Cls) (d a b c : SReg) (lab : Label)
  /-- XPACK. R177. -/
  | xpack (dstNear : Bool) (f : Tag) (cls : Cls) (d a b : SReg) (lab : Label)
  /-- XUNPACK. R179. -/
  | xunpack (srcNear : Bool) (f : Tag) (cls : Cls) (d a b : SReg) (lab : Label)
  /-- XEMBED. R183. -/
  | xembed (f : Tag) (cls : Cls) (d a b c : SReg) (lab : Label)
  /-- XSTREAM. R184. -/
  | xstream (toHost near : Bool) (cls : Cls) (d a b c : SReg) (lab : Label)
  /-- RNGW. R380. -/
  | rngw (a b c : SReg)
  /-- RNGR. R380. -/
  | rngr (d a : SReg) (half : Bool)
  /-- RNGCLR. R380. -/
  | rngclr (a : SReg)
  /-- PGW. R381. -/
  | pgw (a b : SReg)
  /-- PGR. R381. -/
  | pgr (d a : SReg)
  /-- PGINV. R381. -/
  | pginv (a : SReg)
  /-- ILLEGAL_INSTRUCTION. R71: the word or words at the PC that decode to nothing. -/
  | illegalInstruction (bits : BitVec 64)
  /-- COMMIT_INJECTION. R343: the thread's held commit goes on by one entry. -/
  | commitInjection (core : CoreIx) (thr : ThrIx)
  /-- MESSAGE_ARRIVAL. R312: the n-th packet in flight, a MSG at its destination core, is sunk. -/
  | messageArrival (n : Nat)
  /-- PAYLOAD_FLIT_ARRIVAL. R221: the next payload flit of the sunk message id. -/
  | payloadFlitArrival (core : CoreIx) (id : Nat)
  /-- KITTY_RETURN. R316. -/
  | kittyReturn (core : CoreIx) (cls : Cls)
  /-- RECV_DELIVERY. R321. -/
  | recvDelivery (core : CoreIx) (lab : Label)
  /-- HANDLER_START. R319. -/
  | handlerStart (core : CoreIx)
  /-- SPREAD_MOVE. R323. -/
  | spreadMove (core : CoreIx)
  /-- BAR_ARRIVAL. R326: the n-th BAR arrival in flight is combined. -/
  | barArrival (n : Nat)
  /-- BARRIER_RELEASE. R326: the n-th BAR release in flight reaches its member. -/
  | barrierRelease (n : Nat)
  /-- WAIT_DEADLINE. R260. -/
  | waitDeadline (core : CoreIx) (thr : ThrIx)
  /-- WATCHDOG_STOP. R366. -/
  | watchdogStop (core : CoreIx)
  /-- ENGINE_COMMAND_START. R161: command k of the engine starts, and goes on by up to n units of work (log 8). -/
  | engineCommandStart (cl : BitVec 8) (k : Nat) (n : Nat)
  /-- ENGINE_COMPLETION. R162. -/
  | engineCompletion (cl : BitVec 8) (k : Nat)
  /-- MATRIX_COMMAND_START. R287: command k of the array starts, and goes on by up to n grid cycles or tiles (log 8). -/
  | matrixCommandStart (cl : BitVec 8) (arr : BitVec 2) (k : Nat) (n : Nat)
  /-- MATRIX_COMPLETION. R283. -/
  | matrixCompletion (cl : BitVec 8) (arr : BitVec 2)
  /-- ROUTER_FORWARD. R118: the n-th packet in flight takes its next hop. -/
  | routerForward (n : Nat)
  /-- GATEWAY_ARRIVAL. R131: a packet of another module reaches gateway switch sw. -/
  | gatewayArrival (sw : BitVec 3) (p : Packet)
  /-- ARRIVAL_RING_REENTRY. R120. -/
  | arrivalRingReentry (sw : BitVec 3)
  /-- ARRIVAL_RING_FULL_REPORT. R120. -/
  | arrivalRingFullReport (sw : BitVec 3)
  /-- LINK_CRC_ERROR. R124. -/
  | linkCrcError (link : BitVec 6)
  /-- LINK_RETRAIN. R124. -/
  | linkRetrain (link : BitVec 6)
  /-- LINK_DOWN. R125. -/
  | linkDown (link : BitVec 6)
  /-- POD_COUNTER_EXCHANGE. R122. -/
  | podCounterExchange (sw : BitVec 3) (value : BitVec 64)
  /-- RD_REQUEST. R94: the home acts on the n-th packet in flight. -/
  | rdRequest (n : Nat)
  /-- WR_REQUEST. R94: the home acts on the n-th packet in flight. -/
  | wrRequest (n : Nat)
  /-- AMO_REQUEST. R145: the home acts on the n-th packet in flight. -/
  | amoRequest (n : Nat)
  /-- AMOP_REQUEST. R145: the home acts on the n-th packet in flight. -/
  | amopRequest (n : Nat)
  /-- CAS_REQUEST. R148: the home acts on the n-th packet in flight. -/
  | casRequest (n : Nat)
  /-- PARK_NOTICE_REPEAT. R98. -/
  | parkNoticeRepeat (stack : BitVec 5) (n : Nat)
  /-- PARK_LIMIT_EXPIRY. R103. -/
  | parkLimitExpiry (stack : BitVec 5) (n : Nat)
  /-- PARKED_REQUEST_REPLAY. R102. -/
  | parkedRequestReplay (stack : BitVec 5) (n : Nat)
  /-- RDATA_REPLY. R137: the n-th packet in flight reaches its issuer. -/
  | rdataReply (n : Nat)
  /-- ACK_REPLY. R141: the n-th packet in flight reaches its issuer. -/
  | ackReply (n : Nat)
  /-- PARK_NOTICE. R126: the n-th packet in flight reaches its issuer. -/
  | parkNotice (n : Nat)
  /-- ERR_REPLY. R142: the n-th packet in flight reaches its issuer. -/
  | errReply (n : Nat)
  /-- FAR_TIMER_EXPIRY. R126. -/
  | farTimerExpiry (core : CoreIx) (txid : BitVec 16)
  /-- NACK_RESEND. R126. -/
  | nackResend (core : CoreIx) (txid : BitVec 16)
  /-- IMAGE_LOAD. R390: the loader loads for queue q. -/
  | imageLoad (q : BitVec 14)
  /-- LAUNCH_GATE_OPEN. R309. -/
  | launchGateOpen (job : BitVec 8)
  /-- INITIAL_MESSAGE_RELEASE. R310. -/
  | initialMessageRelease (job : BitVec 8)
  /-- JOB_RETIREMENT. R328. -/
  | jobRetirement (job : BitVec 8)
  /-- TOKEN_WRITE. R391: a posted host write to BAR2. -/
  | tokenWrite (off : BitVec 26) (bytes : List Byte)
  /-- TOKEN_RELEASE. R395. -/
  | tokenRelease (q : BitVec 14)
  /-- QCTL_RESET. R394. -/
  | qctlReset (q : BitVec 14) (value : Word)
  /-- MEVENT_CLEAR. R383. -/
  | meventClear (value : Word)
  /-- POWERCAP_WRITE. R404. -/
  | powercapWrite (value : Word)
  /-- HOST_REGISTER_WRITE. R383. -/
  | hostRegisterWrite (off : BitVec 25) (value : Word)
  /-- ATTEST. R403. -/
  | attest
  /-- FWUPDATE. R402. -/
  | fwupdate
  /-- RECOVER. R402. -/
  | recover
  /-- CERT. R402. -/
  | cert
  /-- RESET. R402. -/
  | reset
  /-- POWER_GOOD. R385. -/
  | powerGood
  /-- FIRMWARE_VERIFICATION. R401. -/
  | firmwareVerification
  /-- HBM_TRAINING_COMPLETE. R208. -/
  | hbmTrainingComplete
  /-- EARLY_TO_FULL. R387. -/
  | earlyToFull
  /-- THERMAL_THROTTLE. R404. -/
  | thermalThrottle
  /-- THERMAL_SHUTDOWN. R404. -/
  | thermalShutdown
  /-- PATROL_SCRUB. R400: the word at addr is scrubbed; bad says the error cannot be corrected. -/
  | patrolScrub (addr : Nat) (bad : Bool)
  /-- SOFT_ERROR_THRESHOLD. R400. -/
  | softErrorThreshold
  /-- GOVERNOR_WINDOW. R297. -/
  | governorWindow (cl : BitVec 8)
  /-- FREEZE. R365: the CTL packet n in flight acts at its target. -/
  | freeze (n : Nat)
  /-- RELEASE. R365: the CTL packet n in flight acts at its target. -/
  | release (n : Nat)
  /-- PREEMPT. R367: the CTL packet n in flight acts at its target. -/
  | preempt (n : Nat)
  /-- PREEMPT_GRACE_END. R367. -/
  | preemptGraceEnd (cl : BitVec 8)
  /-- RESTORE. R377: the CTL packet n in flight acts at its target. -/
  | restore (n : Nat)
  /-- RESUME. R377: the CTL packet n in flight acts at its target. -/
  | resume (n : Nat)
  /-- READY. R398: the CTL packet n in flight acts at its target. -/
  | ready (n : Nat)
  /-- OPEN. R398: the CTL packet n in flight acts at its target. -/
  | open_ (n : Nat)
  /-- ABORT. R398: the CTL packet n in flight acts at its target. -/
  | abort (n : Nat)
  /-- QREPORT. R398: the CTL packet n in flight acts at its target. -/
  | qreport (n : Nat)
  /-- RETIRE. R398: the CTL packet n in flight acts at its target. -/
  | retire (n : Nat)
  /-- TLH. R398: the CTL packet n in flight acts at its target. -/
  | tlh (n : Nat)
  /-- CFGW. R399: the CTL packet n in flight acts at its target. -/
  | cfgw (n : Nat)
  /-- PAPPLY. R399: the CTL packet n in flight acts at its target. -/
  | papply (n : Nat)
  /-- BIST_COMPLETION. R385. -/
  | bistCompletion (clok : BitVec 9) (failed : Bool)
  /-- TRAINING_FAILURE. R385. -/
  | trainingFailure (tier : DramTier)
  /-- LINK_RETRAINED. R124. -/
  | linkRetrained (link : BitVec 6)
  /-- COMPLETED_TRANSACTION_CACHE_EXPIRY. R128. -/
  | completedTransactionCacheExpiry (n : Nat)
  /-- THERMAL_THROTTLE_END. R404. -/
  | thermalThrottleEnd
  /-- POWER_FAIL. R402. -/
  | powerFail
  deriving DecidableEq, Repr

end Sys2Proof
end

