-- ==== Sys2Proof/WellFormed.lean ====
section
/-! DEFINITION. Which instructions the encoding admits: register fields against the ports (R48) and field
ranges (R51 to R68). The supervisor rule (R69), the access rules of the CSRs (R49) and the body of `loop`
(R249) depend on the machine and stand with the meanings. -/

namespace Sys2Proof

/-- Integer element types, codes 0 to 7 of Table 2.11. -/
def VTy.isInt : VTy → Bool
  | .i8 | .i16 | .i32 | .i64 | .n8 | .n16 | .n32 | .n64 => true
  | .bf16 | .f16 | .f32 | .e4m3 | .e5m2 | .e2m1 => false

/-- Element types 0 to 10 (R64). -/
def VTy.upTo10 : VTy → Bool
  | .e4m3 | .e5m2 | .e2m1 => false
  | _ => true

/-- Element width in bits (Tables 1.1 and 1.3). -/
def VTy.bits : VTy → Nat
  | .i8 | .n8 | .e4m3 | .e5m2 => 8
  | .i16 | .n16 | .bf16 | .f16 => 16
  | .i32 | .n32 | .f32 => 32
  | .i64 | .n64 => 64
  | .e2m1 => 4

/-- The part numbers R65 and R267 allow for a pair of types. -/
def cvtParts (src dst : VTy) (p : Nat) : Bool :=
  let s := src.bits
  let t := dst.bits
  if s = t then decide (p = 0)
  else if s = 16 * t ∨ t = 16 * s then false
  else if s > t then decide (p < s / t) else decide (p < t / s)

/-- The operand format pairs of Table 11.2. -/
def mopPair : Tag → Tag → Bool
  | .bf16, .bf16 | .f16, .f16 | .e2m1, .e2m1 => true
  | .e4m3, .e4m3 | .e4m3, .e5m2 | .e5m2, .e4m3 | .e5m2, .e5m2 => true
  | .i8, .i8 | .i8, .n8 | .n8, .i8 | .n8, .n8 => true
  | _, _ => false

/-- The scalar registers an instruction reads as sources, in the field order in which s29 pops (R48). -/
def Instr.srcs : Instr → List SReg
  | .add _ a b => [a, b]
  | .sub _ a b => [a, b]
  | .mul _ a b => [a, b]
  | .mulh _ a b => [a, b]
  | .mulhu _ a b => [a, b]
  | .mulhsu _ a b => [a, b]
  | .div _ a b => [a, b]
  | .divu _ a b => [a, b]
  | .rem _ a b => [a, b]
  | .remu _ a b => [a, b]
  | .and _ a b => [a, b]
  | .or _ a b => [a, b]
  | .xor _ a b => [a, b]
  | .andn _ a b => [a, b]
  | .orn _ a b => [a, b]
  | .sll _ a b => [a, b]
  | .srl _ a b => [a, b]
  | .sra _ a b => [a, b]
  | .rol _ a b => [a, b]
  | .ror _ a b => [a, b]
  | .min _ a b => [a, b]
  | .minu _ a b => [a, b]
  | .max _ a b => [a, b]
  | .maxu _ a b => [a, b]
  | .adds _ a b => [a, b]
  | .subs _ a b => [a, b]
  | .addsu _ a b => [a, b]
  | .subsu _ a b => [a, b]
  | .clz _ a => [a]
  | .ctz _ a => [a]
  | .popc _ a => [a]
  | .bswap _ a => [a]
  | .fadd _ _ _ a b => [a, b]
  | .fsub _ _ _ a b => [a, b]
  | .fmul _ _ _ a b => [a, b]
  | .fmin _ _ a b => [a, b]
  | .fmax _ _ a b => [a, b]
  | .fminn _ _ a b => [a, b]
  | .fmaxn _ _ a b => [a, b]
  | .bool3 _ a b _ => [a, b]
  | .fshlImm _ a b _ => [a, b]
  | .fshrImm _ a b _ => [a, b]
  | .fshlReg _ a b c => [a, b, c]
  | .fshrReg _ a b c => [a, b, c]
  | .ext _ a _ _ => [a]
  | .extn _ a _ _ => [a]
  | .ins _ a _ _ => [a]
  | .addi _ a _ => [a]
  | .andi _ a _ => [a]
  | .ori _ a _ => [a]
  | .xori _ a _ => [a]
  | .slli _ a _ => [a]
  | .srli _ a _ => [a]
  | .srai _ a _ => [a]
  | .rori _ a _ => [a]
  | .lui _ _ => []
  | .li _ _ => []
  | .cmp _ _ a b => [a, b]
  | .cmpi _ _ a _ => [a]
  | .sel _ _ a b => [a, b]
  | .lea _ a b _ => [a, b]
  | .ldn _ _ _ a _ => [a]
  | .stn _ d a _ => [a, d]
  | .ldf _ _ _ a _ => [a]
  | .stf _ d a _ => [a, d]
  | .amoFetch _ _ _ a b => [a, b]
  | .amoPost _ _ a b => [a, b]
  | .cas _ _ a b => [a, b]
  | .stnb d a _ _ _ => [a, d]
  | .vldn _ a _ _ => [a]
  | .vstn _ a _ _ => [a]
  | .vgthn _ a _ _ _ => [a]
  | .vsctn _ a _ _ _ => [a]
  | .vldf _ a _ _ => [a]
  | .vstf _ a _ _ => [a]
  | .br _ _ _ => []
  | .j _ => []
  | .jal _ => []
  | .jalr _ a _ => [a]
  | .btag _ => []
  | .loopReg _ a => [a]
  | .loopImm _ _ => []
  | .ret => []
  | .nop => []
  | .trap _ => []
  | .eret => []
  | .yield => []
  | .commit => []
  | .fence _ => []
  | .brk _ => []
  | .wait a => [a]
  | .send _ a _ _ => [a]
  | .sendR _ a _ _ => [a]
  | .sendv _ a _ _ _ => [a]
  | .mcast _ a _ _ => [a]
  | .get _ a _ _ b => [a, b]
  | .put a _ b => [a, b]
  | .recv _ => []
  | .arm _ => []
  | .disarm _ => []
  | .tcnt _ _ => []
  | .setf _ => []
  | .clrf _ => []
  | .tlaunch a => [a]
  | .jdone => []
  | .bar _ => []
  | .arrive _ => []
  | .csrr _ _ => []
  | .csrw _ a _ => [a]
  | .csrs _ a _ => [a]
  | .csrc _ a _ => [a]
  | .vaddInt _ _ _ _ _ => []
  | .vsubInt _ _ _ _ _ => []
  | .vmulInt _ _ _ _ _ => []
  | .vmulh _ _ _ _ _ => []
  | .vadds _ _ _ _ _ => []
  | .vsubs _ _ _ _ _ => []
  | .vminInt _ _ _ _ _ => []
  | .vmaxInt _ _ _ _ _ => []
  | .vand _ _ _ _ _ => []
  | .vor _ _ _ _ _ => []
  | .vxor _ _ _ _ _ => []
  | .vabsInt _ _ _ _ => []
  | .vnegInt _ _ _ _ => []
  | .vaddFp _ _ _ _ _ _ => []
  | .vsubFp _ _ _ _ _ _ => []
  | .vmulFp _ _ _ _ _ _ => []
  | .vfma _ _ _ _ _ _ => []
  | .vfms _ _ _ _ _ _ => []
  | .vfnma _ _ _ _ _ _ => []
  | .vminFp _ _ _ _ _ => []
  | .vmaxFp _ _ _ _ _ => []
  | .vminn _ _ _ _ _ => []
  | .vmaxn _ _ _ _ _ => []
  | .vabsFp _ _ _ _ => []
  | .vnegFp _ _ _ _ => []
  | .vcsgn _ _ _ _ _ => []
  | .vcmp _ _ _ _ _ _ => []
  | .vcvt _ _ _ _ _ _ _ _ => []
  | .vrcp _ _ _ _ _ => []
  | .vrsq _ _ _ _ _ => []
  | .vsqrt _ _ _ _ _ => []
  | .vdiv _ _ _ _ _ _ => []
  | .vexp2 _ _ _ _ _ => []
  | .vlog2 _ _ _ _ _ => []
  | .vperm _ _ _ _ _ => []
  | .vbcst _ _ _ _ _ => []
  | .vzip _ _ _ _ _ => []
  | .vunzip _ _ _ _ _ => []
  | .vredadd _ _ _ _ => []
  | .vredmin _ _ _ _ => []
  | .vredmax _ _ _ _ => []
  | .vredminn _ _ _ _ => []
  | .vredmaxn _ _ _ _ => []
  | .vsll _ _ _ _ _ => []
  | .vsrl _ _ _ _ _ => []
  | .vsra _ _ _ _ _ => []
  | .vslli _ _ _ _ _ => []
  | .vsrli _ _ _ _ _ => []
  | .vsrai _ _ _ _ _ => []
  | .vbool3 _ _ _ _ _ => []
  | .vins _ sr _ => [sr]
  | .vext _ _ _ => []
  | .vdup _ sr => [sr]
  | .qset sr _ => [sr]
  | .qget _ _ => []
  | .mop _ _ _ _ a b c _ => [a, b, c]
  | .mopsZc _ _ _ _ d a b c _ => [a, b, c, d]
  | .mopsS24 _ _ _ _ d a b c _ => [a, b, c, d]
  | .mzero _ _ _ => []
  | .mload _ _ _ a _ => [a]
  | .mdrain _ _ _ _ _ _ a _ => [a]
  | .mseed _ a => [a]
  | .tdir _ a => [a]
  | .tzero a c _ => [a, c]
  | .tfill _ a b c _ => [a, b, c]
  | .tident _ _ a c _ => [a, c]
  | .xcopy _ _ _ d a b _ => [a, b, d]
  | .xmapLd _ d a b c _ => [a, b, c, d]
  | .xmapSt _ d a b c _ => [a, b, c, d]
  | .xgather _ _ d a b c _ => [a, b, c, d]
  | .xscatter _ _ _ _ d a b c _ => [a, b, c, d]
  | .xpack _ _ _ d a b _ => [a, b, d]
  | .xunpack _ _ _ d a b _ => [a, b, d]
  | .xembed _ _ d a b c _ => [a, b, c, d]
  | .xstream _ _ _ d a b c _ => [a, b, c, d]
  | .rngw a b c => [a, b, c]
  | .rngr _ a _ => [a]
  | .rngclr a => [a]
  | .pgw a b => [a, b]
  | .pgr _ a => [a]
  | .pginv a => [a]
  | .illegalInstruction _ => []
  | .commitInjection _ _ => []
  | .messageArrival _ => []
  | .payloadFlitArrival _ _ => []
  | .kittyReturn _ _ => []
  | .recvDelivery _ _ => []
  | .handlerStart _ => []
  | .spreadMove _ => []
  | .barArrival _ => []
  | .barrierRelease _ => []
  | .waitDeadline _ _ => []
  | .watchdogStop _ => []
  | .engineCommandStart _ _ _ => []
  | .engineCompletion _ _ => []
  | .matrixCommandStart _ _ _ _ => []
  | .matrixCompletion _ _ => []
  | .routerForward _ => []
  | .gatewayArrival _ _ => []
  | .arrivalRingReentry _ => []
  | .arrivalRingFullReport _ => []
  | .linkCrcError _ => []
  | .linkRetrain _ => []
  | .linkDown _ => []
  | .podCounterExchange _ _ => []
  | .rdRequest _ => []
  | .wrRequest _ => []
  | .amoRequest _ => []
  | .amopRequest _ => []
  | .casRequest _ => []
  | .parkNoticeRepeat _ _ => []
  | .parkLimitExpiry _ _ => []
  | .parkedRequestReplay _ _ => []
  | .rdataReply _ => []
  | .ackReply _ => []
  | .parkNotice _ => []
  | .errReply _ => []
  | .farTimerExpiry _ _ => []
  | .nackResend _ _ => []
  | .imageLoad _ => []
  | .launchGateOpen _ => []
  | .initialMessageRelease _ => []
  | .jobRetirement _ => []
  | .tokenWrite _ _ => []
  | .tokenRelease _ => []
  | .qctlReset _ _ => []
  | .meventClear _ => []
  | .powercapWrite _ => []
  | .hostRegisterWrite _ _ => []
  | .attest => []
  | .fwupdate => []
  | .recover => []
  | .cert => []
  | .reset => []
  | .powerGood => []
  | .firmwareVerification => []
  | .hbmTrainingComplete => []
  | .earlyToFull => []
  | .thermalThrottle => []
  | .thermalShutdown => []
  | .patrolScrub _ _ => []
  | .softErrorThreshold => []
  | .governorWindow _ => []
  | .freeze _ => []
  | .release _ => []
  | .preempt _ => []
  | .preemptGraceEnd _ => []
  | .restore _ => []
  | .resume _ => []
  | .ready _ => []
  | .open_ _ => []
  | .abort _ => []
  | .qreport _ => []
  | .retire _ => []
  | .tlh _ => []
  | .cfgw _ => []
  | .papply _ => []
  | .bistCompletion _ _ => []
  | .trainingFailure _ => []
  | .linkRetrained _ => []
  | .completedTransactionCacheExpiry _ => []
  | .thermalThrottleEnd => []
  | .powerFail => []

/-- The scalar register an instruction writes, where it is no source (R48). -/
def Instr.dst : Instr → Option SReg
  | .add d _ _ => some d
  | .sub d _ _ => some d
  | .mul d _ _ => some d
  | .mulh d _ _ => some d
  | .mulhu d _ _ => some d
  | .mulhsu d _ _ => some d
  | .div d _ _ => some d
  | .divu d _ _ => some d
  | .rem d _ _ => some d
  | .remu d _ _ => some d
  | .and d _ _ => some d
  | .or d _ _ => some d
  | .xor d _ _ => some d
  | .andn d _ _ => some d
  | .orn d _ _ => some d
  | .sll d _ _ => some d
  | .srl d _ _ => some d
  | .sra d _ _ => some d
  | .rol d _ _ => some d
  | .ror d _ _ => some d
  | .min d _ _ => some d
  | .minu d _ _ => some d
  | .max d _ _ => some d
  | .maxu d _ _ => some d
  | .adds d _ _ => some d
  | .subs d _ _ => some d
  | .addsu d _ _ => some d
  | .subsu d _ _ => some d
  | .clz d _ => some d
  | .ctz d _ => some d
  | .popc d _ => some d
  | .bswap d _ => some d
  | .fadd _ _ d _ _ => some d
  | .fsub _ _ d _ _ => some d
  | .fmul _ _ d _ _ => some d
  | .fmin _ d _ _ => some d
  | .fmax _ d _ _ => some d
  | .fminn _ d _ _ => some d
  | .fmaxn _ d _ _ => some d
  | .bool3 _ _ _ _ => none
  | .fshlImm d _ _ _ => some d
  | .fshrImm d _ _ _ => some d
  | .fshlReg d _ _ _ => some d
  | .fshrReg d _ _ _ => some d
  | .ext d _ _ _ => some d
  | .extn d _ _ _ => some d
  | .ins _ _ _ _ => none
  | .addi d _ _ => some d
  | .andi d _ _ => some d
  | .ori d _ _ => some d
  | .xori d _ _ => some d
  | .slli d _ _ => some d
  | .srli d _ _ => some d
  | .srai d _ _ => some d
  | .rori d _ _ => some d
  | .lui d _ => some d
  | .li d _ => some d
  | .cmp _ _ _ _ => none
  | .cmpi _ _ _ _ => none
  | .sel d _ _ _ => some d
  | .lea d _ _ _ => some d
  | .ldn _ _ d _ _ => some d
  | .stn _ _ _ _ => none
  | .ldf _ _ d _ _ => some d
  | .stf _ _ _ _ => none
  | .amoFetch _ _ d _ _ => some d
  | .amoPost _ _ _ _ => none
  | .cas _ _ _ _ => none
  | .stnb _ _ _ _ _ => none
  | .vldn _ _ _ _ => none
  | .vstn _ _ _ _ => none
  | .vgthn _ _ _ _ _ => none
  | .vsctn _ _ _ _ _ => none
  | .vldf _ _ _ _ => none
  | .vstf _ _ _ _ => none
  | .br _ _ _ => none
  | .j _ => none
  | .jal _ => none
  | .jalr d _ _ => some d
  | .btag _ => none
  | .loopReg _ _ => none
  | .loopImm _ _ => none
  | .ret => none
  | .nop => none
  | .trap _ => none
  | .eret => none
  | .yield => none
  | .commit => none
  | .fence _ => none
  | .brk _ => none
  | .wait _ => none
  | .send _ _ _ _ => none
  | .sendR _ _ _ _ => none
  | .sendv _ _ _ _ _ => none
  | .mcast _ _ _ _ => none
  | .get _ _ _ _ _ => none
  | .put _ _ _ => none
  | .recv _ => none
  | .arm _ => none
  | .disarm _ => none
  | .tcnt d _ => some d
  | .setf _ => none
  | .clrf _ => none
  | .tlaunch _ => none
  | .jdone => none
  | .bar _ => none
  | .arrive _ => none
  | .csrr d _ => some d
  | .csrw d _ _ => some d
  | .csrs d _ _ => some d
  | .csrc d _ _ => some d
  | .vaddInt _ _ _ _ _ => none
  | .vsubInt _ _ _ _ _ => none
  | .vmulInt _ _ _ _ _ => none
  | .vmulh _ _ _ _ _ => none
  | .vadds _ _ _ _ _ => none
  | .vsubs _ _ _ _ _ => none
  | .vminInt _ _ _ _ _ => none
  | .vmaxInt _ _ _ _ _ => none
  | .vand _ _ _ _ _ => none
  | .vor _ _ _ _ _ => none
  | .vxor _ _ _ _ _ => none
  | .vabsInt _ _ _ _ => none
  | .vnegInt _ _ _ _ => none
  | .vaddFp _ _ _ _ _ _ => none
  | .vsubFp _ _ _ _ _ _ => none
  | .vmulFp _ _ _ _ _ _ => none
  | .vfma _ _ _ _ _ _ => none
  | .vfms _ _ _ _ _ _ => none
  | .vfnma _ _ _ _ _ _ => none
  | .vminFp _ _ _ _ _ => none
  | .vmaxFp _ _ _ _ _ => none
  | .vminn _ _ _ _ _ => none
  | .vmaxn _ _ _ _ _ => none
  | .vabsFp _ _ _ _ => none
  | .vnegFp _ _ _ _ => none
  | .vcsgn _ _ _ _ _ => none
  | .vcmp _ _ _ _ _ _ => none
  | .vcvt _ _ _ _ _ _ _ _ => none
  | .vrcp _ _ _ _ _ => none
  | .vrsq _ _ _ _ _ => none
  | .vsqrt _ _ _ _ _ => none
  | .vdiv _ _ _ _ _ _ => none
  | .vexp2 _ _ _ _ _ => none
  | .vlog2 _ _ _ _ _ => none
  | .vperm _ _ _ _ _ => none
  | .vbcst _ _ _ _ _ => none
  | .vzip _ _ _ _ _ => none
  | .vunzip _ _ _ _ _ => none
  | .vredadd _ _ _ _ => none
  | .vredmin _ _ _ _ => none
  | .vredmax _ _ _ _ => none
  | .vredminn _ _ _ _ => none
  | .vredmaxn _ _ _ _ => none
  | .vsll _ _ _ _ _ => none
  | .vsrl _ _ _ _ _ => none
  | .vsra _ _ _ _ _ => none
  | .vslli _ _ _ _ _ => none
  | .vsrli _ _ _ _ _ => none
  | .vsrai _ _ _ _ _ => none
  | .vbool3 _ _ _ _ _ => none
  | .vins _ _ _ => none
  | .vext _ sr _ => some sr
  | .vdup _ _ => none
  | .qset _ _ => none
  | .qget sr _ => some sr
  | .mop _ _ _ _ _ _ _ _ => none
  | .mopsZc _ _ _ _ _ _ _ _ _ => none
  | .mopsS24 _ _ _ _ _ _ _ _ _ => none
  | .mzero _ _ _ => none
  | .mload _ _ _ _ _ => none
  | .mdrain _ _ _ _ _ _ _ _ => none
  | .mseed _ _ => none
  | .tdir d _ => some d
  | .tzero _ _ _ => none
  | .tfill _ _ _ _ _ => none
  | .tident _ _ _ _ _ => none
  | .xcopy _ _ _ _ _ _ _ => none
  | .xmapLd _ _ _ _ _ _ => none
  | .xmapSt _ _ _ _ _ _ => none
  | .xgather _ _ _ _ _ _ _ => none
  | .xscatter _ _ _ _ _ _ _ _ _ => none
  | .xpack _ _ _ _ _ _ _ => none
  | .xunpack _ _ _ _ _ _ _ => none
  | .xembed _ _ _ _ _ _ _ => none
  | .xstream _ _ _ _ _ _ _ _ => none
  | .rngw _ _ _ => none
  | .rngr d _ _ => some d
  | .rngclr _ => none
  | .pgw _ _ => none
  | .pgr d _ => some d
  | .pginv _ => none
  | .illegalInstruction _ => none
  | .commitInjection _ _ => none
  | .messageArrival _ => none
  | .payloadFlitArrival _ _ => none
  | .kittyReturn _ _ => none
  | .recvDelivery _ _ => none
  | .handlerStart _ => none
  | .spreadMove _ => none
  | .barArrival _ => none
  | .barrierRelease _ => none
  | .waitDeadline _ _ => none
  | .watchdogStop _ => none
  | .engineCommandStart _ _ _ => none
  | .engineCompletion _ _ => none
  | .matrixCommandStart _ _ _ _ => none
  | .matrixCompletion _ _ => none
  | .routerForward _ => none
  | .gatewayArrival _ _ => none
  | .arrivalRingReentry _ => none
  | .arrivalRingFullReport _ => none
  | .linkCrcError _ => none
  | .linkRetrain _ => none
  | .linkDown _ => none
  | .podCounterExchange _ _ => none
  | .rdRequest _ => none
  | .wrRequest _ => none
  | .amoRequest _ => none
  | .amopRequest _ => none
  | .casRequest _ => none
  | .parkNoticeRepeat _ _ => none
  | .parkLimitExpiry _ _ => none
  | .parkedRequestReplay _ _ => none
  | .rdataReply _ => none
  | .ackReply _ => none
  | .parkNotice _ => none
  | .errReply _ => none
  | .farTimerExpiry _ _ => none
  | .nackResend _ _ => none
  | .imageLoad _ => none
  | .launchGateOpen _ => none
  | .initialMessageRelease _ => none
  | .jobRetirement _ => none
  | .tokenWrite _ _ => none
  | .tokenRelease _ => none
  | .qctlReset _ _ => none
  | .meventClear _ => none
  | .powercapWrite _ => none
  | .hostRegisterWrite _ _ => none
  | .attest => none
  | .fwupdate => none
  | .recover => none
  | .cert => none
  | .reset => none
  | .powerGood => none
  | .firmwareVerification => none
  | .hbmTrainingComplete => none
  | .earlyToFull => none
  | .thermalThrottle => none
  | .thermalShutdown => none
  | .patrolScrub _ _ => none
  | .softErrorThreshold => none
  | .governorWindow _ => none
  | .freeze _ => none
  | .release _ => none
  | .preempt _ => none
  | .preemptGraceEnd _ => none
  | .restore _ => none
  | .resume _ => none
  | .ready _ => none
  | .open_ _ => none
  | .abort _ => none
  | .qreport _ => none
  | .retire _ => none
  | .tlh _ => none
  | .cfgw _ => none
  | .papply _ => none
  | .bistCompletion _ _ => none
  | .trainingFailure _ => none
  | .linkRetrained _ => none
  | .completedTransactionCacheExpiry _ => none
  | .thermalThrottleEnd => none
  | .powerFail => none

/-- The scalar register an instruction both reads and writes, which may be no port (R48). -/
def Instr.both : Instr → Option SReg
  | .add _ _ _ => none
  | .sub _ _ _ => none
  | .mul _ _ _ => none
  | .mulh _ _ _ => none
  | .mulhu _ _ _ => none
  | .mulhsu _ _ _ => none
  | .div _ _ _ => none
  | .divu _ _ _ => none
  | .rem _ _ _ => none
  | .remu _ _ _ => none
  | .and _ _ _ => none
  | .or _ _ _ => none
  | .xor _ _ _ => none
  | .andn _ _ _ => none
  | .orn _ _ _ => none
  | .sll _ _ _ => none
  | .srl _ _ _ => none
  | .sra _ _ _ => none
  | .rol _ _ _ => none
  | .ror _ _ _ => none
  | .min _ _ _ => none
  | .minu _ _ _ => none
  | .max _ _ _ => none
  | .maxu _ _ _ => none
  | .adds _ _ _ => none
  | .subs _ _ _ => none
  | .addsu _ _ _ => none
  | .subsu _ _ _ => none
  | .clz _ _ => none
  | .ctz _ _ => none
  | .popc _ _ => none
  | .bswap _ _ => none
  | .fadd _ _ _ _ _ => none
  | .fsub _ _ _ _ _ => none
  | .fmul _ _ _ _ _ => none
  | .fmin _ _ _ _ => none
  | .fmax _ _ _ _ => none
  | .fminn _ _ _ _ => none
  | .fmaxn _ _ _ _ => none
  | .bool3 d _ _ _ => some d
  | .fshlImm _ _ _ _ => none
  | .fshrImm _ _ _ _ => none
  | .fshlReg _ _ _ _ => none
  | .fshrReg _ _ _ _ => none
  | .ext _ _ _ _ => none
  | .extn _ _ _ _ => none
  | .ins d _ _ _ => some d
  | .addi _ _ _ => none
  | .andi _ _ _ => none
  | .ori _ _ _ => none
  | .xori _ _ _ => none
  | .slli _ _ _ => none
  | .srli _ _ _ => none
  | .srai _ _ _ => none
  | .rori _ _ _ => none
  | .lui _ _ => none
  | .li _ _ => none
  | .cmp _ _ _ _ => none
  | .cmpi _ _ _ _ => none
  | .sel _ _ _ _ => none
  | .lea _ _ _ _ => none
  | .ldn _ _ _ _ _ => none
  | .stn _ _ _ _ => none
  | .ldf _ _ _ _ _ => none
  | .stf _ _ _ _ => none
  | .amoFetch _ _ _ _ _ => none
  | .amoPost _ _ _ _ => none
  | .cas _ d _ _ => some d
  | .stnb _ _ _ _ _ => none
  | .vldn _ _ _ _ => none
  | .vstn _ _ _ _ => none
  | .vgthn _ _ _ _ _ => none
  | .vsctn _ _ _ _ _ => none
  | .vldf _ _ _ _ => none
  | .vstf _ _ _ _ => none
  | .br _ _ _ => none
  | .j _ => none
  | .jal _ => none
  | .jalr _ _ _ => none
  | .btag _ => none
  | .loopReg _ _ => none
  | .loopImm _ _ => none
  | .ret => none
  | .nop => none
  | .trap _ => none
  | .eret => none
  | .yield => none
  | .commit => none
  | .fence _ => none
  | .brk _ => none
  | .wait _ => none
  | .send _ _ _ _ => none
  | .sendR _ _ _ _ => none
  | .sendv _ _ _ _ _ => none
  | .mcast _ _ _ _ => none
  | .get _ _ _ _ _ => none
  | .put _ _ _ => none
  | .recv _ => none
  | .arm _ => none
  | .disarm _ => none
  | .tcnt _ _ => none
  | .setf _ => none
  | .clrf _ => none
  | .tlaunch _ => none
  | .jdone => none
  | .bar _ => none
  | .arrive _ => none
  | .csrr _ _ => none
  | .csrw _ _ _ => none
  | .csrs _ _ _ => none
  | .csrc _ _ _ => none
  | .vaddInt _ _ _ _ _ => none
  | .vsubInt _ _ _ _ _ => none
  | .vmulInt _ _ _ _ _ => none
  | .vmulh _ _ _ _ _ => none
  | .vadds _ _ _ _ _ => none
  | .vsubs _ _ _ _ _ => none
  | .vminInt _ _ _ _ _ => none
  | .vmaxInt _ _ _ _ _ => none
  | .vand _ _ _ _ _ => none
  | .vor _ _ _ _ _ => none
  | .vxor _ _ _ _ _ => none
  | .vabsInt _ _ _ _ => none
  | .vnegInt _ _ _ _ => none
  | .vaddFp _ _ _ _ _ _ => none
  | .vsubFp _ _ _ _ _ _ => none
  | .vmulFp _ _ _ _ _ _ => none
  | .vfma _ _ _ _ _ _ => none
  | .vfms _ _ _ _ _ _ => none
  | .vfnma _ _ _ _ _ _ => none
  | .vminFp _ _ _ _ _ => none
  | .vmaxFp _ _ _ _ _ => none
  | .vminn _ _ _ _ _ => none
  | .vmaxn _ _ _ _ _ => none
  | .vabsFp _ _ _ _ => none
  | .vnegFp _ _ _ _ => none
  | .vcsgn _ _ _ _ _ => none
  | .vcmp _ _ _ _ _ _ => none
  | .vcvt _ _ _ _ _ _ _ _ => none
  | .vrcp _ _ _ _ _ => none
  | .vrsq _ _ _ _ _ => none
  | .vsqrt _ _ _ _ _ => none
  | .vdiv _ _ _ _ _ _ => none
  | .vexp2 _ _ _ _ _ => none
  | .vlog2 _ _ _ _ _ => none
  | .vperm _ _ _ _ _ => none
  | .vbcst _ _ _ _ _ => none
  | .vzip _ _ _ _ _ => none
  | .vunzip _ _ _ _ _ => none
  | .vredadd _ _ _ _ => none
  | .vredmin _ _ _ _ => none
  | .vredmax _ _ _ _ => none
  | .vredminn _ _ _ _ => none
  | .vredmaxn _ _ _ _ => none
  | .vsll _ _ _ _ _ => none
  | .vsrl _ _ _ _ _ => none
  | .vsra _ _ _ _ _ => none
  | .vslli _ _ _ _ _ => none
  | .vsrli _ _ _ _ _ => none
  | .vsrai _ _ _ _ _ => none
  | .vbool3 _ _ _ _ _ => none
  | .vins _ _ _ => none
  | .vext _ _ _ => none
  | .vdup _ _ => none
  | .qset _ _ => none
  | .qget _ _ => none
  | .mop _ _ _ _ _ _ _ _ => none
  | .mopsZc _ _ _ _ _ _ _ _ _ => none
  | .mopsS24 _ _ _ _ _ _ _ _ _ => none
  | .mzero _ _ _ => none
  | .mload _ _ _ _ _ => none
  | .mdrain _ _ _ _ _ _ _ _ => none
  | .mseed _ _ => none
  | .tdir _ _ => none
  | .tzero _ _ _ => none
  | .tfill _ _ _ _ _ => none
  | .tident _ _ _ _ _ => none
  | .xcopy _ _ _ _ _ _ _ => none
  | .xmapLd _ _ _ _ _ _ => none
  | .xmapSt _ _ _ _ _ _ => none
  | .xgather _ _ _ _ _ _ _ => none
  | .xscatter _ _ _ _ _ _ _ _ _ => none
  | .xpack _ _ _ _ _ _ _ => none
  | .xunpack _ _ _ _ _ _ _ => none
  | .xembed _ _ _ _ _ _ _ => none
  | .xstream _ _ _ _ _ _ _ _ => none
  | .rngw _ _ _ => none
  | .rngr _ _ _ => none
  | .rngclr _ => none
  | .pgw _ _ => none
  | .pgr _ _ => none
  | .pginv _ => none
  | .illegalInstruction _ => none
  | .commitInjection _ _ => none
  | .messageArrival _ => none
  | .payloadFlitArrival _ _ => none
  | .kittyReturn _ _ => none
  | .recvDelivery _ _ => none
  | .handlerStart _ => none
  | .spreadMove _ => none
  | .barArrival _ => none
  | .barrierRelease _ => none
  | .waitDeadline _ _ => none
  | .watchdogStop _ => none
  | .engineCommandStart _ _ _ => none
  | .engineCompletion _ _ => none
  | .matrixCommandStart _ _ _ _ => none
  | .matrixCompletion _ _ => none
  | .routerForward _ => none
  | .gatewayArrival _ _ => none
  | .arrivalRingReentry _ => none
  | .arrivalRingFullReport _ => none
  | .linkCrcError _ => none
  | .linkRetrain _ => none
  | .linkDown _ => none
  | .podCounterExchange _ _ => none
  | .rdRequest _ => none
  | .wrRequest _ => none
  | .amoRequest _ => none
  | .amopRequest _ => none
  | .casRequest _ => none
  | .parkNoticeRepeat _ _ => none
  | .parkLimitExpiry _ _ => none
  | .parkedRequestReplay _ _ => none
  | .rdataReply _ => none
  | .ackReply _ => none
  | .parkNotice _ => none
  | .errReply _ => none
  | .farTimerExpiry _ _ => none
  | .nackResend _ _ => none
  | .imageLoad _ => none
  | .launchGateOpen _ => none
  | .initialMessageRelease _ => none
  | .jobRetirement _ => none
  | .tokenWrite _ _ => none
  | .tokenRelease _ => none
  | .qctlReset _ _ => none
  | .meventClear _ => none
  | .powercapWrite _ => none
  | .hostRegisterWrite _ _ => none
  | .attest => none
  | .fwupdate => none
  | .recover => none
  | .cert => none
  | .reset => none
  | .powerGood => none
  | .firmwareVerification => none
  | .hbmTrainingComplete => none
  | .earlyToFull => none
  | .thermalThrottle => none
  | .thermalShutdown => none
  | .patrolScrub _ _ => none
  | .softErrorThreshold => none
  | .governorWindow _ => none
  | .freeze _ => none
  | .release _ => none
  | .preempt _ => none
  | .preemptGraceEnd _ => none
  | .restore _ => none
  | .resume _ => none
  | .ready _ => none
  | .open_ _ => none
  | .abort _ => none
  | .qreport _ => none
  | .retire _ => none
  | .tlh _ => none
  | .cfgw _ => none
  | .papply _ => none
  | .bistCompletion _ _ => none
  | .trainingFailure _ => none
  | .linkRetrained _ => none
  | .completedTransactionCacheExpiry _ => none
  | .thermalThrottleEnd => none
  | .powerFail => none

/-- The vector registers an instruction reads or writes. -/
def Instr.vregs : Instr → List VReg
  | .add _ _ _ => []
  | .sub _ _ _ => []
  | .mul _ _ _ => []
  | .mulh _ _ _ => []
  | .mulhu _ _ _ => []
  | .mulhsu _ _ _ => []
  | .div _ _ _ => []
  | .divu _ _ _ => []
  | .rem _ _ _ => []
  | .remu _ _ _ => []
  | .and _ _ _ => []
  | .or _ _ _ => []
  | .xor _ _ _ => []
  | .andn _ _ _ => []
  | .orn _ _ _ => []
  | .sll _ _ _ => []
  | .srl _ _ _ => []
  | .sra _ _ _ => []
  | .rol _ _ _ => []
  | .ror _ _ _ => []
  | .min _ _ _ => []
  | .minu _ _ _ => []
  | .max _ _ _ => []
  | .maxu _ _ _ => []
  | .adds _ _ _ => []
  | .subs _ _ _ => []
  | .addsu _ _ _ => []
  | .subsu _ _ _ => []
  | .clz _ _ => []
  | .ctz _ _ => []
  | .popc _ _ => []
  | .bswap _ _ => []
  | .fadd _ _ _ _ _ => []
  | .fsub _ _ _ _ _ => []
  | .fmul _ _ _ _ _ => []
  | .fmin _ _ _ _ => []
  | .fmax _ _ _ _ => []
  | .fminn _ _ _ _ => []
  | .fmaxn _ _ _ _ => []
  | .bool3 _ _ _ _ => []
  | .fshlImm _ _ _ _ => []
  | .fshrImm _ _ _ _ => []
  | .fshlReg _ _ _ _ => []
  | .fshrReg _ _ _ _ => []
  | .ext _ _ _ _ => []
  | .extn _ _ _ _ => []
  | .ins _ _ _ _ => []
  | .addi _ _ _ => []
  | .andi _ _ _ => []
  | .ori _ _ _ => []
  | .xori _ _ _ => []
  | .slli _ _ _ => []
  | .srli _ _ _ => []
  | .srai _ _ _ => []
  | .rori _ _ _ => []
  | .lui _ _ => []
  | .li _ _ => []
  | .cmp _ _ _ _ => []
  | .cmpi _ _ _ _ => []
  | .sel _ _ _ _ => []
  | .lea _ _ _ _ => []
  | .ldn _ _ _ _ _ => []
  | .stn _ _ _ _ => []
  | .ldf _ _ _ _ _ => []
  | .stf _ _ _ _ => []
  | .amoFetch _ _ _ _ _ => []
  | .amoPost _ _ _ _ => []
  | .cas _ _ _ _ => []
  | .stnb _ _ _ _ _ => []
  | .vldn vd _ _ _ => [vd]
  | .vstn vd _ _ _ => [vd]
  | .vgthn vd _ _ vi _ => [vd, vi]
  | .vsctn vd _ _ vi _ => [vd, vi]
  | .vldf vd _ _ _ => [vd]
  | .vstf vd _ _ _ => [vd]
  | .br _ _ _ => []
  | .j _ => []
  | .jal _ => []
  | .jalr _ _ _ => []
  | .btag _ => []
  | .loopReg _ _ => []
  | .loopImm _ _ => []
  | .ret => []
  | .nop => []
  | .trap _ => []
  | .eret => []
  | .yield => []
  | .commit => []
  | .fence _ => []
  | .brk _ => []
  | .wait _ => []
  | .send _ _ _ _ => []
  | .sendR _ _ _ _ => []
  | .sendv _ _ _ _ vb => [vb]
  | .mcast _ _ _ _ => []
  | .get _ _ _ _ _ => []
  | .put _ _ _ => []
  | .recv _ => []
  | .arm _ => []
  | .disarm _ => []
  | .tcnt _ _ => []
  | .setf _ => []
  | .clrf _ => []
  | .tlaunch _ => []
  | .jdone => []
  | .bar _ => []
  | .arrive _ => []
  | .csrr _ _ => []
  | .csrw _ _ _ => []
  | .csrs _ _ _ => []
  | .csrc _ _ _ => []
  | .vaddInt _ vd va vb _ => [vd, va, vb]
  | .vsubInt _ vd va vb _ => [vd, va, vb]
  | .vmulInt _ vd va vb _ => [vd, va, vb]
  | .vmulh _ vd va vb _ => [vd, va, vb]
  | .vadds _ vd va vb _ => [vd, va, vb]
  | .vsubs _ vd va vb _ => [vd, va, vb]
  | .vminInt _ vd va vb _ => [vd, va, vb]
  | .vmaxInt _ vd va vb _ => [vd, va, vb]
  | .vand _ vd va vb _ => [vd, va, vb]
  | .vor _ vd va vb _ => [vd, va, vb]
  | .vxor _ vd va vb _ => [vd, va, vb]
  | .vabsInt _ vd va _ => [vd, va]
  | .vnegInt _ vd va _ => [vd, va]
  | .vaddFp _ _ vd va vb _ => [vd, va, vb]
  | .vsubFp _ _ vd va vb _ => [vd, va, vb]
  | .vmulFp _ _ vd va vb _ => [vd, va, vb]
  | .vfma _ _ vd va vb _ => [vd, va, vb]
  | .vfms _ _ vd va vb _ => [vd, va, vb]
  | .vfnma _ _ vd va vb _ => [vd, va, vb]
  | .vminFp _ vd va vb _ => [vd, va, vb]
  | .vmaxFp _ vd va vb _ => [vd, va, vb]
  | .vminn _ vd va vb _ => [vd, va, vb]
  | .vmaxn _ vd va vb _ => [vd, va, vb]
  | .vabsFp _ vd va _ => [vd, va]
  | .vnegFp _ vd va _ => [vd, va]
  | .vcsgn _ vd va vb _ => [vd, va, vb]
  | .vcmp _ _ _ va vb _ => [va, vb]
  | .vcvt _ _ _ _ vd va _ _ => [vd, va]
  | .vrcp _ _ vd va _ => [vd, va]
  | .vrsq _ _ vd va _ => [vd, va]
  | .vsqrt _ _ vd va _ => [vd, va]
  | .vdiv _ _ vd va vb _ => [vd, va, vb]
  | .vexp2 _ _ vd va _ => [vd, va]
  | .vlog2 _ _ vd va _ => [vd, va]
  | .vperm _ vd va vb _ => [vd, va, vb]
  | .vbcst _ vd va _ _ => [vd, va]
  | .vzip _ vd va vb _ => [vd, va, vb]
  | .vunzip _ vd va vb _ => [vd, va, vb]
  | .vredadd _ vd va _ => [vd, va]
  | .vredmin _ vd va _ => [vd, va]
  | .vredmax _ vd va _ => [vd, va]
  | .vredminn _ vd va _ => [vd, va]
  | .vredmaxn _ vd va _ => [vd, va]
  | .vsll _ vd va vb _ => [vd, va, vb]
  | .vsrl _ vd va vb _ => [vd, va, vb]
  | .vsra _ vd va vb _ => [vd, va, vb]
  | .vslli _ vd va _ _ => [vd, va]
  | .vsrli _ vd va _ _ => [vd, va]
  | .vsrai _ vd va _ _ => [vd, va]
  | .vbool3 vd va vb _ _ => [vd, va, vb]
  | .vins v _ _ => [v]
  | .vext v _ _ => [v]
  | .vdup v _ => [v]
  | .qset _ _ => []
  | .qget _ _ => []
  | .mop _ _ _ _ _ _ _ _ => []
  | .mopsZc _ _ _ _ _ _ _ _ _ => []
  | .mopsS24 _ _ _ _ _ _ _ _ _ => []
  | .mzero _ _ _ => []
  | .mload _ _ _ _ _ => []
  | .mdrain _ _ _ _ _ _ _ _ => []
  | .mseed _ _ => []
  | .tdir _ _ => []
  | .tzero _ _ _ => []
  | .tfill _ _ _ _ _ => []
  | .tident _ _ _ _ _ => []
  | .xcopy _ _ _ _ _ _ _ => []
  | .xmapLd _ _ _ _ _ _ => []
  | .xmapSt _ _ _ _ _ _ => []
  | .xgather _ _ _ _ _ _ _ => []
  | .xscatter _ _ _ _ _ _ _ _ _ => []
  | .xpack _ _ _ _ _ _ _ => []
  | .xunpack _ _ _ _ _ _ _ => []
  | .xembed _ _ _ _ _ _ _ => []
  | .xstream _ _ _ _ _ _ _ _ => []
  | .rngw _ _ _ => []
  | .rngr _ _ _ => []
  | .rngclr _ => []
  | .pgw _ _ => []
  | .pgr _ _ => []
  | .pginv _ => []
  | .illegalInstruction _ => []
  | .commitInjection _ _ => []
  | .messageArrival _ => []
  | .payloadFlitArrival _ _ => []
  | .kittyReturn _ _ => []
  | .recvDelivery _ _ => []
  | .handlerStart _ => []
  | .spreadMove _ => []
  | .barArrival _ => []
  | .barrierRelease _ => []
  | .waitDeadline _ _ => []
  | .watchdogStop _ => []
  | .engineCommandStart _ _ _ => []
  | .engineCompletion _ _ => []
  | .matrixCommandStart _ _ _ _ => []
  | .matrixCompletion _ _ => []
  | .routerForward _ => []
  | .gatewayArrival _ _ => []
  | .arrivalRingReentry _ => []
  | .arrivalRingFullReport _ => []
  | .linkCrcError _ => []
  | .linkRetrain _ => []
  | .linkDown _ => []
  | .podCounterExchange _ _ => []
  | .rdRequest _ => []
  | .wrRequest _ => []
  | .amoRequest _ => []
  | .amopRequest _ => []
  | .casRequest _ => []
  | .parkNoticeRepeat _ _ => []
  | .parkLimitExpiry _ _ => []
  | .parkedRequestReplay _ _ => []
  | .rdataReply _ => []
  | .ackReply _ => []
  | .parkNotice _ => []
  | .errReply _ => []
  | .farTimerExpiry _ _ => []
  | .nackResend _ _ => []
  | .imageLoad _ => []
  | .launchGateOpen _ => []
  | .initialMessageRelease _ => []
  | .jobRetirement _ => []
  | .tokenWrite _ _ => []
  | .tokenRelease _ => []
  | .qctlReset _ _ => []
  | .meventClear _ => []
  | .powercapWrite _ => []
  | .hostRegisterWrite _ _ => []
  | .attest => []
  | .fwupdate => []
  | .recover => []
  | .cert => []
  | .reset => []
  | .powerGood => []
  | .firmwareVerification => []
  | .hbmTrainingComplete => []
  | .earlyToFull => []
  | .thermalThrottle => []
  | .thermalShutdown => []
  | .patrolScrub _ _ => []
  | .softErrorThreshold => []
  | .governorWindow _ => []
  | .freeze _ => []
  | .release _ => []
  | .preempt _ => []
  | .preemptGraceEnd _ => []
  | .restore _ => []
  | .resume _ => []
  | .ready _ => []
  | .open_ _ => []
  | .abort _ => []
  | .qreport _ => []
  | .retire _ => []
  | .tlh _ => []
  | .cfgw _ => []
  | .papply _ => []
  | .bistCompletion _ _ => []
  | .trainingFailure _ => []
  | .linkRetrained _ => []
  | .completedTransactionCacheExpiry _ => []
  | .thermalThrottleEnd => []
  | .powerFail => []

/-- The field ranges of the encodings, the register fields apart (R51 to R68, R159, R210, R300). -/
def Instr.rangesOk : Instr → Bool
  | .add _ _ _ => true
  | .sub _ _ _ => true
  | .mul _ _ _ => true
  | .mulh _ _ _ => true
  | .mulhu _ _ _ => true
  | .mulhsu _ _ _ => true
  | .div _ _ _ => true
  | .divu _ _ _ => true
  | .rem _ _ _ => true
  | .remu _ _ _ => true
  | .and _ _ _ => true
  | .or _ _ _ => true
  | .xor _ _ _ => true
  | .andn _ _ _ => true
  | .orn _ _ _ => true
  | .sll _ _ _ => true
  | .srl _ _ _ => true
  | .sra _ _ _ => true
  | .rol _ _ _ => true
  | .ror _ _ _ => true
  | .min _ _ _ => true
  | .minu _ _ _ => true
  | .max _ _ _ => true
  | .maxu _ _ _ => true
  | .adds _ _ _ => true
  | .subs _ _ _ => true
  | .addsu _ _ _ => true
  | .subsu _ _ _ => true
  | .clz _ _ => true
  | .ctz _ _ => true
  | .popc _ _ => true
  | .bswap _ _ => true
  | .fadd _ rm _ _ _ => decide (rm ≠ .sr)
  | .fsub _ rm _ _ _ => decide (rm ≠ .sr)
  | .fmul _ rm _ _ _ => decide (rm ≠ .sr)
  | .fmin _ _ _ _ => true
  | .fmax _ _ _ _ => true
  | .fminn _ _ _ _ => true
  | .fmaxn _ _ _ _ => true
  | .bool3 _ _ _ _ => true
  | .fshlImm _ _ _ _ => true
  | .fshrImm _ _ _ _ => true
  | .fshlReg _ _ _ _ => true
  | .fshrReg _ _ _ _ => true
  | .ext _ _ pos len1 => decide (pos.toNat + len1.toNat + 1 ≤ 64)
  | .extn _ _ pos len1 => decide (pos.toNat + len1.toNat + 1 ≤ 64)
  | .ins _ _ pos len1 => decide (pos.toNat + len1.toNat + 1 ≤ 64)
  | .addi _ _ _ => true
  | .andi _ _ _ => true
  | .ori _ _ _ => true
  | .xori _ _ _ => true
  | .slli _ _ _ => true
  | .srli _ _ _ => true
  | .srai _ _ _ => true
  | .rori _ _ _ => true
  | .lui _ _ => true
  | .li _ _ => true
  | .cmp _ _ _ _ => true
  | .cmpi _ _ _ _ => true
  | .sel _ _ _ _ => true
  | .lea _ _ _ _ => true
  | .ldn sz x _ _ _ => decide (¬ (x = true ∧ sz = .d))
  | .stn _ _ _ _ => true
  | .ldf sz x _ _ _ => decide (¬ (x = true ∧ sz = .d))
  | .stf _ _ _ _ => true
  | .amoFetch _ _ _ _ _ => true
  | .amoPost _ _ _ _ => true
  | .cas _ _ _ _ => true
  | .stnb _ _ _ _ _ => true
  | .vldn _ _ _ _ => true
  | .vstn _ _ _ _ => true
  | .vgthn _ _ _ _ _ => true
  | .vsctn _ _ _ _ _ => true
  | .vldf _ _ _ _ => true
  | .vstf _ _ _ _ => true
  | .br _ _ _ => true
  | .j _ => true
  | .jal _ => true
  | .jalr _ _ _ => true
  | .btag _ => true
  | .loopReg _ _ => true
  | .loopImm _ _ => true
  | .ret => true
  | .nop => true
  | .trap _ => true
  | .eret => true
  | .yield => true
  | .commit => true
  | .fence _ => true
  | .brk _ => true
  | .wait _ => true
  | .send _ _ _ _ => true
  | .sendR _ _ _ _ => true
  | .sendv _ _ _ _ _ => true
  | .mcast _ _ _ _ => true
  | .get cls _ _ _ _ => decide (cls ≠ .trump)
  | .put _ _ _ => true
  | .recv _ => true
  | .arm _ => true
  | .disarm _ => true
  | .tcnt _ _ => true
  | .setf _ => true
  | .clrf _ => true
  | .tlaunch _ => true
  | .jdone => true
  | .bar _ => true
  | .arrive _ => true
  | .csrr _ _ => true
  | .csrw _ _ _ => true
  | .csrs _ _ _ => true
  | .csrc _ _ _ => true
  | .vaddInt ty _ _ _ _ => decide (ty.isInt = true)
  | .vsubInt ty _ _ _ _ => decide (ty.isInt = true)
  | .vmulInt ty _ _ _ _ => decide (ty.isInt = true)
  | .vmulh ty _ _ _ _ => decide (ty.isInt = true)
  | .vadds ty _ _ _ _ => decide (ty.isInt = true)
  | .vsubs ty _ _ _ _ => decide (ty.isInt = true)
  | .vminInt ty _ _ _ _ => decide (ty.isInt = true)
  | .vmaxInt ty _ _ _ _ => decide (ty.isInt = true)
  | .vand ty _ _ _ _ => decide (ty.isInt = true)
  | .vor ty _ _ _ _ => decide (ty.isInt = true)
  | .vxor ty _ _ _ _ => decide (ty.isInt = true)
  | .vabsInt ty _ _ _ => decide (ty.isInt = true)
  | .vnegInt ty _ _ _ => decide (ty.isInt = true)
  | .vaddFp _ rm _ _ _ _ => decide (rm ≠ .sr)
  | .vsubFp _ rm _ _ _ _ => decide (rm ≠ .sr)
  | .vmulFp _ rm _ _ _ _ => decide (rm ≠ .sr)
  | .vfma _ rm _ _ _ _ => decide (rm ≠ .sr)
  | .vfms _ rm _ _ _ _ => decide (rm ≠ .sr)
  | .vfnma _ rm _ _ _ _ => decide (rm ≠ .sr)
  | .vminFp _ _ _ _ _ => true
  | .vmaxFp _ _ _ _ _ => true
  | .vminn _ _ _ _ _ => true
  | .vmaxn _ _ _ _ _ => true
  | .vabsFp _ _ _ _ => true
  | .vnegFp _ _ _ _ => true
  | .vcsgn _ _ _ _ _ => true
  | .vcmp _ ty _ _ _ _ => decide (ty.upTo10 = true)
  | .vcvt src dst ns rm _ _ part _ => decide (rm ≠ .sr ∧ (ns = true → dst = .e4m3) ∧ cvtParts src dst part.toNat = true)
  | .vrcp _ rm _ _ _ => decide (rm ≠ .sr)
  | .vrsq _ rm _ _ _ => decide (rm ≠ .sr)
  | .vsqrt _ rm _ _ _ => decide (rm ≠ .sr)
  | .vdiv _ rm _ _ _ _ => decide (rm ≠ .sr)
  | .vexp2 _ rm _ _ _ => decide (rm ≠ .sr)
  | .vlog2 _ rm _ _ _ => decide (rm ≠ .sr)
  | .vperm _ _ _ _ _ => true
  | .vbcst _ _ _ _ _ => true
  | .vzip _ _ _ _ _ => true
  | .vunzip _ _ _ _ _ => true
  | .vredadd ty _ _ _ => decide (ty.upTo10 = true)
  | .vredmin ty _ _ _ => decide (ty.upTo10 = true)
  | .vredmax ty _ _ _ => decide (ty.upTo10 = true)
  | .vredminn ty _ _ _ => decide (ty.upTo10 = true)
  | .vredmaxn ty _ _ _ => decide (ty.upTo10 = true)
  | .vsll ty _ _ _ _ => decide (ty.isInt = true)
  | .vsrl ty _ _ _ _ => decide (ty.isInt = true)
  | .vsra ty _ _ _ _ => decide (ty.isInt = true)
  | .vslli ty _ _ sh _ => decide (ty.isInt = true ∧ sh.toNat < ty.bits)
  | .vsrli ty _ _ sh _ => decide (ty.isInt = true ∧ sh.toNat < ty.bits)
  | .vsrai ty _ _ sh _ => decide (ty.isInt = true ∧ sh.toNat < ty.bits)
  | .vbool3 _ _ _ _ _ => true
  | .vins _ _ _ => true
  | .vext _ _ _ => true
  | .vdup _ _ => true
  | .qset _ _ => true
  | .qget _ _ => true
  | .mop _ _ fA fB _ _ _ _ => decide (mopPair fA fB = true)
  | .mopsZc _ _ fA fB _ _ _ _ _ => decide (mopPair fA fB = true)
  | .mopsS24 _ _ fA fB _ _ _ _ _ => decide (mopPair fA fB = true)
  | .mzero _ _ _ => true
  | .mload _ _ fA _ _ => decide (fA ∈ [Tag.f32, .bf16, .f16, .i32])
  | .mdrain _ _ fA _ _ _ _ _ => decide (fA ∈ [Tag.i8, .i16, .i32, .bf16, .f16, .f32, .e4m3, .e5m2, .n8])
  | .mseed _ _ => true
  | .tdir _ _ => true
  | .tzero _ _ _ => true
  | .tfill _ _ _ _ _ => true
  | .tident f _ _ _ _ => decide (f ∈ [Tag.i8, .bf16, .f16, .e4m3, .e5m2, .e2m1, .n8])
  | .xcopy _ _ cls _ _ _ _ => decide (cls ≠ .trump)
  | .xmapLd cls _ _ _ _ _ => decide (cls ≠ .trump)
  | .xmapSt cls _ _ _ _ _ => decide (cls ≠ .trump)
  | .xgather _ cls _ _ _ _ _ => decide (cls ≠ .trump)
  | .xscatter _ acc f cls _ _ _ _ _ => decide (cls ≠ .trump ∧ (if acc then f ∈ [Tag.raw, .bf16, .f16, .f32] else f = .raw))
  | .xpack _ f cls _ _ _ _ => decide (cls ≠ .trump ∧ f ∈ [Tag.i8, .bf16, .f16, .e4m3, .e5m2, .e2m1, .n8])
  | .xunpack _ f cls _ _ _ _ => decide (cls ≠ .trump ∧ f ∈ [Tag.i8, .bf16, .f16, .e4m3, .e5m2, .e2m1, .n8])
  | .xembed f cls _ _ _ _ _ => decide (cls ≠ .trump ∧ f ∈ [Tag.bf16, .f16, .f32])
  | .xstream _ _ cls _ _ _ _ _ => decide (cls ≠ .trump)
  | .rngw _ _ _ => true
  | .rngr _ _ _ => true
  | .rngclr _ => true
  | .pgw _ _ => true
  | .pgr _ _ => true
  | .pginv _ => true
  | .illegalInstruction _ => true
  | .commitInjection _ _ => true
  | .messageArrival _ => true
  | .payloadFlitArrival _ _ => true
  | .kittyReturn _ _ => true
  | .recvDelivery _ _ => true
  | .handlerStart _ => true
  | .spreadMove _ => true
  | .barArrival _ => true
  | .barrierRelease _ => true
  | .waitDeadline _ _ => true
  | .watchdogStop _ => true
  | .engineCommandStart _ _ _ => true
  | .engineCompletion _ _ => true
  | .matrixCommandStart _ _ _ _ => true
  | .matrixCompletion _ _ => true
  | .routerForward _ => true
  | .gatewayArrival _ _ => true
  | .arrivalRingReentry _ => true
  | .arrivalRingFullReport _ => true
  | .linkCrcError _ => true
  | .linkRetrain _ => true
  | .linkDown _ => true
  | .podCounterExchange _ _ => true
  | .rdRequest _ => true
  | .wrRequest _ => true
  | .amoRequest _ => true
  | .amopRequest _ => true
  | .casRequest _ => true
  | .parkNoticeRepeat _ _ => true
  | .parkLimitExpiry _ _ => true
  | .parkedRequestReplay _ _ => true
  | .rdataReply _ => true
  | .ackReply _ => true
  | .parkNotice _ => true
  | .errReply _ => true
  | .farTimerExpiry _ _ => true
  | .nackResend _ _ => true
  | .imageLoad _ => true
  | .launchGateOpen _ => true
  | .initialMessageRelease _ => true
  | .jobRetirement _ => true
  | .tokenWrite _ _ => true
  | .tokenRelease _ => true
  | .qctlReset _ _ => true
  | .meventClear _ => true
  | .powercapWrite _ => true
  | .hostRegisterWrite _ _ => true
  | .attest => true
  | .fwupdate => true
  | .recover => true
  | .cert => true
  | .reset => true
  | .powerGood => true
  | .firmwareVerification => true
  | .hbmTrainingComplete => true
  | .earlyToFull => true
  | .thermalThrottle => true
  | .thermalShutdown => true
  | .patrolScrub _ _ => true
  | .softErrorThreshold => true
  | .governorWindow _ => true
  | .freeze _ => true
  | .release _ => true
  | .preempt _ => true
  | .preemptGraceEnd _ => true
  | .restore _ => true
  | .resume _ => true
  | .ready _ => true
  | .open_ _ => true
  | .abort _ => true
  | .qreport _ => true
  | .retire _ => true
  | .tlh _ => true
  | .cfgw _ => true
  | .papply _ => true
  | .bistCompletion _ _ => true
  | .trainingFailure _ => true
  | .linkRetrained _ => true
  | .completedTransactionCacheExpiry _ => true
  | .thermalThrottleEnd => true
  | .powerFail => true
/-- The range and page instructions, legal only in supervisor mode and without ports (R69, R379). -/
def Instr.supOnly : Instr → Bool
  | .rngw .. | .rngr .. | .rngclr .. | .pgw .. | .pgr .. | .pginv .. => true
  | _ => false

/-- The register fields against the ports: s30 is no source, s29 no destination, and a field both read
and written is neither (R48); the range and page instructions name no port at all (R379). -/
def Instr.portsOk (i : Instr) : Bool :=
  i.srcs.all (fun r => decide (r ≠ 30)) && i.dst.all (fun r => decide (r ≠ 29))
    && i.both.all (fun r => decide (r ≠ 29 ∧ r ≠ 30))
    && (!i.supOnly || (i.srcs.all (fun r => decide (r ≠ 29)) && i.dst.all (fun r => decide (r ≠ 30))))

/-- An instruction that the encoding admits. -/
def Instr.wf (i : Instr) : Bool := i.portsOk && i.rangesOk

end Sys2Proof
end

