-- ==== Sys2Proof/Decode.lean ====
section
/-! DEFINITION. Decoding and encoding (R43 to R72). A number holds an instruction's bits: bit 0 is the least
significant bit of the first word, and bits [63:32] are the second word of a long form (R43, R66). -/

namespace Sys2Proof

/-- Bits [lo + w - 1 : lo] of an instruction. -/
def fld (x lo w : Nat) : Nat := x / 2 ^ lo % 2 ^ w

/-- Fields laid side by side from bit 0 up. -/
def pack : List (Nat × Nat) → Nat
  | [] => 0
  | (w, v) :: fs => v + 2 ^ w * pack fs

/-- Code of a name (R53). -/
def FFmt.code : FFmt → Nat
  | .f32 => 0
  | .bf16 => 1
  | .f16 => 2
/-- The name a code stands for; reserved codes stand for none (R53). -/
def FFmt.ofCode : Nat → Option FFmt
  | 0 => some .f32
  | 1 => some .bf16
  | 2 => some .f16
  | _ => none

/-- Code of a name (R63, the floating types of Table 2.11). -/
def FTy.code : FFmt → Nat
  | .bf16 => 8
  | .f16 => 9
  | .f32 => 10
/-- The name a code stands for; reserved codes stand for none (R63, the floating types of Table 2.11). -/
def FTy.ofCode : Nat → Option FFmt
  | 8 => some .bf16
  | 9 => some .f16
  | 10 => some .f32
  | _ => none

/-- Code of a name (Table 1.6). -/
def Rm.code : Rm → Nat
  | .rne => 0
  | .rz => 1
  | .rup => 2
  | .rdn => 3
  | .dyn => 4
  | .sr => 5
/-- The name a code stands for; reserved codes stand for none (Table 1.6). -/
def Rm.ofCode : Nat → Option Rm
  | 0 => some .rne
  | 1 => some .rz
  | 2 => some .rup
  | 3 => some .rdn
  | 4 => some .dyn
  | 5 => some .sr
  | _ => none

/-- Code of a name (Table 2.7). -/
def Cond.code : Cond → Nat
  | .eq => 0
  | .ne => 1
  | .lt => 2
  | .ge => 3
  | .ltu => 4
  | .geu => 5
  | .tst => 6
  | .ntst => 7
/-- The name a code stands for; reserved codes stand for none (Table 2.7). -/
def Cond.ofCode : Nat → Option Cond
  | 0 => some .eq
  | 1 => some .ne
  | 2 => some .lt
  | 3 => some .ge
  | 4 => some .ltu
  | 5 => some .geu
  | 6 => some .tst
  | 7 => some .ntst
  | _ => none

/-- Code of a name (R59). -/
def Quant.code : Quant → Nat
  | .any => 0
  | .all => 1
  | .none => 2
  | .nall => 3
/-- The name a code stands for; reserved codes stand for none (R59). -/
def Quant.ofCode : Nat → Option Quant
  | 0 => some .any
  | 1 => some .all
  | 2 => some .none
  | 3 => some .nall
  | _ => none

/-- Code of a name (R56). -/
def MSize.code : MSize → Nat
  | .b => 0
  | .h => 1
  | .w => 2
  | .d => 3
/-- The name a code stands for; reserved codes stand for none (R56). -/
def MSize.ofCode : Nat → Option MSize
  | 0 => some .b
  | 1 => some .h
  | 2 => some .w
  | 3 => some .d
  | _ => none

/-- Code of a name (Table 2.8). -/
def AmoOp.code : AmoOp → Nat
  | .swap => 0
  | .add => 1
  | .and => 2
  | .or => 3
  | .xor => 4
  | .min => 5
  | .max => 6
  | .minu => 7
  | .maxu => 8
  | .faddF32 => 9
  | .faddBf16 => 10
  | .faddF16 => 11
/-- The name a code stands for; reserved codes stand for none (Table 2.8). -/
def AmoOp.ofCode : Nat → Option AmoOp
  | 0 => some .swap
  | 1 => some .add
  | 2 => some .and
  | 3 => some .or
  | 4 => some .xor
  | 5 => some .min
  | 6 => some .max
  | 7 => some .minu
  | 8 => some .maxu
  | 9 => some .faddF32
  | 10 => some .faddBf16
  | 11 => some .faddF16
  | _ => none

/-- Code of a name (R60). -/
def Scope.code : Scope → Nat
  | .core => 1
  | .cluster => 2
  | .module => 3
  | .pod => 4
/-- The name a code stands for; reserved codes stand for none (R60). -/
def Scope.ofCode : Nat → Option Scope
  | 1 => some .core
  | 2 => some .cluster
  | 3 => some .module
  | 4 => some .pod
  | _ => none

/-- Code of a name (R61). -/
def Cls.code : Cls → Nat
  | .bulk => 0
  | .normal => 1
  | .high => 2
  | .trump => 3
/-- The name a code stands for; reserved codes stand for none (R61). -/
def Cls.ofCode : Nat → Option Cls
  | 0 => some .bulk
  | 1 => some .normal
  | 2 => some .high
  | 3 => some .trump
  | _ => none

/-- Code of a name (Table 2.11). -/
def VTy.code : VTy → Nat
  | .i8 => 0
  | .i16 => 1
  | .i32 => 2
  | .i64 => 3
  | .n8 => 4
  | .n16 => 5
  | .n32 => 6
  | .n64 => 7
  | .bf16 => 8
  | .f16 => 9
  | .f32 => 10
  | .e4m3 => 11
  | .e5m2 => 12
  | .e2m1 => 13
/-- The name a code stands for; reserved codes stand for none (Table 2.11). -/
def VTy.ofCode : Nat → Option VTy
  | 0 => some .i8
  | 1 => some .i16
  | 2 => some .i32
  | 3 => some .i64
  | 4 => some .n8
  | 5 => some .n16
  | 6 => some .n32
  | 7 => some .n64
  | 8 => some .bf16
  | 9 => some .f16
  | 10 => some .f32
  | 11 => some .e4m3
  | 12 => some .e5m2
  | 13 => some .e2m1
  | _ => none

/-- Code of a name (Table 2.12). -/
def VCond.code : VCond → Nat
  | .eq => 0
  | .ne => 1
  | .lt => 2
  | .le => 3
  | .gt => 4
  | .ge => 5
  | .uno => 6
  | .ord => 7
/-- The name a code stands for; reserved codes stand for none (Table 2.12). -/
def VCond.ofCode : Nat → Option VCond
  | 0 => some .eq
  | 1 => some .ne
  | 2 => some .lt
  | 3 => some .le
  | 4 => some .gt
  | 5 => some .ge
  | 6 => some .uno
  | 7 => some .ord
  | _ => none

/-- Code of a name (R160). -/
def Tag.code : Tag → Nat
  | .raw => 0
  | .i8 => 1
  | .i16 => 2
  | .i32 => 3
  | .bf16 => 4
  | .f16 => 5
  | .f32 => 6
  | .e4m3 => 7
  | .e5m2 => 8
  | .e2m1 => 9
  | .e8m0 => 10
  | .n8 => 11
/-- The name a code stands for; reserved codes stand for none (R160). -/
def Tag.ofCode : Nat → Option Tag
  | 0 => some .raw
  | 1 => some .i8
  | 2 => some .i16
  | 3 => some .i32
  | 4 => some .bf16
  | 5 => some .f16
  | 6 => some .f32
  | 7 => some .e4m3
  | 8 => some .e5m2
  | 9 => some .e2m1
  | 10 => some .e8m0
  | 11 => some .n8
  | _ => none

/-- Code of a name (Table 2.2). -/
def Csr.code : Csr → Nat
  | .fflags => 1
  | .frm => 2
  | .ths => 16
  | .cf => 17
  | .xb => 32
  | .tv => 33
  | .tcause => 34
  | .taddr => 35
  | .tepc => 36
  | .mhd0 => 48
  | .mhd1 => 49
  | .job => 64
  | .team => 65
  | .coreid => 66
  | .cycle => 80
  | .instret => 81
  | .pcc0 => 128
  | .pcc1 => 129
  | .pcc2 => 130
  | .pcc3 => 131
/-- The name a code stands for; reserved codes stand for none (Table 2.2). -/
def Csr.ofCode : Nat → Option Csr
  | 1 => some .fflags
  | 2 => some .frm
  | 16 => some .ths
  | 17 => some .cf
  | 32 => some .xb
  | 33 => some .tv
  | 34 => some .tcause
  | 35 => some .taddr
  | 36 => some .tepc
  | 48 => some .mhd0
  | 49 => some .mhd1
  | 64 => some .job
  | 65 => some .team
  | 66 => some .coreid
  | 80 => some .cycle
  | 81 => some .instret
  | 128 => some .pcc0
  | 129 => some .pcc1
  | 130 => some .pcc2
  | 131 => some .pcc3
  | _ => none

/-- The fields of an instruction, (width, value) from bit 0 up, as the formats of Tables 2.3, 2.13 and 2.15
lay them out; steps of units have no word. -/
def Instr.fields : Instr → Option (List (Nat × Nat))
  | .add d a b => some [(6, 1), (5, 0), (5, b.toNat), (5, a.toNat), (5, d.toNat), (6, 0)]
  | .sub d a b => some [(6, 2), (5, 0), (5, b.toNat), (5, a.toNat), (5, d.toNat), (6, 0)]
  | .mul d a b => some [(6, 3), (5, 0), (5, b.toNat), (5, a.toNat), (5, d.toNat), (6, 0)]
  | .mulh d a b => some [(6, 4), (5, 0), (5, b.toNat), (5, a.toNat), (5, d.toNat), (6, 0)]
  | .mulhu d a b => some [(6, 5), (5, 0), (5, b.toNat), (5, a.toNat), (5, d.toNat), (6, 0)]
  | .mulhsu d a b => some [(6, 6), (5, 0), (5, b.toNat), (5, a.toNat), (5, d.toNat), (6, 0)]
  | .div d a b => some [(6, 7), (5, 0), (5, b.toNat), (5, a.toNat), (5, d.toNat), (6, 0)]
  | .divu d a b => some [(6, 8), (5, 0), (5, b.toNat), (5, a.toNat), (5, d.toNat), (6, 0)]
  | .rem d a b => some [(6, 9), (5, 0), (5, b.toNat), (5, a.toNat), (5, d.toNat), (6, 0)]
  | .remu d a b => some [(6, 10), (5, 0), (5, b.toNat), (5, a.toNat), (5, d.toNat), (6, 0)]
  | .and d a b => some [(6, 11), (5, 0), (5, b.toNat), (5, a.toNat), (5, d.toNat), (6, 0)]
  | .or d a b => some [(6, 12), (5, 0), (5, b.toNat), (5, a.toNat), (5, d.toNat), (6, 0)]
  | .xor d a b => some [(6, 13), (5, 0), (5, b.toNat), (5, a.toNat), (5, d.toNat), (6, 0)]
  | .andn d a b => some [(6, 14), (5, 0), (5, b.toNat), (5, a.toNat), (5, d.toNat), (6, 0)]
  | .orn d a b => some [(6, 15), (5, 0), (5, b.toNat), (5, a.toNat), (5, d.toNat), (6, 0)]
  | .sll d a b => some [(6, 16), (5, 0), (5, b.toNat), (5, a.toNat), (5, d.toNat), (6, 0)]
  | .srl d a b => some [(6, 17), (5, 0), (5, b.toNat), (5, a.toNat), (5, d.toNat), (6, 0)]
  | .sra d a b => some [(6, 18), (5, 0), (5, b.toNat), (5, a.toNat), (5, d.toNat), (6, 0)]
  | .rol d a b => some [(6, 19), (5, 0), (5, b.toNat), (5, a.toNat), (5, d.toNat), (6, 0)]
  | .ror d a b => some [(6, 20), (5, 0), (5, b.toNat), (5, a.toNat), (5, d.toNat), (6, 0)]
  | .min d a b => some [(6, 21), (5, 0), (5, b.toNat), (5, a.toNat), (5, d.toNat), (6, 0)]
  | .minu d a b => some [(6, 22), (5, 0), (5, b.toNat), (5, a.toNat), (5, d.toNat), (6, 0)]
  | .max d a b => some [(6, 23), (5, 0), (5, b.toNat), (5, a.toNat), (5, d.toNat), (6, 0)]
  | .maxu d a b => some [(6, 24), (5, 0), (5, b.toNat), (5, a.toNat), (5, d.toNat), (6, 0)]
  | .adds d a b => some [(6, 25), (5, 0), (5, b.toNat), (5, a.toNat), (5, d.toNat), (6, 0)]
  | .subs d a b => some [(6, 26), (5, 0), (5, b.toNat), (5, a.toNat), (5, d.toNat), (6, 0)]
  | .addsu d a b => some [(6, 27), (5, 0), (5, b.toNat), (5, a.toNat), (5, d.toNat), (6, 0)]
  | .subsu d a b => some [(6, 28), (5, 0), (5, b.toNat), (5, a.toNat), (5, d.toNat), (6, 0)]
  | .clz d a => some [(6, 29), (5, 0), (5, 0), (5, a.toNat), (5, d.toNat), (6, 0)]
  | .ctz d a => some [(6, 30), (5, 0), (5, 0), (5, a.toNat), (5, d.toNat), (6, 0)]
  | .popc d a => some [(6, 31), (5, 0), (5, 0), (5, a.toNat), (5, d.toNat), (6, 0)]
  | .bswap d a => some [(6, 32), (5, 0), (5, 0), (5, a.toNat), (5, d.toNat), (6, 0)]
  | .fadd f rm d a b => some [(6, 40), (2, FFmt.code f), (3, Rm.code rm), (5, b.toNat), (5, a.toNat), (5, d.toNat), (6, 0)]
  | .fsub f rm d a b => some [(6, 41), (2, FFmt.code f), (3, Rm.code rm), (5, b.toNat), (5, a.toNat), (5, d.toNat), (6, 0)]
  | .fmul f rm d a b => some [(6, 42), (2, FFmt.code f), (3, Rm.code rm), (5, b.toNat), (5, a.toNat), (5, d.toNat), (6, 0)]
  | .fmin f d a b => some [(6, 43), (2, FFmt.code f), (3, 0), (5, b.toNat), (5, a.toNat), (5, d.toNat), (6, 0)]
  | .fmax f d a b => some [(6, 44), (2, FFmt.code f), (3, 0), (5, b.toNat), (5, a.toNat), (5, d.toNat), (6, 0)]
  | .fminn f d a b => some [(6, 45), (2, FFmt.code f), (3, 0), (5, b.toNat), (5, a.toNat), (5, d.toNat), (6, 0)]
  | .fmaxn f d a b => some [(6, 46), (2, FFmt.code f), (3, 0), (5, b.toNat), (5, a.toNat), (5, d.toNat), (6, 0)]
  | .bool3 d a b tab => some [(3, 0), (8, tab.toNat), (5, b.toNat), (5, a.toNat), (5, d.toNat), (6, 1)]
  | .fshlImm d a b sh => some [(1, 0), (3, 0), (6, sh.toNat), (1, 1), (5, b.toNat), (5, a.toNat), (5, d.toNat), (6, 2)]
  | .fshrImm d a b sh => some [(1, 1), (3, 0), (6, sh.toNat), (1, 1), (5, b.toNat), (5, a.toNat), (5, d.toNat), (6, 2)]
  | .fshlReg d a b c => some [(1, 0), (4, 0), (5, c.toNat), (1, 0), (5, b.toNat), (5, a.toNat), (5, d.toNat), (6, 2)]
  | .fshrReg d a b c => some [(1, 1), (4, 0), (5, c.toNat), (1, 0), (5, b.toNat), (5, a.toNat), (5, d.toNat), (6, 2)]
  | .ext d a pos len1 => some [(2, 0), (2, 0), (6, len1.toNat), (6, pos.toNat), (5, a.toNat), (5, d.toNat), (6, 3)]
  | .extn d a pos len1 => some [(2, 0), (2, 1), (6, len1.toNat), (6, pos.toNat), (5, a.toNat), (5, d.toNat), (6, 3)]
  | .ins d a pos len1 => some [(2, 0), (2, 2), (6, len1.toNat), (6, pos.toNat), (5, a.toNat), (5, d.toNat), (6, 3)]
  | .addi d a imm => some [(16, imm.toNat), (5, a.toNat), (5, d.toNat), (6, 4)]
  | .andi d a imm => some [(16, imm.toNat), (5, a.toNat), (5, d.toNat), (6, 5)]
  | .ori d a imm => some [(16, imm.toNat), (5, a.toNat), (5, d.toNat), (6, 6)]
  | .xori d a imm => some [(16, imm.toNat), (5, a.toNat), (5, d.toNat), (6, 7)]
  | .slli d a sh => some [(6, sh.toNat), (8, 0), (2, 0), (5, a.toNat), (5, d.toNat), (6, 8)]
  | .srli d a sh => some [(6, sh.toNat), (8, 0), (2, 1), (5, a.toNat), (5, d.toNat), (6, 8)]
  | .srai d a sh => some [(6, sh.toNat), (8, 0), (2, 2), (5, a.toNat), (5, d.toNat), (6, 8)]
  | .rori d a sh => some [(6, sh.toNat), (8, 0), (2, 3), (5, a.toNat), (5, d.toNat), (6, 8)]
  | .lui d imm => some [(21, imm.toNat), (5, d.toNat), (6, 9)]
  | .li d imm => some [(16, imm.toNat % 65536), (5, d.toNat), (5, 0), (6, 63), (32, imm.toNat / 65536)]
  | .cmp qd cond a b => some [(9, 0), (5, b.toNat), (5, a.toNat), (4, Cond.code cond), (3, qd.toNat), (6, 10)]
  | .cmpi qd cond a imm => some [(14, imm.toNat), (5, a.toNat), (4, Cond.code cond), (3, qd.toNat), (6, 11)]
  | .sel d q a b => some [(8, 0), (3, q.toNat), (5, b.toNat), (5, a.toNat), (5, d.toNat), (6, 12)]
  | .lea d a b sh => some [(8, 0), (3, sh.toNat), (5, b.toNat), (5, a.toNat), (5, d.toNat), (6, 13)]
  | .ldn sz x d a off => some [(12, off.toNat), (1, x.toNat), (3, MSize.code sz), (5, a.toNat), (5, d.toNat), (6, 16)]
  | .stn sz d a off => some [(12, off.toNat), (1, 0), (3, MSize.code sz), (5, a.toNat), (5, d.toNat), (6, 17)]
  | .ldf sz x d a off => some [(12, off.toNat), (1, x.toNat), (3, MSize.code sz), (5, a.toNat), (5, d.toNat), (6, 18)]
  | .stf sz d a off => some [(12, off.toNat), (1, 0), (3, MSize.code sz), (5, a.toNat), (5, d.toNat), (6, 19)]
  | .amoFetch op dbl d a b => some [(3, 0), (1, 1), (1, dbl.toNat), (1, 1), (5, AmoOp.code op), (5, b.toNat), (5, a.toNat), (5, d.toNat), (6, 20)]
  | .amoPost op dbl a b => some [(3, 0), (1, 0), (1, dbl.toNat), (1, 1), (5, AmoOp.code op), (5, b.toNat), (5, a.toNat), (5, 0), (6, 20)]
  | .cas dbl d a b => some [(9, 0), (1, dbl.toNat), (1, 1), (5, b.toNat), (5, a.toNat), (5, d.toNat), (6, 21)]
  | .stnb d a n1 h off => some [(11, off.toNat), (1, h.toNat), (4, n1.toNat), (5, a.toNat), (5, d.toNat), (6, 22)]
  | .vldn vd a qp off => some [(12, off.toNat), (3, qp.toNat), (1, 0), (5, a.toNat), (1, 0), (4, vd.toNat), (6, 24)]
  | .vstn vd a qp off => some [(12, off.toNat), (3, qp.toNat), (1, 1), (5, a.toNat), (1, 0), (4, vd.toNat), (6, 24)]
  | .vgthn vd a qp vi sc => some [(6, 0), (2, sc.toNat), (4, vi.toNat), (3, qp.toNat), (1, 0), (5, a.toNat), (1, 0), (4, vd.toNat), (6, 25)]
  | .vsctn vd a qp vi sc => some [(6, 0), (2, sc.toNat), (4, vi.toNat), (3, qp.toNat), (1, 1), (5, a.toNat), (1, 0), (4, vd.toNat), (6, 25)]
  | .vldf vd a qp off => some [(12, off.toNat), (3, qp.toNat), (1, 0), (5, a.toNat), (1, 0), (4, vd.toNat), (6, 26)]
  | .vstf vd a qp off => some [(12, off.toNat), (3, qp.toNat), (1, 0), (5, a.toNat), (1, 0), (4, vd.toNat), (6, 27)]
  | .br q qn off => some [(21, off.toNat), (2, Quant.code qn), (3, q.toNat), (6, 32)]
  | .j off => some [(26, off.toNat), (6, 33)]
  | .jal off => some [(26, off.toNat), (6, 34)]
  | .jalr d a imm => some [(16, imm.toNat), (5, a.toNat), (5, d.toNat), (6, 35)]
  | .btag off => some [(21, off.toNat), (5, 0), (6, 36)]
  | .loopReg n a => some [(15, 0), (5, a.toNat), (5, n.toNat), (1, 0), (6, 37)]
  | .loopImm n cnt => some [(20, cnt.toNat), (5, n.toNat), (1, 1), (6, 37)]
  | .ret => some [(26, 0), (6, 38)]
  | .nop => some [(16, 0), (5, 0), (5, 0), (6, 39)]
  | .trap imm => some [(16, imm.toNat), (5, 0), (5, 1), (6, 39)]
  | .eret => some [(16, 0), (5, 0), (5, 2), (6, 39)]
  | .yield => some [(16, 0), (5, 0), (5, 3), (6, 39)]
  | .commit => some [(16, 0), (5, 0), (5, 4), (6, 39)]
  | .fence scope => some [(3, Scope.code scope), (13, 0), (5, 0), (5, 5), (6, 39)]
  | .brk imm => some [(16, imm.toNat), (5, 0), (5, 6), (6, 39)]
  | .wait a => some [(16, 0), (5, a.toNat), (5, 7), (6, 39)]
  | .send cls a lab tag => some [(5, 0), (4, tag.toNat), (7, lab.toNat), (5, a.toNat), (2, Cls.code cls), (3, 0), (6, 40)]
  | .sendR cls a lab tag => some [(5, 0), (4, tag.toNat), (7, lab.toNat), (5, a.toNat), (2, Cls.code cls), (3, 1), (6, 40)]
  | .sendv cls a lab tag vb => some [(4, vb.toNat), (1, 0), (4, tag.toNat), (7, lab.toNat), (5, a.toNat), (2, Cls.code cls), (3, 2), (6, 40)]
  | .mcast cls a lab tag => some [(5, 0), (4, tag.toNat), (7, lab.toNat), (5, a.toNat), (2, Cls.code cls), (3, 3), (6, 40)]
  | .get cls a lab t b => some [(5, b.toNat), (4, t.toNat), (7, lab.toNat), (5, a.toNat), (2, Cls.code cls), (3, 4), (6, 40)]
  | .put a t b => some [(5, b.toNat), (4, t.toNat), (7, 0), (5, a.toNat), (2, 0), (3, 5), (6, 40)]
  | .recv lab => some [(5, 0), (4, 0), (7, lab.toNat), (5, 0), (2, 0), (3, 6), (6, 40)]
  | .arm lab => some [(3, 0), (8, 0), (7, lab.toNat), (5, 0), (3, 0), (6, 41)]
  | .disarm lab => some [(3, 0), (8, 0), (7, lab.toNat), (5, 0), (3, 1), (6, 41)]
  | .tcnt d lab => some [(3, 0), (8, 0), (7, lab.toNat), (5, d.toNat), (3, 2), (6, 41)]
  | .setf mask => some [(3, 0), (8, mask.toNat), (7, 0), (5, 0), (3, 3), (6, 41)]
  | .clrf mask => some [(3, 0), (8, mask.toNat), (7, 0), (5, 0), (3, 4), (6, 41)]
  | .tlaunch a => some [(3, 0), (8, 0), (7, 0), (5, a.toNat), (3, 5), (6, 41)]
  | .jdone => some [(3, 0), (8, 0), (7, 0), (5, 0), (3, 6), (6, 41)]
  | .bar grp => some [(17, 0), (8, grp.toNat), (1, 0), (6, 42)]
  | .arrive grp => some [(17, 0), (8, grp.toNat), (1, 1), (6, 42)]
  | .csrr d csr => some [(2, 0), (12, Csr.code csr), (5, 0), (5, d.toNat), (2, 0), (6, 43)]
  | .csrw d a csr => some [(2, 0), (12, Csr.code csr), (5, a.toNat), (5, d.toNat), (2, 1), (6, 43)]
  | .csrs d a csr => some [(2, 0), (12, Csr.code csr), (5, a.toNat), (5, d.toNat), (2, 2), (6, 43)]
  | .csrc d a csr => some [(2, 0), (12, Csr.code csr), (5, a.toNat), (5, d.toNat), (2, 3), (6, 43)]
  | .vaddInt ty vd va vb qp => some [(4, 0), (3, 0), (4, VTy.code ty), (3, qp.toNat), (4, vb.toNat), (4, va.toNat), (4, vd.toNat), (6, 48)]
  | .vsubInt ty vd va vb qp => some [(4, 1), (3, 0), (4, VTy.code ty), (3, qp.toNat), (4, vb.toNat), (4, va.toNat), (4, vd.toNat), (6, 48)]
  | .vmulInt ty vd va vb qp => some [(4, 2), (3, 0), (4, VTy.code ty), (3, qp.toNat), (4, vb.toNat), (4, va.toNat), (4, vd.toNat), (6, 48)]
  | .vmulh ty vd va vb qp => some [(4, 3), (3, 0), (4, VTy.code ty), (3, qp.toNat), (4, vb.toNat), (4, va.toNat), (4, vd.toNat), (6, 48)]
  | .vadds ty vd va vb qp => some [(4, 4), (3, 0), (4, VTy.code ty), (3, qp.toNat), (4, vb.toNat), (4, va.toNat), (4, vd.toNat), (6, 48)]
  | .vsubs ty vd va vb qp => some [(4, 5), (3, 0), (4, VTy.code ty), (3, qp.toNat), (4, vb.toNat), (4, va.toNat), (4, vd.toNat), (6, 48)]
  | .vminInt ty vd va vb qp => some [(4, 6), (3, 0), (4, VTy.code ty), (3, qp.toNat), (4, vb.toNat), (4, va.toNat), (4, vd.toNat), (6, 48)]
  | .vmaxInt ty vd va vb qp => some [(4, 7), (3, 0), (4, VTy.code ty), (3, qp.toNat), (4, vb.toNat), (4, va.toNat), (4, vd.toNat), (6, 48)]
  | .vand ty vd va vb qp => some [(4, 8), (3, 0), (4, VTy.code ty), (3, qp.toNat), (4, vb.toNat), (4, va.toNat), (4, vd.toNat), (6, 48)]
  | .vor ty vd va vb qp => some [(4, 9), (3, 0), (4, VTy.code ty), (3, qp.toNat), (4, vb.toNat), (4, va.toNat), (4, vd.toNat), (6, 48)]
  | .vxor ty vd va vb qp => some [(4, 10), (3, 0), (4, VTy.code ty), (3, qp.toNat), (4, vb.toNat), (4, va.toNat), (4, vd.toNat), (6, 48)]
  | .vabsInt ty vd va qp => some [(4, 11), (3, 0), (4, VTy.code ty), (3, qp.toNat), (4, 0), (4, va.toNat), (4, vd.toNat), (6, 48)]
  | .vnegInt ty vd va qp => some [(4, 12), (3, 0), (4, VTy.code ty), (3, qp.toNat), (4, 0), (4, va.toNat), (4, vd.toNat), (6, 48)]
  | .vaddFp f rm vd va vb qp => some [(4, 0), (3, Rm.code rm), (4, FTy.code f), (3, qp.toNat), (4, vb.toNat), (4, va.toNat), (4, vd.toNat), (6, 49)]
  | .vsubFp f rm vd va vb qp => some [(4, 1), (3, Rm.code rm), (4, FTy.code f), (3, qp.toNat), (4, vb.toNat), (4, va.toNat), (4, vd.toNat), (6, 49)]
  | .vmulFp f rm vd va vb qp => some [(4, 2), (3, Rm.code rm), (4, FTy.code f), (3, qp.toNat), (4, vb.toNat), (4, va.toNat), (4, vd.toNat), (6, 49)]
  | .vfma f rm vd va vb qp => some [(4, 3), (3, Rm.code rm), (4, FTy.code f), (3, qp.toNat), (4, vb.toNat), (4, va.toNat), (4, vd.toNat), (6, 49)]
  | .vfms f rm vd va vb qp => some [(4, 4), (3, Rm.code rm), (4, FTy.code f), (3, qp.toNat), (4, vb.toNat), (4, va.toNat), (4, vd.toNat), (6, 49)]
  | .vfnma f rm vd va vb qp => some [(4, 5), (3, Rm.code rm), (4, FTy.code f), (3, qp.toNat), (4, vb.toNat), (4, va.toNat), (4, vd.toNat), (6, 49)]
  | .vminFp f vd va vb qp => some [(4, 6), (3, 0), (4, FTy.code f), (3, qp.toNat), (4, vb.toNat), (4, va.toNat), (4, vd.toNat), (6, 49)]
  | .vmaxFp f vd va vb qp => some [(4, 7), (3, 0), (4, FTy.code f), (3, qp.toNat), (4, vb.toNat), (4, va.toNat), (4, vd.toNat), (6, 49)]
  | .vminn f vd va vb qp => some [(4, 8), (3, 0), (4, FTy.code f), (3, qp.toNat), (4, vb.toNat), (4, va.toNat), (4, vd.toNat), (6, 49)]
  | .vmaxn f vd va vb qp => some [(4, 9), (3, 0), (4, FTy.code f), (3, qp.toNat), (4, vb.toNat), (4, va.toNat), (4, vd.toNat), (6, 49)]
  | .vabsFp f vd va qp => some [(4, 10), (3, 0), (4, FTy.code f), (3, qp.toNat), (4, 0), (4, va.toNat), (4, vd.toNat), (6, 49)]
  | .vnegFp f vd va qp => some [(4, 11), (3, 0), (4, FTy.code f), (3, qp.toNat), (4, 0), (4, va.toNat), (4, vd.toNat), (6, 49)]
  | .vcsgn f vd va vb qp => some [(4, 12), (3, 0), (4, FTy.code f), (3, qp.toNat), (4, vb.toNat), (4, va.toNat), (4, vd.toNat), (6, 49)]
  | .vcmp cond ty qd va vb qp => some [(4, VCond.code cond), (3, 0), (4, VTy.code ty), (3, qp.toNat), (4, vb.toNat), (4, va.toNat), (3, qd.toNat), (1, 0), (6, 50)]
  | .vcvt src dst ns rm vd va part qp => some [(1, ns.toNat), (3, part.toNat), (3, Rm.code rm), (4, VTy.code src), (3, qp.toNat), (4, VTy.code dst), (4, va.toNat), (4, vd.toNat), (6, 51)]
  | .vrcp f rm vd va qp => some [(4, 0), (3, Rm.code rm), (4, FTy.code f), (3, qp.toNat), (4, 0), (4, va.toNat), (4, vd.toNat), (6, 52)]
  | .vrsq f rm vd va qp => some [(4, 1), (3, Rm.code rm), (4, FTy.code f), (3, qp.toNat), (4, 0), (4, va.toNat), (4, vd.toNat), (6, 52)]
  | .vsqrt f rm vd va qp => some [(4, 2), (3, Rm.code rm), (4, FTy.code f), (3, qp.toNat), (4, 0), (4, va.toNat), (4, vd.toNat), (6, 52)]
  | .vdiv f rm vd va vb qp => some [(4, 3), (3, Rm.code rm), (4, FTy.code f), (3, qp.toNat), (4, vb.toNat), (4, va.toNat), (4, vd.toNat), (6, 52)]
  | .vexp2 f rm vd va qp => some [(4, 4), (3, Rm.code rm), (4, FTy.code f), (3, qp.toNat), (4, 0), (4, va.toNat), (4, vd.toNat), (6, 52)]
  | .vlog2 f rm vd va qp => some [(4, 5), (3, Rm.code rm), (4, FTy.code f), (3, qp.toNat), (4, 0), (4, va.toNat), (4, vd.toNat), (6, 52)]
  | .vperm ty vd va vb qp => some [(4, 0), (3, 0), (4, VTy.code ty), (3, qp.toNat), (4, vb.toNat), (4, va.toNat), (4, vd.toNat), (6, 53)]
  | .vbcst ty vd va lane qp => some [(4, 1), (3, 0), (4, VTy.code ty), (3, qp.toNat), (3, lane.toNat), (1, 0), (4, va.toNat), (4, vd.toNat), (6, 53)]
  | .vzip ty vd va vb qp => some [(4, 2), (3, 0), (4, VTy.code ty), (3, qp.toNat), (4, vb.toNat), (4, va.toNat), (4, vd.toNat), (6, 53)]
  | .vunzip ty vd va vb qp => some [(4, 3), (3, 0), (4, VTy.code ty), (3, qp.toNat), (4, vb.toNat), (4, va.toNat), (4, vd.toNat), (6, 53)]
  | .vredadd ty vd va qp => some [(4, 4), (3, 0), (4, VTy.code ty), (3, qp.toNat), (4, 0), (4, va.toNat), (4, vd.toNat), (6, 53)]
  | .vredmin ty vd va qp => some [(4, 5), (3, 0), (4, VTy.code ty), (3, qp.toNat), (4, 0), (4, va.toNat), (4, vd.toNat), (6, 53)]
  | .vredmax ty vd va qp => some [(4, 6), (3, 0), (4, VTy.code ty), (3, qp.toNat), (4, 0), (4, va.toNat), (4, vd.toNat), (6, 53)]
  | .vredminn ty vd va qp => some [(4, 7), (3, 0), (4, VTy.code ty), (3, qp.toNat), (4, 0), (4, va.toNat), (4, vd.toNat), (6, 53)]
  | .vredmaxn ty vd va qp => some [(4, 8), (3, 0), (4, VTy.code ty), (3, qp.toNat), (4, 0), (4, va.toNat), (4, vd.toNat), (6, 53)]
  | .vsll ty vd va vb qp => some [(4, 0), (3, 0), (4, VTy.code ty), (3, qp.toNat), (4, vb.toNat), (4, va.toNat), (4, vd.toNat), (6, 54)]
  | .vsrl ty vd va vb qp => some [(4, 1), (3, 0), (4, VTy.code ty), (3, qp.toNat), (4, vb.toNat), (4, va.toNat), (4, vd.toNat), (6, 54)]
  | .vsra ty vd va vb qp => some [(4, 2), (3, 0), (4, VTy.code ty), (3, qp.toNat), (4, vb.toNat), (4, va.toNat), (4, vd.toNat), (6, 54)]
  | .vslli ty vd va sh qp => some [(4, 3), (3, sh.toNat / 16), (4, VTy.code ty), (3, qp.toNat), (4, sh.toNat % 16), (4, va.toNat), (4, vd.toNat), (6, 54)]
  | .vsrli ty vd va sh qp => some [(4, 4), (3, sh.toNat / 16), (4, VTy.code ty), (3, qp.toNat), (4, sh.toNat % 16), (4, va.toNat), (4, vd.toNat), (6, 54)]
  | .vsrai ty vd va sh qp => some [(4, 5), (3, sh.toNat / 16), (4, VTy.code ty), (3, qp.toNat), (4, sh.toNat % 16), (4, va.toNat), (4, vd.toNat), (6, 54)]
  | .vbool3 vd va vb qp tab => some [(3, 7), (8, tab.toNat), (3, qp.toNat), (4, vb.toNat), (4, va.toNat), (4, vd.toNat), (6, 54)]
  | .vins v sr lane => some [(4, 0), (7, 0), (3, 0), (3, lane.toNat), (5, sr.toNat), (4, v.toNat), (6, 55)]
  | .vext v sr lane => some [(4, 1), (7, 0), (3, 0), (3, lane.toNat), (5, sr.toNat), (4, v.toNat), (6, 55)]
  | .vdup v sr => some [(4, 2), (7, 0), (3, 0), (3, 0), (5, sr.toNat), (4, v.toNat), (6, 55)]
  | .qset sr q => some [(4, 3), (7, 0), (3, q.toNat), (3, 0), (5, sr.toNat), (4, 0), (6, 55)]
  | .qget sr q => some [(4, 4), (7, 0), (3, q.toNat), (3, 0), (5, sr.toNat), (4, 0), (6, 55)]
  | .mop n m fA fB a b c lab => some [(1, 0), (5, c.toNat), (5, b.toNat), (5, a.toNat), (5, 0), (5, 1), (6, 63), (7, lab.toNat), (2, n.toNat), (1, m.toNat), (4, Tag.code fA), (4, Tag.code fB), (14, 0)]
  | .mopsZc n m fA fB d a b c lab => some [(1, 0), (5, c.toNat), (5, b.toNat), (5, a.toNat), (5, d.toNat), (5, 2), (6, 63), (7, lab.toNat), (2, n.toNat), (1, m.toNat), (4, Tag.code fA), (4, Tag.code fB), (2, 1), (12, 0)]
  | .mopsS24 n m fA fB d a b c lab => some [(1, 0), (5, c.toNat), (5, b.toNat), (5, a.toNat), (5, d.toNat), (5, 2), (6, 63), (7, lab.toNat), (2, n.toNat), (1, m.toNat), (4, Tag.code fA), (4, Tag.code fB), (2, 2), (12, 0)]
  | .mzero n m lab => some [(1, 0), (5, 0), (5, 0), (5, 0), (5, 0), (5, 3), (6, 63), (7, lab.toNat), (2, n.toNat), (1, m.toNat), (22, 0)]
  | .mload n m fA a lab => some [(1, 0), (5, 0), (5, 0), (5, a.toNat), (5, 0), (5, 4), (6, 63), (7, lab.toNat), (2, n.toNat), (1, m.toNat), (4, Tag.code fA), (18, 0)]
  | .mdrain n m fA rm relu scale a lab => some [(1, 0), (5, 0), (5, 0), (5, a.toNat), (5, 0), (5, 5), (6, 63), (7, lab.toNat), (2, n.toNat), (1, m.toNat), (4, Tag.code fA), (3, Rm.code rm), (1, relu.toNat), (8, scale.toNat), (6, 0)]
  | .mseed n a => some [(1, 0), (5, 0), (5, 0), (5, a.toNat), (5, 0), (5, 6), (6, 63), (7, 0), (2, n.toNat), (23, 0)]
  | .tdir d a => some [(1, 0), (5, 0), (5, 0), (5, a.toNat), (5, d.toNat), (5, 8), (6, 63), (7, 0), (25, 0)]
  | .tzero a c lab => some [(1, 0), (5, c.toNat), (5, 0), (5, a.toNat), (5, 0), (5, 9), (6, 63), (7, lab.toNat), (25, 0)]
  | .tfill f a b c lab => some [(1, 0), (5, c.toNat), (5, b.toNat), (5, a.toNat), (5, 0), (5, 10), (6, 63), (7, lab.toNat), (4, Tag.code f), (21, 0)]
  | .tident f diag a c lab => some [(1, 0), (5, c.toNat), (5, 0), (5, a.toNat), (5, 0), (5, 11), (6, 63), (7, lab.toNat), (4, Tag.code f), (7, diag.toNat), (14, 0)]
  | .xcopy dir f cls d a b lab => some [(1, 0), (5, 0), (5, b.toNat), (5, a.toNat), (5, d.toNat), (5, 16), (6, 63), (7, lab.toNat), (2, Cls.code cls), (4, Tag.code f), (1, dir.srcNear.toNat), (1, dir.dstNear.toNat), (17, 0)]
  | .xmapLd cls d a b c lab => some [(1, 0), (5, c.toNat), (5, b.toNat), (5, a.toNat), (5, d.toNat), (5, 17), (6, 63), (7, lab.toNat), (2, Cls.code cls), (4, 0), (1, 0), (18, 0)]
  | .xmapSt cls d a b c lab => some [(1, 0), (5, c.toNat), (5, b.toNat), (5, a.toNat), (5, d.toNat), (5, 17), (6, 63), (7, lab.toNat), (2, Cls.code cls), (4, 0), (1, 1), (18, 0)]
  | .xgather x64 cls d a b c lab => some [(1, 0), (5, c.toNat), (5, b.toNat), (5, a.toNat), (5, d.toNat), (5, 18), (6, 63), (7, lab.toNat), (2, Cls.code cls), (4, 0), (1, x64.toNat), (18, 0)]
  | .xscatter x64 acc f cls d a b c lab => some [(1, 0), (5, c.toNat), (5, b.toNat), (5, a.toNat), (5, d.toNat), (5, 19), (6, 63), (7, lab.toNat), (2, Cls.code cls), (4, Tag.code f), (1, x64.toNat), (1, acc.toNat), (17, 0)]
  | .xpack dstNear f cls d a b lab => some [(1, 0), (5, 0), (5, b.toNat), (5, a.toNat), (5, d.toNat), (5, 20), (6, 63), (7, lab.toNat), (2, Cls.code cls), (4, Tag.code f), (1, 0), (1, dstNear.toNat), (17, 0)]
  | .xunpack srcNear f cls d a b lab => some [(1, 0), (5, 0), (5, b.toNat), (5, a.toNat), (5, d.toNat), (5, 21), (6, 63), (7, lab.toNat), (2, Cls.code cls), (4, Tag.code f), (1, srcNear.toNat), (18, 0)]
  | .xembed f cls d a b c lab => some [(1, 0), (5, c.toNat), (5, b.toNat), (5, a.toNat), (5, d.toNat), (5, 22), (6, 63), (7, lab.toNat), (2, Cls.code cls), (4, Tag.code f), (19, 0)]
  | .xstream toHost near cls d a b c lab => some [(1, 0), (5, c.toNat), (5, b.toNat), (5, a.toNat), (5, d.toNat), (5, 23), (6, 63), (7, lab.toNat), (2, Cls.code cls), (4, 0), (1, toHost.toNat), (1, near.toNat), (17, 0)]
  | .rngw a b c => some [(1, 0), (5, c.toNat), (5, b.toNat), (5, a.toNat), (5, 0), (5, 24), (6, 63), (7, 0), (25, 0)]
  | .rngr d a half => some [(1, 0), (5, 0), (5, 0), (5, a.toNat), (5, d.toNat), (5, 25), (6, 63), (7, 0), (1, half.toNat), (24, 0)]
  | .rngclr a => some [(1, 0), (5, 0), (5, 0), (5, a.toNat), (5, 0), (5, 26), (6, 63), (7, 0), (25, 0)]
  | .pgw a b => some [(1, 0), (5, 0), (5, b.toNat), (5, a.toNat), (5, 0), (5, 27), (6, 63), (7, 0), (25, 0)]
  | .pgr d a => some [(1, 0), (5, 0), (5, 0), (5, a.toNat), (5, d.toNat), (5, 28), (6, 63), (7, 0), (25, 0)]
  | .pginv a => some [(1, 0), (5, 0), (5, 0), (5, a.toNat), (5, 0), (5, 29), (6, 63), (7, 0), (25, 0)]
  | .illegalInstruction _ => none
  | .commitInjection _ _ => none
  | .messageArrival _ => none
  | .payloadFlitArrival _ _ => none
  | .kittyReturn _ _ => none
  | .recvDelivery _ _ => none
  | .handlerStart _ => none
  | .spreadMove _ => none
  | .barArrival _ => none
  | .barrierRelease _ => none
  | .waitDeadline _ _ => none
  | .watchdogStop _ => none
  | .engineCommandStart _ _ _ => none
  | .engineCompletion _ _ => none
  | .matrixCommandStart _ _ _ _ => none
  | .matrixCompletion _ _ => none
  | .routerForward _ => none
  | .gatewayArrival _ _ => none
  | .arrivalRingReentry _ => none
  | .arrivalRingFullReport _ => none
  | .linkCrcError _ => none
  | .linkRetrain _ => none
  | .linkDown _ => none
  | .podCounterExchange _ _ => none
  | .rdRequest _ => none
  | .wrRequest _ => none
  | .amoRequest _ => none
  | .amopRequest _ => none
  | .casRequest _ => none
  | .parkNoticeRepeat _ _ => none
  | .parkLimitExpiry _ _ => none
  | .parkedRequestReplay _ _ => none
  | .rdataReply _ => none
  | .ackReply _ => none
  | .parkNotice _ => none
  | .errReply _ => none
  | .farTimerExpiry _ _ => none
  | .nackResend _ _ => none
  | .imageLoad _ => none
  | .launchGateOpen _ => none
  | .initialMessageRelease _ => none
  | .jobRetirement _ => none
  | .tokenWrite _ _ => none
  | .tokenRelease _ => none
  | .qctlReset _ _ => none
  | .meventClear _ => none
  | .powercapWrite _ => none
  | .hostRegisterWrite _ _ => none
  | .attest => none
  | .fwupdate => none
  | .recover => none
  | .cert => none
  | .reset => none
  | .powerGood => none
  | .firmwareVerification => none
  | .hbmTrainingComplete => none
  | .earlyToFull => none
  | .thermalThrottle => none
  | .thermalShutdown => none
  | .patrolScrub _ _ => none
  | .softErrorThreshold => none
  | .governorWindow _ => none
  | .freeze _ => none
  | .release _ => none
  | .preempt _ => none
  | .preemptGraceEnd _ => none
  | .restore _ => none
  | .resume _ => none
  | .ready _ => none
  | .open_ _ => none
  | .abort _ => none
  | .qreport _ => none
  | .retire _ => none
  | .tlh _ => none
  | .cfgw _ => none
  | .papply _ => none
  | .bistCompletion _ _ => none
  | .trainingFailure _ => none
  | .linkRetrained _ => none
  | .completedTransactionCacheExpiry _ => none
  | .thermalThrottleEnd => none
  | .powerFail => none

/-- Major 0x00 (Table 2.4). -/
def dec00 (x : Nat) : Option Instr :=
  match fld x 0 6 with
  | 1 => if fld x 6 5 = 0 then some (.add (BitVec.ofNat 5 (fld x 21 5)) (BitVec.ofNat 5 (fld x 16 5)) (BitVec.ofNat 5 (fld x 11 5))) else none
  | 2 => if fld x 6 5 = 0 then some (.sub (BitVec.ofNat 5 (fld x 21 5)) (BitVec.ofNat 5 (fld x 16 5)) (BitVec.ofNat 5 (fld x 11 5))) else none
  | 3 => if fld x 6 5 = 0 then some (.mul (BitVec.ofNat 5 (fld x 21 5)) (BitVec.ofNat 5 (fld x 16 5)) (BitVec.ofNat 5 (fld x 11 5))) else none
  | 4 => if fld x 6 5 = 0 then some (.mulh (BitVec.ofNat 5 (fld x 21 5)) (BitVec.ofNat 5 (fld x 16 5)) (BitVec.ofNat 5 (fld x 11 5))) else none
  | 5 => if fld x 6 5 = 0 then some (.mulhu (BitVec.ofNat 5 (fld x 21 5)) (BitVec.ofNat 5 (fld x 16 5)) (BitVec.ofNat 5 (fld x 11 5))) else none
  | 6 => if fld x 6 5 = 0 then some (.mulhsu (BitVec.ofNat 5 (fld x 21 5)) (BitVec.ofNat 5 (fld x 16 5)) (BitVec.ofNat 5 (fld x 11 5))) else none
  | 7 => if fld x 6 5 = 0 then some (.div (BitVec.ofNat 5 (fld x 21 5)) (BitVec.ofNat 5 (fld x 16 5)) (BitVec.ofNat 5 (fld x 11 5))) else none
  | 8 => if fld x 6 5 = 0 then some (.divu (BitVec.ofNat 5 (fld x 21 5)) (BitVec.ofNat 5 (fld x 16 5)) (BitVec.ofNat 5 (fld x 11 5))) else none
  | 9 => if fld x 6 5 = 0 then some (.rem (BitVec.ofNat 5 (fld x 21 5)) (BitVec.ofNat 5 (fld x 16 5)) (BitVec.ofNat 5 (fld x 11 5))) else none
  | 10 => if fld x 6 5 = 0 then some (.remu (BitVec.ofNat 5 (fld x 21 5)) (BitVec.ofNat 5 (fld x 16 5)) (BitVec.ofNat 5 (fld x 11 5))) else none
  | 11 => if fld x 6 5 = 0 then some (.and (BitVec.ofNat 5 (fld x 21 5)) (BitVec.ofNat 5 (fld x 16 5)) (BitVec.ofNat 5 (fld x 11 5))) else none
  | 12 => if fld x 6 5 = 0 then some (.or (BitVec.ofNat 5 (fld x 21 5)) (BitVec.ofNat 5 (fld x 16 5)) (BitVec.ofNat 5 (fld x 11 5))) else none
  | 13 => if fld x 6 5 = 0 then some (.xor (BitVec.ofNat 5 (fld x 21 5)) (BitVec.ofNat 5 (fld x 16 5)) (BitVec.ofNat 5 (fld x 11 5))) else none
  | 14 => if fld x 6 5 = 0 then some (.andn (BitVec.ofNat 5 (fld x 21 5)) (BitVec.ofNat 5 (fld x 16 5)) (BitVec.ofNat 5 (fld x 11 5))) else none
  | 15 => if fld x 6 5 = 0 then some (.orn (BitVec.ofNat 5 (fld x 21 5)) (BitVec.ofNat 5 (fld x 16 5)) (BitVec.ofNat 5 (fld x 11 5))) else none
  | 16 => if fld x 6 5 = 0 then some (.sll (BitVec.ofNat 5 (fld x 21 5)) (BitVec.ofNat 5 (fld x 16 5)) (BitVec.ofNat 5 (fld x 11 5))) else none
  | 17 => if fld x 6 5 = 0 then some (.srl (BitVec.ofNat 5 (fld x 21 5)) (BitVec.ofNat 5 (fld x 16 5)) (BitVec.ofNat 5 (fld x 11 5))) else none
  | 18 => if fld x 6 5 = 0 then some (.sra (BitVec.ofNat 5 (fld x 21 5)) (BitVec.ofNat 5 (fld x 16 5)) (BitVec.ofNat 5 (fld x 11 5))) else none
  | 19 => if fld x 6 5 = 0 then some (.rol (BitVec.ofNat 5 (fld x 21 5)) (BitVec.ofNat 5 (fld x 16 5)) (BitVec.ofNat 5 (fld x 11 5))) else none
  | 20 => if fld x 6 5 = 0 then some (.ror (BitVec.ofNat 5 (fld x 21 5)) (BitVec.ofNat 5 (fld x 16 5)) (BitVec.ofNat 5 (fld x 11 5))) else none
  | 21 => if fld x 6 5 = 0 then some (.min (BitVec.ofNat 5 (fld x 21 5)) (BitVec.ofNat 5 (fld x 16 5)) (BitVec.ofNat 5 (fld x 11 5))) else none
  | 22 => if fld x 6 5 = 0 then some (.minu (BitVec.ofNat 5 (fld x 21 5)) (BitVec.ofNat 5 (fld x 16 5)) (BitVec.ofNat 5 (fld x 11 5))) else none
  | 23 => if fld x 6 5 = 0 then some (.max (BitVec.ofNat 5 (fld x 21 5)) (BitVec.ofNat 5 (fld x 16 5)) (BitVec.ofNat 5 (fld x 11 5))) else none
  | 24 => if fld x 6 5 = 0 then some (.maxu (BitVec.ofNat 5 (fld x 21 5)) (BitVec.ofNat 5 (fld x 16 5)) (BitVec.ofNat 5 (fld x 11 5))) else none
  | 25 => if fld x 6 5 = 0 then some (.adds (BitVec.ofNat 5 (fld x 21 5)) (BitVec.ofNat 5 (fld x 16 5)) (BitVec.ofNat 5 (fld x 11 5))) else none
  | 26 => if fld x 6 5 = 0 then some (.subs (BitVec.ofNat 5 (fld x 21 5)) (BitVec.ofNat 5 (fld x 16 5)) (BitVec.ofNat 5 (fld x 11 5))) else none
  | 27 => if fld x 6 5 = 0 then some (.addsu (BitVec.ofNat 5 (fld x 21 5)) (BitVec.ofNat 5 (fld x 16 5)) (BitVec.ofNat 5 (fld x 11 5))) else none
  | 28 => if fld x 6 5 = 0 then some (.subsu (BitVec.ofNat 5 (fld x 21 5)) (BitVec.ofNat 5 (fld x 16 5)) (BitVec.ofNat 5 (fld x 11 5))) else none
  | 29 => if fld x 6 5 = 0 ∧ fld x 11 5 = 0 then some (.clz (BitVec.ofNat 5 (fld x 21 5)) (BitVec.ofNat 5 (fld x 16 5))) else none
  | 30 => if fld x 6 5 = 0 ∧ fld x 11 5 = 0 then some (.ctz (BitVec.ofNat 5 (fld x 21 5)) (BitVec.ofNat 5 (fld x 16 5))) else none
  | 31 => if fld x 6 5 = 0 ∧ fld x 11 5 = 0 then some (.popc (BitVec.ofNat 5 (fld x 21 5)) (BitVec.ofNat 5 (fld x 16 5))) else none
  | 32 => if fld x 6 5 = 0 ∧ fld x 11 5 = 0 then some (.bswap (BitVec.ofNat 5 (fld x 21 5)) (BitVec.ofNat 5 (fld x 16 5))) else none
  | 40 => (FFmt.ofCode (fld x 6 2)).bind fun f => (Rm.ofCode (fld x 8 3)).bind fun rm => some (.fadd f rm (BitVec.ofNat 5 (fld x 21 5)) (BitVec.ofNat 5 (fld x 16 5)) (BitVec.ofNat 5 (fld x 11 5)))
  | 41 => (FFmt.ofCode (fld x 6 2)).bind fun f => (Rm.ofCode (fld x 8 3)).bind fun rm => some (.fsub f rm (BitVec.ofNat 5 (fld x 21 5)) (BitVec.ofNat 5 (fld x 16 5)) (BitVec.ofNat 5 (fld x 11 5)))
  | 42 => (FFmt.ofCode (fld x 6 2)).bind fun f => (Rm.ofCode (fld x 8 3)).bind fun rm => some (.fmul f rm (BitVec.ofNat 5 (fld x 21 5)) (BitVec.ofNat 5 (fld x 16 5)) (BitVec.ofNat 5 (fld x 11 5)))
  | 43 => if fld x 8 3 = 0 then (FFmt.ofCode (fld x 6 2)).bind fun f => some (.fmin f (BitVec.ofNat 5 (fld x 21 5)) (BitVec.ofNat 5 (fld x 16 5)) (BitVec.ofNat 5 (fld x 11 5))) else none
  | 44 => if fld x 8 3 = 0 then (FFmt.ofCode (fld x 6 2)).bind fun f => some (.fmax f (BitVec.ofNat 5 (fld x 21 5)) (BitVec.ofNat 5 (fld x 16 5)) (BitVec.ofNat 5 (fld x 11 5))) else none
  | 45 => if fld x 8 3 = 0 then (FFmt.ofCode (fld x 6 2)).bind fun f => some (.fminn f (BitVec.ofNat 5 (fld x 21 5)) (BitVec.ofNat 5 (fld x 16 5)) (BitVec.ofNat 5 (fld x 11 5))) else none
  | 46 => if fld x 8 3 = 0 then (FFmt.ofCode (fld x 6 2)).bind fun f => some (.fmaxn f (BitVec.ofNat 5 (fld x 21 5)) (BitVec.ofNat 5 (fld x 16 5)) (BitVec.ofNat 5 (fld x 11 5))) else none
  | _ => none

/-- Major 0x01 (Table 2.4). -/
def dec01 (x : Nat) : Option Instr :=
  if fld x 0 3 = 0 then some (.bool3 (BitVec.ofNat 5 (fld x 21 5)) (BitVec.ofNat 5 (fld x 16 5)) (BitVec.ofNat 5 (fld x 11 5)) (BitVec.ofNat 8 (fld x 3 8))) else none

/-- Major 0x02 (Table 2.4). -/
def dec02 (x : Nat) : Option Instr :=
  match fld x 10 1, fld x 0 1 with
  | 1, 0 => if fld x 1 3 = 0 then some (.fshlImm (BitVec.ofNat 5 (fld x 21 5)) (BitVec.ofNat 5 (fld x 16 5)) (BitVec.ofNat 5 (fld x 11 5)) (BitVec.ofNat 6 (fld x 4 6))) else none
  | 0, 0 => if fld x 1 4 = 0 then some (.fshlReg (BitVec.ofNat 5 (fld x 21 5)) (BitVec.ofNat 5 (fld x 16 5)) (BitVec.ofNat 5 (fld x 11 5)) (BitVec.ofNat 5 (fld x 5 5))) else none
  | 1, 1 => if fld x 1 3 = 0 then some (.fshrImm (BitVec.ofNat 5 (fld x 21 5)) (BitVec.ofNat 5 (fld x 16 5)) (BitVec.ofNat 5 (fld x 11 5)) (BitVec.ofNat 6 (fld x 4 6))) else none
  | 0, 1 => if fld x 1 4 = 0 then some (.fshrReg (BitVec.ofNat 5 (fld x 21 5)) (BitVec.ofNat 5 (fld x 16 5)) (BitVec.ofNat 5 (fld x 11 5)) (BitVec.ofNat 5 (fld x 5 5))) else none
  | _, _ => none

/-- Major 0x03 (Table 2.4). -/
def dec03 (x : Nat) : Option Instr :=
  match fld x 2 2 with
  | 0 => if fld x 0 2 = 0 then some (.ext (BitVec.ofNat 5 (fld x 21 5)) (BitVec.ofNat 5 (fld x 16 5)) (BitVec.ofNat 6 (fld x 10 6)) (BitVec.ofNat 6 (fld x 4 6))) else none
  | 1 => if fld x 0 2 = 0 then some (.extn (BitVec.ofNat 5 (fld x 21 5)) (BitVec.ofNat 5 (fld x 16 5)) (BitVec.ofNat 6 (fld x 10 6)) (BitVec.ofNat 6 (fld x 4 6))) else none
  | 2 => if fld x 0 2 = 0 then some (.ins (BitVec.ofNat 5 (fld x 21 5)) (BitVec.ofNat 5 (fld x 16 5)) (BitVec.ofNat 6 (fld x 10 6)) (BitVec.ofNat 6 (fld x 4 6))) else none
  | _ => none

/-- Major 0x04 (Table 2.4). -/
def dec04 (x : Nat) : Option Instr :=
  some (.addi (BitVec.ofNat 5 (fld x 21 5)) (BitVec.ofNat 5 (fld x 16 5)) (BitVec.ofNat 16 (fld x 0 16)))

/-- Major 0x05 (Table 2.4). -/
def dec05 (x : Nat) : Option Instr :=
  some (.andi (BitVec.ofNat 5 (fld x 21 5)) (BitVec.ofNat 5 (fld x 16 5)) (BitVec.ofNat 16 (fld x 0 16)))

/-- Major 0x06 (Table 2.4). -/
def dec06 (x : Nat) : Option Instr :=
  some (.ori (BitVec.ofNat 5 (fld x 21 5)) (BitVec.ofNat 5 (fld x 16 5)) (BitVec.ofNat 16 (fld x 0 16)))

/-- Major 0x07 (Table 2.4). -/
def dec07 (x : Nat) : Option Instr :=
  some (.xori (BitVec.ofNat 5 (fld x 21 5)) (BitVec.ofNat 5 (fld x 16 5)) (BitVec.ofNat 16 (fld x 0 16)))

/-- Major 0x08 (Table 2.4). -/
def dec08 (x : Nat) : Option Instr :=
  match fld x 14 2 with
  | 0 => if fld x 6 8 = 0 then some (.slli (BitVec.ofNat 5 (fld x 21 5)) (BitVec.ofNat 5 (fld x 16 5)) (BitVec.ofNat 6 (fld x 0 6))) else none
  | 1 => if fld x 6 8 = 0 then some (.srli (BitVec.ofNat 5 (fld x 21 5)) (BitVec.ofNat 5 (fld x 16 5)) (BitVec.ofNat 6 (fld x 0 6))) else none
  | 2 => if fld x 6 8 = 0 then some (.srai (BitVec.ofNat 5 (fld x 21 5)) (BitVec.ofNat 5 (fld x 16 5)) (BitVec.ofNat 6 (fld x 0 6))) else none
  | 3 => if fld x 6 8 = 0 then some (.rori (BitVec.ofNat 5 (fld x 21 5)) (BitVec.ofNat 5 (fld x 16 5)) (BitVec.ofNat 6 (fld x 0 6))) else none
  | _ => none

/-- Major 0x09 (Table 2.4). -/
def dec09 (x : Nat) : Option Instr :=
  some (.lui (BitVec.ofNat 5 (fld x 21 5)) (BitVec.ofNat 21 (fld x 0 21)))

/-- Major 0x0A (Table 2.4). -/
def dec0A (x : Nat) : Option Instr :=
  if fld x 0 9 = 0 then (Cond.ofCode (fld x 19 4)).bind fun cond => some (.cmp (BitVec.ofNat 3 (fld x 23 3)) cond (BitVec.ofNat 5 (fld x 14 5)) (BitVec.ofNat 5 (fld x 9 5))) else none

/-- Major 0x0B (Table 2.4). -/
def dec0B (x : Nat) : Option Instr :=
  (Cond.ofCode (fld x 19 4)).bind fun cond => some (.cmpi (BitVec.ofNat 3 (fld x 23 3)) cond (BitVec.ofNat 5 (fld x 14 5)) (BitVec.ofNat 14 (fld x 0 14)))

/-- Major 0x0C (Table 2.4). -/
def dec0C (x : Nat) : Option Instr :=
  if fld x 0 8 = 0 then some (.sel (BitVec.ofNat 5 (fld x 21 5)) (BitVec.ofNat 3 (fld x 8 3)) (BitVec.ofNat 5 (fld x 16 5)) (BitVec.ofNat 5 (fld x 11 5))) else none

/-- Major 0x0D (Table 2.4). -/
def dec0D (x : Nat) : Option Instr :=
  if fld x 0 8 = 0 then some (.lea (BitVec.ofNat 5 (fld x 21 5)) (BitVec.ofNat 5 (fld x 16 5)) (BitVec.ofNat 5 (fld x 11 5)) (BitVec.ofNat 3 (fld x 8 3))) else none

/-- Major 0x10 (Table 2.4). -/
def dec10 (x : Nat) : Option Instr :=
  (MSize.ofCode (fld x 13 3)).bind fun sz => some (.ldn sz (decide (fld x 12 1 = 1)) (BitVec.ofNat 5 (fld x 21 5)) (BitVec.ofNat 5 (fld x 16 5)) (BitVec.ofNat 12 (fld x 0 12)))

/-- Major 0x11 (Table 2.4). -/
def dec11 (x : Nat) : Option Instr :=
  if fld x 12 1 = 0 then (MSize.ofCode (fld x 13 3)).bind fun sz => some (.stn sz (BitVec.ofNat 5 (fld x 21 5)) (BitVec.ofNat 5 (fld x 16 5)) (BitVec.ofNat 12 (fld x 0 12))) else none

/-- Major 0x12 (Table 2.4). -/
def dec12 (x : Nat) : Option Instr :=
  (MSize.ofCode (fld x 13 3)).bind fun sz => some (.ldf sz (decide (fld x 12 1 = 1)) (BitVec.ofNat 5 (fld x 21 5)) (BitVec.ofNat 5 (fld x 16 5)) (BitVec.ofNat 12 (fld x 0 12)))

/-- Major 0x13 (Table 2.4). -/
def dec13 (x : Nat) : Option Instr :=
  if fld x 12 1 = 0 then (MSize.ofCode (fld x 13 3)).bind fun sz => some (.stf sz (BitVec.ofNat 5 (fld x 21 5)) (BitVec.ofNat 5 (fld x 16 5)) (BitVec.ofNat 12 (fld x 0 12))) else none

/-- Major 0x14 (Table 2.4). -/
def dec14 (x : Nat) : Option Instr :=
  match fld x 3 1 with
  | 1 => if fld x 0 3 = 0 ∧ fld x 5 1 = 1 then (AmoOp.ofCode (fld x 6 5)).bind fun op => some (.amoFetch op (decide (fld x 4 1 = 1)) (BitVec.ofNat 5 (fld x 21 5)) (BitVec.ofNat 5 (fld x 16 5)) (BitVec.ofNat 5 (fld x 11 5))) else none
  | 0 => if fld x 0 3 = 0 ∧ fld x 5 1 = 1 ∧ fld x 21 5 = 0 then (AmoOp.ofCode (fld x 6 5)).bind fun op => some (.amoPost op (decide (fld x 4 1 = 1)) (BitVec.ofNat 5 (fld x 16 5)) (BitVec.ofNat 5 (fld x 11 5))) else none
  | _ => none

/-- Major 0x15 (Table 2.4). -/
def dec15 (x : Nat) : Option Instr :=
  if fld x 0 9 = 0 ∧ fld x 10 1 = 1 then some (.cas (decide (fld x 9 1 = 1)) (BitVec.ofNat 5 (fld x 21 5)) (BitVec.ofNat 5 (fld x 16 5)) (BitVec.ofNat 5 (fld x 11 5))) else none

/-- Major 0x16 (Table 2.4). -/
def dec16 (x : Nat) : Option Instr :=
  some (.stnb (BitVec.ofNat 5 (fld x 21 5)) (BitVec.ofNat 5 (fld x 16 5)) (BitVec.ofNat 4 (fld x 12 4)) (decide (fld x 11 1 = 1)) (BitVec.ofNat 11 (fld x 0 11)))

/-- Major 0x18 (Table 2.4). -/
def dec18 (x : Nat) : Option Instr :=
  match fld x 15 1 with
  | 0 => if fld x 21 1 = 0 then some (.vldn (BitVec.ofNat 4 (fld x 22 4)) (BitVec.ofNat 5 (fld x 16 5)) (BitVec.ofNat 3 (fld x 12 3)) (BitVec.ofNat 12 (fld x 0 12))) else none
  | 1 => if fld x 21 1 = 0 then some (.vstn (BitVec.ofNat 4 (fld x 22 4)) (BitVec.ofNat 5 (fld x 16 5)) (BitVec.ofNat 3 (fld x 12 3)) (BitVec.ofNat 12 (fld x 0 12))) else none
  | _ => none

/-- Major 0x19 (Table 2.4). -/
def dec19 (x : Nat) : Option Instr :=
  match fld x 15 1 with
  | 0 => if fld x 0 6 = 0 ∧ fld x 21 1 = 0 then some (.vgthn (BitVec.ofNat 4 (fld x 22 4)) (BitVec.ofNat 5 (fld x 16 5)) (BitVec.ofNat 3 (fld x 12 3)) (BitVec.ofNat 4 (fld x 8 4)) (BitVec.ofNat 2 (fld x 6 2))) else none
  | 1 => if fld x 0 6 = 0 ∧ fld x 21 1 = 0 then some (.vsctn (BitVec.ofNat 4 (fld x 22 4)) (BitVec.ofNat 5 (fld x 16 5)) (BitVec.ofNat 3 (fld x 12 3)) (BitVec.ofNat 4 (fld x 8 4)) (BitVec.ofNat 2 (fld x 6 2))) else none
  | _ => none

/-- Major 0x1A (Table 2.4). -/
def dec1A (x : Nat) : Option Instr :=
  if fld x 15 1 = 0 ∧ fld x 21 1 = 0 then some (.vldf (BitVec.ofNat 4 (fld x 22 4)) (BitVec.ofNat 5 (fld x 16 5)) (BitVec.ofNat 3 (fld x 12 3)) (BitVec.ofNat 12 (fld x 0 12))) else none

/-- Major 0x1B (Table 2.4). -/
def dec1B (x : Nat) : Option Instr :=
  if fld x 15 1 = 0 ∧ fld x 21 1 = 0 then some (.vstf (BitVec.ofNat 4 (fld x 22 4)) (BitVec.ofNat 5 (fld x 16 5)) (BitVec.ofNat 3 (fld x 12 3)) (BitVec.ofNat 12 (fld x 0 12))) else none

/-- Major 0x20 (Table 2.4). -/
def dec20 (x : Nat) : Option Instr :=
  (Quant.ofCode (fld x 21 2)).bind fun qn => some (.br (BitVec.ofNat 3 (fld x 23 3)) qn (BitVec.ofNat 21 (fld x 0 21)))

/-- Major 0x21 (Table 2.4). -/
def dec21 (x : Nat) : Option Instr :=
  some (.j (BitVec.ofNat 26 (fld x 0 26)))

/-- Major 0x22 (Table 2.4). -/
def dec22 (x : Nat) : Option Instr :=
  some (.jal (BitVec.ofNat 26 (fld x 0 26)))

/-- Major 0x23 (Table 2.4). -/
def dec23 (x : Nat) : Option Instr :=
  some (.jalr (BitVec.ofNat 5 (fld x 21 5)) (BitVec.ofNat 5 (fld x 16 5)) (BitVec.ofNat 16 (fld x 0 16)))

/-- Major 0x24 (Table 2.4). -/
def dec24 (x : Nat) : Option Instr :=
  if fld x 21 5 = 0 then some (.btag (BitVec.ofNat 21 (fld x 0 21))) else none

/-- Major 0x25 (Table 2.4). -/
def dec25 (x : Nat) : Option Instr :=
  match fld x 25 1 with
  | 0 => if fld x 0 15 = 0 then some (.loopReg (BitVec.ofNat 5 (fld x 20 5)) (BitVec.ofNat 5 (fld x 15 5))) else none
  | 1 => some (.loopImm (BitVec.ofNat 5 (fld x 20 5)) (BitVec.ofNat 20 (fld x 0 20)))
  | _ => none

/-- Major 0x26 (Table 2.4). -/
def dec26 (x : Nat) : Option Instr :=
  if fld x 0 26 = 0 then some .ret else none

/-- Major 0x27 (Table 2.4). -/
def dec27 (x : Nat) : Option Instr :=
  match fld x 21 5 with
  | 0 => if fld x 0 16 = 0 ∧ fld x 16 5 = 0 then some .nop else none
  | 1 => if fld x 16 5 = 0 then some (.trap (BitVec.ofNat 16 (fld x 0 16))) else none
  | 2 => if fld x 0 16 = 0 ∧ fld x 16 5 = 0 then some .eret else none
  | 3 => if fld x 0 16 = 0 ∧ fld x 16 5 = 0 then some .yield else none
  | 4 => if fld x 0 16 = 0 ∧ fld x 16 5 = 0 then some .commit else none
  | 5 => if fld x 3 13 = 0 ∧ fld x 16 5 = 0 then (Scope.ofCode (fld x 0 3)).bind fun scope => some (.fence scope) else none
  | 6 => if fld x 16 5 = 0 then some (.brk (BitVec.ofNat 16 (fld x 0 16))) else none
  | 7 => if fld x 0 16 = 0 then some (.wait (BitVec.ofNat 5 (fld x 16 5))) else none
  | _ => none

/-- Major 0x28 (Table 2.4). -/
def dec28 (x : Nat) : Option Instr :=
  match fld x 23 3 with
  | 0 => if fld x 0 5 = 0 then (Cls.ofCode (fld x 21 2)).bind fun cls => some (.send cls (BitVec.ofNat 5 (fld x 16 5)) (BitVec.ofNat 7 (fld x 9 7)) (BitVec.ofNat 4 (fld x 5 4))) else none
  | 1 => if fld x 0 5 = 0 then (Cls.ofCode (fld x 21 2)).bind fun cls => some (.sendR cls (BitVec.ofNat 5 (fld x 16 5)) (BitVec.ofNat 7 (fld x 9 7)) (BitVec.ofNat 4 (fld x 5 4))) else none
  | 2 => if fld x 4 1 = 0 then (Cls.ofCode (fld x 21 2)).bind fun cls => some (.sendv cls (BitVec.ofNat 5 (fld x 16 5)) (BitVec.ofNat 7 (fld x 9 7)) (BitVec.ofNat 4 (fld x 5 4)) (BitVec.ofNat 4 (fld x 0 4))) else none
  | 3 => if fld x 0 5 = 0 then (Cls.ofCode (fld x 21 2)).bind fun cls => some (.mcast cls (BitVec.ofNat 5 (fld x 16 5)) (BitVec.ofNat 7 (fld x 9 7)) (BitVec.ofNat 4 (fld x 5 4))) else none
  | 4 => (Cls.ofCode (fld x 21 2)).bind fun cls => some (.get cls (BitVec.ofNat 5 (fld x 16 5)) (BitVec.ofNat 7 (fld x 9 7)) (BitVec.ofNat 4 (fld x 5 4)) (BitVec.ofNat 5 (fld x 0 5)))
  | 5 => if fld x 9 7 = 0 ∧ fld x 21 2 = 0 then some (.put (BitVec.ofNat 5 (fld x 16 5)) (BitVec.ofNat 4 (fld x 5 4)) (BitVec.ofNat 5 (fld x 0 5))) else none
  | 6 => if fld x 0 5 = 0 ∧ fld x 5 4 = 0 ∧ fld x 16 5 = 0 ∧ fld x 21 2 = 0 then some (.recv (BitVec.ofNat 7 (fld x 9 7))) else none
  | _ => none

/-- Major 0x29 (Table 2.4). -/
def dec29 (x : Nat) : Option Instr :=
  match fld x 23 3 with
  | 0 => if fld x 0 3 = 0 ∧ fld x 3 8 = 0 ∧ fld x 18 5 = 0 then some (.arm (BitVec.ofNat 7 (fld x 11 7))) else none
  | 1 => if fld x 0 3 = 0 ∧ fld x 3 8 = 0 ∧ fld x 18 5 = 0 then some (.disarm (BitVec.ofNat 7 (fld x 11 7))) else none
  | 2 => if fld x 0 3 = 0 ∧ fld x 3 8 = 0 then some (.tcnt (BitVec.ofNat 5 (fld x 18 5)) (BitVec.ofNat 7 (fld x 11 7))) else none
  | 3 => if fld x 0 3 = 0 ∧ fld x 11 7 = 0 ∧ fld x 18 5 = 0 then some (.setf (BitVec.ofNat 8 (fld x 3 8))) else none
  | 4 => if fld x 0 3 = 0 ∧ fld x 11 7 = 0 ∧ fld x 18 5 = 0 then some (.clrf (BitVec.ofNat 8 (fld x 3 8))) else none
  | 5 => if fld x 0 3 = 0 ∧ fld x 3 8 = 0 ∧ fld x 11 7 = 0 then some (.tlaunch (BitVec.ofNat 5 (fld x 18 5))) else none
  | 6 => if fld x 0 3 = 0 ∧ fld x 3 8 = 0 ∧ fld x 11 7 = 0 ∧ fld x 18 5 = 0 then some .jdone else none
  | _ => none

/-- Major 0x2A (Table 2.4). -/
def dec2A (x : Nat) : Option Instr :=
  match fld x 25 1 with
  | 0 => if fld x 0 17 = 0 then some (.bar (BitVec.ofNat 8 (fld x 17 8))) else none
  | 1 => if fld x 0 17 = 0 then some (.arrive (BitVec.ofNat 8 (fld x 17 8))) else none
  | _ => none

/-- Major 0x2B (Table 2.4). -/
def dec2B (x : Nat) : Option Instr :=
  match fld x 24 2 with
  | 0 => if fld x 0 2 = 0 ∧ fld x 14 5 = 0 then (Csr.ofCode (fld x 2 12)).bind fun csr => some (.csrr (BitVec.ofNat 5 (fld x 19 5)) csr) else none
  | 1 => if fld x 0 2 = 0 then (Csr.ofCode (fld x 2 12)).bind fun csr => some (.csrw (BitVec.ofNat 5 (fld x 19 5)) (BitVec.ofNat 5 (fld x 14 5)) csr) else none
  | 2 => if fld x 0 2 = 0 then (Csr.ofCode (fld x 2 12)).bind fun csr => some (.csrs (BitVec.ofNat 5 (fld x 19 5)) (BitVec.ofNat 5 (fld x 14 5)) csr) else none
  | 3 => if fld x 0 2 = 0 then (Csr.ofCode (fld x 2 12)).bind fun csr => some (.csrc (BitVec.ofNat 5 (fld x 19 5)) (BitVec.ofNat 5 (fld x 14 5)) csr) else none
  | _ => none

/-- Major 0x30 (Table 2.4). -/
def dec30 (x : Nat) : Option Instr :=
  match fld x 0 4 with
  | 0 => if fld x 4 3 = 0 then (VTy.ofCode (fld x 7 4)).bind fun ty => some (.vaddInt ty (BitVec.ofNat 4 (fld x 22 4)) (BitVec.ofNat 4 (fld x 18 4)) (BitVec.ofNat 4 (fld x 14 4)) (BitVec.ofNat 3 (fld x 11 3))) else none
  | 1 => if fld x 4 3 = 0 then (VTy.ofCode (fld x 7 4)).bind fun ty => some (.vsubInt ty (BitVec.ofNat 4 (fld x 22 4)) (BitVec.ofNat 4 (fld x 18 4)) (BitVec.ofNat 4 (fld x 14 4)) (BitVec.ofNat 3 (fld x 11 3))) else none
  | 2 => if fld x 4 3 = 0 then (VTy.ofCode (fld x 7 4)).bind fun ty => some (.vmulInt ty (BitVec.ofNat 4 (fld x 22 4)) (BitVec.ofNat 4 (fld x 18 4)) (BitVec.ofNat 4 (fld x 14 4)) (BitVec.ofNat 3 (fld x 11 3))) else none
  | 3 => if fld x 4 3 = 0 then (VTy.ofCode (fld x 7 4)).bind fun ty => some (.vmulh ty (BitVec.ofNat 4 (fld x 22 4)) (BitVec.ofNat 4 (fld x 18 4)) (BitVec.ofNat 4 (fld x 14 4)) (BitVec.ofNat 3 (fld x 11 3))) else none
  | 4 => if fld x 4 3 = 0 then (VTy.ofCode (fld x 7 4)).bind fun ty => some (.vadds ty (BitVec.ofNat 4 (fld x 22 4)) (BitVec.ofNat 4 (fld x 18 4)) (BitVec.ofNat 4 (fld x 14 4)) (BitVec.ofNat 3 (fld x 11 3))) else none
  | 5 => if fld x 4 3 = 0 then (VTy.ofCode (fld x 7 4)).bind fun ty => some (.vsubs ty (BitVec.ofNat 4 (fld x 22 4)) (BitVec.ofNat 4 (fld x 18 4)) (BitVec.ofNat 4 (fld x 14 4)) (BitVec.ofNat 3 (fld x 11 3))) else none
  | 6 => if fld x 4 3 = 0 then (VTy.ofCode (fld x 7 4)).bind fun ty => some (.vminInt ty (BitVec.ofNat 4 (fld x 22 4)) (BitVec.ofNat 4 (fld x 18 4)) (BitVec.ofNat 4 (fld x 14 4)) (BitVec.ofNat 3 (fld x 11 3))) else none
  | 7 => if fld x 4 3 = 0 then (VTy.ofCode (fld x 7 4)).bind fun ty => some (.vmaxInt ty (BitVec.ofNat 4 (fld x 22 4)) (BitVec.ofNat 4 (fld x 18 4)) (BitVec.ofNat 4 (fld x 14 4)) (BitVec.ofNat 3 (fld x 11 3))) else none
  | 8 => if fld x 4 3 = 0 then (VTy.ofCode (fld x 7 4)).bind fun ty => some (.vand ty (BitVec.ofNat 4 (fld x 22 4)) (BitVec.ofNat 4 (fld x 18 4)) (BitVec.ofNat 4 (fld x 14 4)) (BitVec.ofNat 3 (fld x 11 3))) else none
  | 9 => if fld x 4 3 = 0 then (VTy.ofCode (fld x 7 4)).bind fun ty => some (.vor ty (BitVec.ofNat 4 (fld x 22 4)) (BitVec.ofNat 4 (fld x 18 4)) (BitVec.ofNat 4 (fld x 14 4)) (BitVec.ofNat 3 (fld x 11 3))) else none
  | 10 => if fld x 4 3 = 0 then (VTy.ofCode (fld x 7 4)).bind fun ty => some (.vxor ty (BitVec.ofNat 4 (fld x 22 4)) (BitVec.ofNat 4 (fld x 18 4)) (BitVec.ofNat 4 (fld x 14 4)) (BitVec.ofNat 3 (fld x 11 3))) else none
  | 11 => if fld x 4 3 = 0 ∧ fld x 14 4 = 0 then (VTy.ofCode (fld x 7 4)).bind fun ty => some (.vabsInt ty (BitVec.ofNat 4 (fld x 22 4)) (BitVec.ofNat 4 (fld x 18 4)) (BitVec.ofNat 3 (fld x 11 3))) else none
  | 12 => if fld x 4 3 = 0 ∧ fld x 14 4 = 0 then (VTy.ofCode (fld x 7 4)).bind fun ty => some (.vnegInt ty (BitVec.ofNat 4 (fld x 22 4)) (BitVec.ofNat 4 (fld x 18 4)) (BitVec.ofNat 3 (fld x 11 3))) else none
  | _ => none

/-- Major 0x31 (Table 2.4). -/
def dec31 (x : Nat) : Option Instr :=
  match fld x 0 4 with
  | 0 => (Rm.ofCode (fld x 4 3)).bind fun rm => (FTy.ofCode (fld x 7 4)).bind fun f => some (.vaddFp f rm (BitVec.ofNat 4 (fld x 22 4)) (BitVec.ofNat 4 (fld x 18 4)) (BitVec.ofNat 4 (fld x 14 4)) (BitVec.ofNat 3 (fld x 11 3)))
  | 1 => (Rm.ofCode (fld x 4 3)).bind fun rm => (FTy.ofCode (fld x 7 4)).bind fun f => some (.vsubFp f rm (BitVec.ofNat 4 (fld x 22 4)) (BitVec.ofNat 4 (fld x 18 4)) (BitVec.ofNat 4 (fld x 14 4)) (BitVec.ofNat 3 (fld x 11 3)))
  | 2 => (Rm.ofCode (fld x 4 3)).bind fun rm => (FTy.ofCode (fld x 7 4)).bind fun f => some (.vmulFp f rm (BitVec.ofNat 4 (fld x 22 4)) (BitVec.ofNat 4 (fld x 18 4)) (BitVec.ofNat 4 (fld x 14 4)) (BitVec.ofNat 3 (fld x 11 3)))
  | 3 => (Rm.ofCode (fld x 4 3)).bind fun rm => (FTy.ofCode (fld x 7 4)).bind fun f => some (.vfma f rm (BitVec.ofNat 4 (fld x 22 4)) (BitVec.ofNat 4 (fld x 18 4)) (BitVec.ofNat 4 (fld x 14 4)) (BitVec.ofNat 3 (fld x 11 3)))
  | 4 => (Rm.ofCode (fld x 4 3)).bind fun rm => (FTy.ofCode (fld x 7 4)).bind fun f => some (.vfms f rm (BitVec.ofNat 4 (fld x 22 4)) (BitVec.ofNat 4 (fld x 18 4)) (BitVec.ofNat 4 (fld x 14 4)) (BitVec.ofNat 3 (fld x 11 3)))
  | 5 => (Rm.ofCode (fld x 4 3)).bind fun rm => (FTy.ofCode (fld x 7 4)).bind fun f => some (.vfnma f rm (BitVec.ofNat 4 (fld x 22 4)) (BitVec.ofNat 4 (fld x 18 4)) (BitVec.ofNat 4 (fld x 14 4)) (BitVec.ofNat 3 (fld x 11 3)))
  | 6 => if fld x 4 3 = 0 then (FTy.ofCode (fld x 7 4)).bind fun f => some (.vminFp f (BitVec.ofNat 4 (fld x 22 4)) (BitVec.ofNat 4 (fld x 18 4)) (BitVec.ofNat 4 (fld x 14 4)) (BitVec.ofNat 3 (fld x 11 3))) else none
  | 7 => if fld x 4 3 = 0 then (FTy.ofCode (fld x 7 4)).bind fun f => some (.vmaxFp f (BitVec.ofNat 4 (fld x 22 4)) (BitVec.ofNat 4 (fld x 18 4)) (BitVec.ofNat 4 (fld x 14 4)) (BitVec.ofNat 3 (fld x 11 3))) else none
  | 8 => if fld x 4 3 = 0 then (FTy.ofCode (fld x 7 4)).bind fun f => some (.vminn f (BitVec.ofNat 4 (fld x 22 4)) (BitVec.ofNat 4 (fld x 18 4)) (BitVec.ofNat 4 (fld x 14 4)) (BitVec.ofNat 3 (fld x 11 3))) else none
  | 9 => if fld x 4 3 = 0 then (FTy.ofCode (fld x 7 4)).bind fun f => some (.vmaxn f (BitVec.ofNat 4 (fld x 22 4)) (BitVec.ofNat 4 (fld x 18 4)) (BitVec.ofNat 4 (fld x 14 4)) (BitVec.ofNat 3 (fld x 11 3))) else none
  | 10 => if fld x 4 3 = 0 ∧ fld x 14 4 = 0 then (FTy.ofCode (fld x 7 4)).bind fun f => some (.vabsFp f (BitVec.ofNat 4 (fld x 22 4)) (BitVec.ofNat 4 (fld x 18 4)) (BitVec.ofNat 3 (fld x 11 3))) else none
  | 11 => if fld x 4 3 = 0 ∧ fld x 14 4 = 0 then (FTy.ofCode (fld x 7 4)).bind fun f => some (.vnegFp f (BitVec.ofNat 4 (fld x 22 4)) (BitVec.ofNat 4 (fld x 18 4)) (BitVec.ofNat 3 (fld x 11 3))) else none
  | 12 => if fld x 4 3 = 0 then (FTy.ofCode (fld x 7 4)).bind fun f => some (.vcsgn f (BitVec.ofNat 4 (fld x 22 4)) (BitVec.ofNat 4 (fld x 18 4)) (BitVec.ofNat 4 (fld x 14 4)) (BitVec.ofNat 3 (fld x 11 3))) else none
  | _ => none

/-- Major 0x32 (Table 2.4). -/
def dec32 (x : Nat) : Option Instr :=
  if fld x 4 3 = 0 ∧ fld x 25 1 = 0 then (VCond.ofCode (fld x 0 4)).bind fun cond => (VTy.ofCode (fld x 7 4)).bind fun ty => some (.vcmp cond ty (BitVec.ofNat 3 (fld x 22 3)) (BitVec.ofNat 4 (fld x 18 4)) (BitVec.ofNat 4 (fld x 14 4)) (BitVec.ofNat 3 (fld x 11 3))) else none

/-- Major 0x33 (Table 2.4). -/
def dec33 (x : Nat) : Option Instr :=
  (Rm.ofCode (fld x 4 3)).bind fun rm => (VTy.ofCode (fld x 7 4)).bind fun src => (VTy.ofCode (fld x 14 4)).bind fun dst => some (.vcvt src dst (decide (fld x 0 1 = 1)) rm (BitVec.ofNat 4 (fld x 22 4)) (BitVec.ofNat 4 (fld x 18 4)) (BitVec.ofNat 3 (fld x 1 3)) (BitVec.ofNat 3 (fld x 11 3)))

/-- Major 0x34 (Table 2.4). -/
def dec34 (x : Nat) : Option Instr :=
  match fld x 0 4 with
  | 0 => if fld x 14 4 = 0 then (Rm.ofCode (fld x 4 3)).bind fun rm => (FTy.ofCode (fld x 7 4)).bind fun f => some (.vrcp f rm (BitVec.ofNat 4 (fld x 22 4)) (BitVec.ofNat 4 (fld x 18 4)) (BitVec.ofNat 3 (fld x 11 3))) else none
  | 1 => if fld x 14 4 = 0 then (Rm.ofCode (fld x 4 3)).bind fun rm => (FTy.ofCode (fld x 7 4)).bind fun f => some (.vrsq f rm (BitVec.ofNat 4 (fld x 22 4)) (BitVec.ofNat 4 (fld x 18 4)) (BitVec.ofNat 3 (fld x 11 3))) else none
  | 2 => if fld x 14 4 = 0 then (Rm.ofCode (fld x 4 3)).bind fun rm => (FTy.ofCode (fld x 7 4)).bind fun f => some (.vsqrt f rm (BitVec.ofNat 4 (fld x 22 4)) (BitVec.ofNat 4 (fld x 18 4)) (BitVec.ofNat 3 (fld x 11 3))) else none
  | 3 => (Rm.ofCode (fld x 4 3)).bind fun rm => (FTy.ofCode (fld x 7 4)).bind fun f => some (.vdiv f rm (BitVec.ofNat 4 (fld x 22 4)) (BitVec.ofNat 4 (fld x 18 4)) (BitVec.ofNat 4 (fld x 14 4)) (BitVec.ofNat 3 (fld x 11 3)))
  | 4 => if fld x 14 4 = 0 then (Rm.ofCode (fld x 4 3)).bind fun rm => (FTy.ofCode (fld x 7 4)).bind fun f => some (.vexp2 f rm (BitVec.ofNat 4 (fld x 22 4)) (BitVec.ofNat 4 (fld x 18 4)) (BitVec.ofNat 3 (fld x 11 3))) else none
  | 5 => if fld x 14 4 = 0 then (Rm.ofCode (fld x 4 3)).bind fun rm => (FTy.ofCode (fld x 7 4)).bind fun f => some (.vlog2 f rm (BitVec.ofNat 4 (fld x 22 4)) (BitVec.ofNat 4 (fld x 18 4)) (BitVec.ofNat 3 (fld x 11 3))) else none
  | _ => none

/-- Major 0x35 (Table 2.4). -/
def dec35 (x : Nat) : Option Instr :=
  match fld x 0 4 with
  | 0 => if fld x 4 3 = 0 then (VTy.ofCode (fld x 7 4)).bind fun ty => some (.vperm ty (BitVec.ofNat 4 (fld x 22 4)) (BitVec.ofNat 4 (fld x 18 4)) (BitVec.ofNat 4 (fld x 14 4)) (BitVec.ofNat 3 (fld x 11 3))) else none
  | 1 => if fld x 4 3 = 0 ∧ fld x 17 1 = 0 then (VTy.ofCode (fld x 7 4)).bind fun ty => some (.vbcst ty (BitVec.ofNat 4 (fld x 22 4)) (BitVec.ofNat 4 (fld x 18 4)) (BitVec.ofNat 3 (fld x 14 3)) (BitVec.ofNat 3 (fld x 11 3))) else none
  | 2 => if fld x 4 3 = 0 then (VTy.ofCode (fld x 7 4)).bind fun ty => some (.vzip ty (BitVec.ofNat 4 (fld x 22 4)) (BitVec.ofNat 4 (fld x 18 4)) (BitVec.ofNat 4 (fld x 14 4)) (BitVec.ofNat 3 (fld x 11 3))) else none
  | 3 => if fld x 4 3 = 0 then (VTy.ofCode (fld x 7 4)).bind fun ty => some (.vunzip ty (BitVec.ofNat 4 (fld x 22 4)) (BitVec.ofNat 4 (fld x 18 4)) (BitVec.ofNat 4 (fld x 14 4)) (BitVec.ofNat 3 (fld x 11 3))) else none
  | 4 => if fld x 4 3 = 0 ∧ fld x 14 4 = 0 then (VTy.ofCode (fld x 7 4)).bind fun ty => some (.vredadd ty (BitVec.ofNat 4 (fld x 22 4)) (BitVec.ofNat 4 (fld x 18 4)) (BitVec.ofNat 3 (fld x 11 3))) else none
  | 5 => if fld x 4 3 = 0 ∧ fld x 14 4 = 0 then (VTy.ofCode (fld x 7 4)).bind fun ty => some (.vredmin ty (BitVec.ofNat 4 (fld x 22 4)) (BitVec.ofNat 4 (fld x 18 4)) (BitVec.ofNat 3 (fld x 11 3))) else none
  | 6 => if fld x 4 3 = 0 ∧ fld x 14 4 = 0 then (VTy.ofCode (fld x 7 4)).bind fun ty => some (.vredmax ty (BitVec.ofNat 4 (fld x 22 4)) (BitVec.ofNat 4 (fld x 18 4)) (BitVec.ofNat 3 (fld x 11 3))) else none
  | 7 => if fld x 4 3 = 0 ∧ fld x 14 4 = 0 then (VTy.ofCode (fld x 7 4)).bind fun ty => some (.vredminn ty (BitVec.ofNat 4 (fld x 22 4)) (BitVec.ofNat 4 (fld x 18 4)) (BitVec.ofNat 3 (fld x 11 3))) else none
  | 8 => if fld x 4 3 = 0 ∧ fld x 14 4 = 0 then (VTy.ofCode (fld x 7 4)).bind fun ty => some (.vredmaxn ty (BitVec.ofNat 4 (fld x 22 4)) (BitVec.ofNat 4 (fld x 18 4)) (BitVec.ofNat 3 (fld x 11 3))) else none
  | _ => none

/-- Major 0x36 (Table 2.4). -/
def dec36 (x : Nat) : Option Instr :=
  match fld x 0 4 with
  | 0 => if fld x 4 3 = 0 then (VTy.ofCode (fld x 7 4)).bind fun ty => some (.vsll ty (BitVec.ofNat 4 (fld x 22 4)) (BitVec.ofNat 4 (fld x 18 4)) (BitVec.ofNat 4 (fld x 14 4)) (BitVec.ofNat 3 (fld x 11 3))) else none
  | 1 => if fld x 4 3 = 0 then (VTy.ofCode (fld x 7 4)).bind fun ty => some (.vsrl ty (BitVec.ofNat 4 (fld x 22 4)) (BitVec.ofNat 4 (fld x 18 4)) (BitVec.ofNat 4 (fld x 14 4)) (BitVec.ofNat 3 (fld x 11 3))) else none
  | 2 => if fld x 4 3 = 0 then (VTy.ofCode (fld x 7 4)).bind fun ty => some (.vsra ty (BitVec.ofNat 4 (fld x 22 4)) (BitVec.ofNat 4 (fld x 18 4)) (BitVec.ofNat 4 (fld x 14 4)) (BitVec.ofNat 3 (fld x 11 3))) else none
  | 3 => (VTy.ofCode (fld x 7 4)).bind fun ty => some (.vslli ty (BitVec.ofNat 4 (fld x 22 4)) (BitVec.ofNat 4 (fld x 18 4)) (BitVec.ofNat 7 (fld x 4 3 * 16 + fld x 14 4)) (BitVec.ofNat 3 (fld x 11 3)))
  | 4 => (VTy.ofCode (fld x 7 4)).bind fun ty => some (.vsrli ty (BitVec.ofNat 4 (fld x 22 4)) (BitVec.ofNat 4 (fld x 18 4)) (BitVec.ofNat 7 (fld x 4 3 * 16 + fld x 14 4)) (BitVec.ofNat 3 (fld x 11 3)))
  | 5 => (VTy.ofCode (fld x 7 4)).bind fun ty => some (.vsrai ty (BitVec.ofNat 4 (fld x 22 4)) (BitVec.ofNat 4 (fld x 18 4)) (BitVec.ofNat 7 (fld x 4 3 * 16 + fld x 14 4)) (BitVec.ofNat 3 (fld x 11 3)))
  | 7 => some (.vbool3 (BitVec.ofNat 4 (fld x 22 4)) (BitVec.ofNat 4 (fld x 18 4)) (BitVec.ofNat 4 (fld x 14 4)) (BitVec.ofNat 3 (fld x 11 3)) (BitVec.ofNat 8 (fld x 3 8)))
  | 15 => some (.vbool3 (BitVec.ofNat 4 (fld x 22 4)) (BitVec.ofNat 4 (fld x 18 4)) (BitVec.ofNat 4 (fld x 14 4)) (BitVec.ofNat 3 (fld x 11 3)) (BitVec.ofNat 8 (fld x 3 8)))
  | _ => none

/-- Major 0x37 (Table 2.4). -/
def dec37 (x : Nat) : Option Instr :=
  match fld x 0 4 with
  | 0 => if fld x 4 7 = 0 ∧ fld x 11 3 = 0 then some (.vins (BitVec.ofNat 4 (fld x 22 4)) (BitVec.ofNat 5 (fld x 17 5)) (BitVec.ofNat 3 (fld x 14 3))) else none
  | 1 => if fld x 4 7 = 0 ∧ fld x 11 3 = 0 then some (.vext (BitVec.ofNat 4 (fld x 22 4)) (BitVec.ofNat 5 (fld x 17 5)) (BitVec.ofNat 3 (fld x 14 3))) else none
  | 2 => if fld x 4 7 = 0 ∧ fld x 11 3 = 0 ∧ fld x 14 3 = 0 then some (.vdup (BitVec.ofNat 4 (fld x 22 4)) (BitVec.ofNat 5 (fld x 17 5))) else none
  | 3 => if fld x 4 7 = 0 ∧ fld x 14 3 = 0 ∧ fld x 22 4 = 0 then some (.qset (BitVec.ofNat 5 (fld x 17 5)) (BitVec.ofNat 3 (fld x 11 3))) else none
  | 4 => if fld x 4 7 = 0 ∧ fld x 14 3 = 0 ∧ fld x 22 4 = 0 then some (.qget (BitVec.ofNat 5 (fld x 17 5)) (BitVec.ofNat 3 (fld x 11 3))) else none
  | _ => none

/-- Major 0x3F (Table 2.4). -/
def dec3F (x : Nat) : Option Instr :=
  match fld x 21 5 with
  | 0 => some (.li (BitVec.ofNat 5 (fld x 16 5)) (BitVec.ofNat 48 (fld x 32 32 * 65536 + fld x 0 16)))
  | 1 => if fld x 0 1 = 0 ∧ fld x 16 5 = 0 ∧ fld x 50 14 = 0 then (Tag.ofCode (fld x 42 4)).bind fun fA => (Tag.ofCode (fld x 46 4)).bind fun fB => some (.mop (BitVec.ofNat 2 (fld x 39 2)) (decide (fld x 41 1 = 1)) fA fB (BitVec.ofNat 5 (fld x 11 5)) (BitVec.ofNat 5 (fld x 6 5)) (BitVec.ofNat 5 (fld x 1 5)) (BitVec.ofNat 7 (fld x 32 7))) else none
  | 2 => match fld x 50 2 with
    | 1 => if fld x 0 1 = 0 ∧ fld x 52 12 = 0 then (Tag.ofCode (fld x 42 4)).bind fun fA => (Tag.ofCode (fld x 46 4)).bind fun fB => some (.mopsZc (BitVec.ofNat 2 (fld x 39 2)) (decide (fld x 41 1 = 1)) fA fB (BitVec.ofNat 5 (fld x 16 5)) (BitVec.ofNat 5 (fld x 11 5)) (BitVec.ofNat 5 (fld x 6 5)) (BitVec.ofNat 5 (fld x 1 5)) (BitVec.ofNat 7 (fld x 32 7))) else none
    | 2 => if fld x 0 1 = 0 ∧ fld x 52 12 = 0 then (Tag.ofCode (fld x 42 4)).bind fun fA => (Tag.ofCode (fld x 46 4)).bind fun fB => some (.mopsS24 (BitVec.ofNat 2 (fld x 39 2)) (decide (fld x 41 1 = 1)) fA fB (BitVec.ofNat 5 (fld x 16 5)) (BitVec.ofNat 5 (fld x 11 5)) (BitVec.ofNat 5 (fld x 6 5)) (BitVec.ofNat 5 (fld x 1 5)) (BitVec.ofNat 7 (fld x 32 7))) else none
    | _ => none
  | 3 => if fld x 0 1 = 0 ∧ fld x 1 5 = 0 ∧ fld x 6 5 = 0 ∧ fld x 11 5 = 0 ∧ fld x 16 5 = 0 ∧ fld x 42 22 = 0 then some (.mzero (BitVec.ofNat 2 (fld x 39 2)) (decide (fld x 41 1 = 1)) (BitVec.ofNat 7 (fld x 32 7))) else none
  | 4 => if fld x 0 1 = 0 ∧ fld x 1 5 = 0 ∧ fld x 6 5 = 0 ∧ fld x 16 5 = 0 ∧ fld x 46 18 = 0 then (Tag.ofCode (fld x 42 4)).bind fun fA => some (.mload (BitVec.ofNat 2 (fld x 39 2)) (decide (fld x 41 1 = 1)) fA (BitVec.ofNat 5 (fld x 11 5)) (BitVec.ofNat 7 (fld x 32 7))) else none
  | 5 => if fld x 0 1 = 0 ∧ fld x 1 5 = 0 ∧ fld x 6 5 = 0 ∧ fld x 16 5 = 0 ∧ fld x 58 6 = 0 then (Tag.ofCode (fld x 42 4)).bind fun fA => (Rm.ofCode (fld x 46 3)).bind fun rm => some (.mdrain (BitVec.ofNat 2 (fld x 39 2)) (decide (fld x 41 1 = 1)) fA rm (decide (fld x 49 1 = 1)) (BitVec.ofNat 8 (fld x 50 8)) (BitVec.ofNat 5 (fld x 11 5)) (BitVec.ofNat 7 (fld x 32 7))) else none
  | 6 => if fld x 0 1 = 0 ∧ fld x 1 5 = 0 ∧ fld x 6 5 = 0 ∧ fld x 16 5 = 0 ∧ fld x 32 7 = 0 ∧ fld x 41 23 = 0 then some (.mseed (BitVec.ofNat 2 (fld x 39 2)) (BitVec.ofNat 5 (fld x 11 5))) else none
  | 8 => if fld x 0 1 = 0 ∧ fld x 1 5 = 0 ∧ fld x 6 5 = 0 ∧ fld x 32 7 = 0 ∧ fld x 39 25 = 0 then some (.tdir (BitVec.ofNat 5 (fld x 16 5)) (BitVec.ofNat 5 (fld x 11 5))) else none
  | 9 => if fld x 0 1 = 0 ∧ fld x 6 5 = 0 ∧ fld x 16 5 = 0 ∧ fld x 39 25 = 0 then some (.tzero (BitVec.ofNat 5 (fld x 11 5)) (BitVec.ofNat 5 (fld x 1 5)) (BitVec.ofNat 7 (fld x 32 7))) else none
  | 10 => if fld x 0 1 = 0 ∧ fld x 16 5 = 0 ∧ fld x 43 21 = 0 then (Tag.ofCode (fld x 39 4)).bind fun f => some (.tfill f (BitVec.ofNat 5 (fld x 11 5)) (BitVec.ofNat 5 (fld x 6 5)) (BitVec.ofNat 5 (fld x 1 5)) (BitVec.ofNat 7 (fld x 32 7))) else none
  | 11 => if fld x 0 1 = 0 ∧ fld x 6 5 = 0 ∧ fld x 16 5 = 0 ∧ fld x 50 14 = 0 then (Tag.ofCode (fld x 39 4)).bind fun f => some (.tident f (BitVec.ofNat 7 (fld x 43 7)) (BitVec.ofNat 5 (fld x 11 5)) (BitVec.ofNat 5 (fld x 1 5)) (BitVec.ofNat 7 (fld x 32 7))) else none
  | 16 => if fld x 0 1 = 0 ∧ fld x 1 5 = 0 ∧ fld x 47 17 = 0 then (Cls.ofCode (fld x 39 2)).bind fun cls => (Tag.ofCode (fld x 41 4)).bind fun f => some (.xcopy ⟨decide (fld x 45 1 = 1), decide (fld x 46 1 = 1)⟩ f cls (BitVec.ofNat 5 (fld x 16 5)) (BitVec.ofNat 5 (fld x 11 5)) (BitVec.ofNat 5 (fld x 6 5)) (BitVec.ofNat 7 (fld x 32 7))) else none
  | 17 => match fld x 45 1 with
    | 0 => if fld x 0 1 = 0 ∧ fld x 41 4 = 0 ∧ fld x 46 18 = 0 then (Cls.ofCode (fld x 39 2)).bind fun cls => some (.xmapLd cls (BitVec.ofNat 5 (fld x 16 5)) (BitVec.ofNat 5 (fld x 11 5)) (BitVec.ofNat 5 (fld x 6 5)) (BitVec.ofNat 5 (fld x 1 5)) (BitVec.ofNat 7 (fld x 32 7))) else none
    | 1 => if fld x 0 1 = 0 ∧ fld x 41 4 = 0 ∧ fld x 46 18 = 0 then (Cls.ofCode (fld x 39 2)).bind fun cls => some (.xmapSt cls (BitVec.ofNat 5 (fld x 16 5)) (BitVec.ofNat 5 (fld x 11 5)) (BitVec.ofNat 5 (fld x 6 5)) (BitVec.ofNat 5 (fld x 1 5)) (BitVec.ofNat 7 (fld x 32 7))) else none
    | _ => none
  | 18 => if fld x 0 1 = 0 ∧ fld x 41 4 = 0 ∧ fld x 46 18 = 0 then (Cls.ofCode (fld x 39 2)).bind fun cls => some (.xgather (decide (fld x 45 1 = 1)) cls (BitVec.ofNat 5 (fld x 16 5)) (BitVec.ofNat 5 (fld x 11 5)) (BitVec.ofNat 5 (fld x 6 5)) (BitVec.ofNat 5 (fld x 1 5)) (BitVec.ofNat 7 (fld x 32 7))) else none
  | 19 => if fld x 0 1 = 0 ∧ fld x 47 17 = 0 then (Cls.ofCode (fld x 39 2)).bind fun cls => (Tag.ofCode (fld x 41 4)).bind fun f => some (.xscatter (decide (fld x 45 1 = 1)) (decide (fld x 46 1 = 1)) f cls (BitVec.ofNat 5 (fld x 16 5)) (BitVec.ofNat 5 (fld x 11 5)) (BitVec.ofNat 5 (fld x 6 5)) (BitVec.ofNat 5 (fld x 1 5)) (BitVec.ofNat 7 (fld x 32 7))) else none
  | 20 => if fld x 0 1 = 0 ∧ fld x 1 5 = 0 ∧ fld x 45 1 = 0 ∧ fld x 47 17 = 0 then (Cls.ofCode (fld x 39 2)).bind fun cls => (Tag.ofCode (fld x 41 4)).bind fun f => some (.xpack (decide (fld x 46 1 = 1)) f cls (BitVec.ofNat 5 (fld x 16 5)) (BitVec.ofNat 5 (fld x 11 5)) (BitVec.ofNat 5 (fld x 6 5)) (BitVec.ofNat 7 (fld x 32 7))) else none
  | 21 => if fld x 0 1 = 0 ∧ fld x 1 5 = 0 ∧ fld x 46 18 = 0 then (Cls.ofCode (fld x 39 2)).bind fun cls => (Tag.ofCode (fld x 41 4)).bind fun f => some (.xunpack (decide (fld x 45 1 = 1)) f cls (BitVec.ofNat 5 (fld x 16 5)) (BitVec.ofNat 5 (fld x 11 5)) (BitVec.ofNat 5 (fld x 6 5)) (BitVec.ofNat 7 (fld x 32 7))) else none
  | 22 => if fld x 0 1 = 0 ∧ fld x 45 19 = 0 then (Cls.ofCode (fld x 39 2)).bind fun cls => (Tag.ofCode (fld x 41 4)).bind fun f => some (.xembed f cls (BitVec.ofNat 5 (fld x 16 5)) (BitVec.ofNat 5 (fld x 11 5)) (BitVec.ofNat 5 (fld x 6 5)) (BitVec.ofNat 5 (fld x 1 5)) (BitVec.ofNat 7 (fld x 32 7))) else none
  | 23 => if fld x 0 1 = 0 ∧ fld x 41 4 = 0 ∧ fld x 47 17 = 0 then (Cls.ofCode (fld x 39 2)).bind fun cls => some (.xstream (decide (fld x 45 1 = 1)) (decide (fld x 46 1 = 1)) cls (BitVec.ofNat 5 (fld x 16 5)) (BitVec.ofNat 5 (fld x 11 5)) (BitVec.ofNat 5 (fld x 6 5)) (BitVec.ofNat 5 (fld x 1 5)) (BitVec.ofNat 7 (fld x 32 7))) else none
  | 24 => if fld x 0 1 = 0 ∧ fld x 16 5 = 0 ∧ fld x 32 7 = 0 ∧ fld x 39 25 = 0 then some (.rngw (BitVec.ofNat 5 (fld x 11 5)) (BitVec.ofNat 5 (fld x 6 5)) (BitVec.ofNat 5 (fld x 1 5))) else none
  | 25 => if fld x 0 1 = 0 ∧ fld x 1 5 = 0 ∧ fld x 6 5 = 0 ∧ fld x 32 7 = 0 ∧ fld x 40 24 = 0 then some (.rngr (BitVec.ofNat 5 (fld x 16 5)) (BitVec.ofNat 5 (fld x 11 5)) (decide (fld x 39 1 = 1))) else none
  | 26 => if fld x 0 1 = 0 ∧ fld x 1 5 = 0 ∧ fld x 6 5 = 0 ∧ fld x 16 5 = 0 ∧ fld x 32 7 = 0 ∧ fld x 39 25 = 0 then some (.rngclr (BitVec.ofNat 5 (fld x 11 5))) else none
  | 27 => if fld x 0 1 = 0 ∧ fld x 1 5 = 0 ∧ fld x 16 5 = 0 ∧ fld x 32 7 = 0 ∧ fld x 39 25 = 0 then some (.pgw (BitVec.ofNat 5 (fld x 11 5)) (BitVec.ofNat 5 (fld x 6 5))) else none
  | 28 => if fld x 0 1 = 0 ∧ fld x 1 5 = 0 ∧ fld x 6 5 = 0 ∧ fld x 32 7 = 0 ∧ fld x 39 25 = 0 then some (.pgr (BitVec.ofNat 5 (fld x 16 5)) (BitVec.ofNat 5 (fld x 11 5))) else none
  | 29 => if fld x 0 1 = 0 ∧ fld x 1 5 = 0 ∧ fld x 6 5 = 0 ∧ fld x 16 5 = 0 ∧ fld x 32 7 = 0 ∧ fld x 39 25 = 0 then some (.pginv (BitVec.ofNat 5 (fld x 11 5))) else none
  | _ => none

/-- The instruction of an encoding, before the checks of `Instr.wf`: by major opcode (Table 2.4). -/
def decRaw (x : Nat) : Option Instr :=
  match fld x 26 6 with
  | 0 => dec00 x
  | 1 => dec01 x
  | 2 => dec02 x
  | 3 => dec03 x
  | 4 => dec04 x
  | 5 => dec05 x
  | 6 => dec06 x
  | 7 => dec07 x
  | 8 => dec08 x
  | 9 => dec09 x
  | 10 => dec0A x
  | 11 => dec0B x
  | 12 => dec0C x
  | 13 => dec0D x
  | 16 => dec10 x
  | 17 => dec11 x
  | 18 => dec12 x
  | 19 => dec13 x
  | 20 => dec14 x
  | 21 => dec15 x
  | 22 => dec16 x
  | 24 => dec18 x
  | 25 => dec19 x
  | 26 => dec1A x
  | 27 => dec1B x
  | 32 => dec20 x
  | 33 => dec21 x
  | 34 => dec22 x
  | 35 => dec23 x
  | 36 => dec24 x
  | 37 => dec25 x
  | 38 => dec26 x
  | 39 => dec27 x
  | 40 => dec28 x
  | 41 => dec29 x
  | 42 => dec2A x
  | 43 => dec2B x
  | 48 => dec30 x
  | 49 => dec31 x
  | 50 => dec32 x
  | 51 => dec33 x
  | 52 => dec34 x
  | 53 => dec35 x
  | 54 => dec36 x
  | 55 => dec37 x
  | 63 => dec3F x
  | _ => none
/-- Why bits are no instruction (R70). -/
inductive DecodeError where
  /-- An unassigned major, a reserved sub-code or lop, or a nonzero unused field. Safe: the word traps. -/
  | reserved
  /-- A field range or a port rule broken (R48, R54 to R68). Safe: the word traps. -/
  | fieldRange
  deriving DecidableEq, Repr

/-- Decoding, total on any bits: an instruction that the encoding admits, or the reason it is none (R70). -/
def decode (x : Nat) : Except DecodeError Instr :=
  match decRaw x with
  | none => .error .reserved
  | some i => if i.wf then .ok i else .error .fieldRange

/-- Whether the word at the PC begins a long form: only its major opcode decides (R44). -/
def isLongWord (w : Nat) : Bool := decide (fld w 26 6 = 0x3F)

/-- Bytes of the instruction whose first word is w (R43). -/
def lengthOf (w : Nat) : Nat := if isLongWord w then 8 else 4

/-- Decoding from the 32-bit words as they stand in memory: the first word decides the length (R44). -/
def decodeWords (w0 w1 : Nat) : Except DecodeError Instr :=
  if isLongWord w0 then decode (w0 % 2 ^ 32 + 2 ^ 32 * (w1 % 2 ^ 32)) else decode (w0 % 2 ^ 32)

/-- The bits of an instruction; steps of units have none. -/
def encode (i : Instr) : Option Nat := i.fields.map pack

/-- The 32-bit words of an instruction, the first at the lower address (R43). -/
def encodeWords (i : Instr) : Option (List Nat) :=
  (encode i).map fun x => if isLongWord x then [x % 2 ^ 32, x / 2 ^ 32] else [x]

/-- The instruction the decoder reads from bits numbered as the opcode table numbers them; bits above
`nbits` are zero. -/
def decodeTableWord (nbits w : Nat) : Option Instr :=
  let x := w % 2 ^ nbits
  match decodeWords (x % 2 ^ 32) (x / 2 ^ 32) with
  | .ok i => some i
  | .error _ => none

end Sys2Proof
end

