-- ==== Sys2Proof/Machine/Bits.lean ====
section
/-! DEFINITION. Bit fields, byte order and elements: the helpers every meaning is written over. -/

namespace Sys2Proof.Machine

/-- Sign extension of an immediate or a loaded value to 64 bits. -/
def sextW {w : Nat} (x : BitVec w) : Word := x.signExtend 64
/-- Zero extension to 64 bits. -/
def zextW {w : Nat} (x : BitVec w) : Word := x.setWidth 64

/-- The value of a w-bit pattern read as two's complement. -/
def toSigned (w n : Nat) : Int := if n < 2 ^ (w - 1) then (n : Int) else (n : Int) - (2 ^ w : Nat)

/-- An integer modulo 2^w, as the pattern that holds it (R18). -/
def wrap (w : Nat) (z : Int) : Nat := (z % ((2 ^ w : Nat) : Int)).toNat

/-- Element n of width w of a packed value (R24). -/
def elemOf (w n x : Nat) : Nat := (x >>> (w * n)) % 2 ^ w

/-- The packed value whose elements, from element 0 up, are the list (R24). -/
def packElems (w : Nat) : List Nat → Nat
  | [] => 0
  | e :: es => e % 2 ^ w + 2 ^ w * packElems w es

/-- All the elements of width w of a value of `total` bits (R24, R261). -/
def elemsOf (w total x : Nat) : List Nat := (List.range (total / w)).map fun n => elemOf w n x

/-- The little-endian value of bytes (R11). -/
def leVal : List Byte → Nat
  | [] => 0
  | b :: bs => b.toNat + 256 * leVal bs

/-- The n little-endian bytes of a value (R11). -/
def leBytes : Nat → Nat → List Byte
  | 0, _ => []
  | n + 1, x => BitVec.ofNat 8 (x % 256) :: leBytes n (x / 256)

/-- The number whose fields, from bit 0 up, are the list: each a value and its width. -/
def layOut : List (Nat × Nat) → Nat
  | [] => 0
  | (v, w) :: r => v % 2 ^ w + 2 ^ w * layOut r

/-- Bits [lo + w - 1 : lo] of a number. -/
def field (x lo w : Nat) : Nat := (x >>> lo) % 2 ^ w

/-- The one byte of a mask bit: nibble i of a 64-bit word. -/
def nibble (x : Word) (i : Nat) : BitVec 4 := x.extractLsb' (4 * i) 4

/-- The bits of a word that a 16-bit nibble mask enables (R109, R345). -/
def maskBits (m : BitVec 16) : Word :=
  BitVec.ofNat 64 (packElems 4 ((List.range 16).map fun i => if m.getLsbD i then 15 else 0))

/-- Merging: the nibbles of the mask come from the new word (R345). -/
def mergeWord (m : BitVec 16) (old new : Word) : Word :=
  (old &&& ~~~ maskBits m) ||| (new &&& maskBits m)

/-- The nibble mask of n bytes from byte o of an 8-byte word. -/
def byteMask (o n : Nat) : BitVec 16 := BitVec.ofNat 16 ((2 ^ (2 * n) - 1) <<< (2 * o))

/-- The nibble mask of n nibbles from nibble p of an 8-byte word (R254). -/
def nibMask (p n : Nat) : BitVec 16 := BitVec.ofNat 16 ((2 ^ n - 1) <<< p)

/-- Lane i of a vector register (R217). -/
def lane (v : Vec) (i : Nat) : Word := v.extractLsb' (64 * i) 64

/-- The vector register with the given lanes, from lane 0 up. -/
def ofLanes (ls : List Word) : Vec := BitVec.ofNat 512 (packElems 64 (ls.map BitVec.toNat))

/-- The vector with lane i replaced where the predicate bit of the lane is 1 (R262). -/
def mergeLanes (q : BitVec 8) (old new : Vec) : Vec :=
  ofLanes ((List.range 8).map fun i => if q.getLsbD i then lane new i else lane old i)

/-- The bit with index k of a function table, looked up for every bit of three operands (R239, R273). -/
def bool3 {w : Nat} (tab : BitVec 8) (d a b : BitVec w) : BitVec w :=
  let t (k : Nat) : BitVec w := if tab.getLsbD k then BitVec.allOnes w else 0
  (t 0 &&& ~~~ d &&& ~~~ a &&& ~~~ b) ||| (t 1 &&& d &&& ~~~ a &&& ~~~ b)
    ||| (t 2 &&& ~~~ d &&& a &&& ~~~ b) ||| (t 3 &&& d &&& a &&& ~~~ b)
    ||| (t 4 &&& ~~~ d &&& ~~~ a &&& b) ||| (t 5 &&& d &&& ~~~ a &&& b)
    ||| (t 6 &&& ~~~ d &&& a &&& b) ||| (t 7 &&& d &&& a &&& b)

/-- Number of 1 bits among the low n bits. -/
def popc : Nat → Nat → Nat
  | 0, _ => 0
  | n + 1, x => x % 2 + popc n (x / 2)

/-- Trailing zero bits among the low n bits; n when all are zero. -/
def ctz : Nat → Nat → Nat
  | 0, _ => 0
  | n + 1, x => if x % 2 = 1 then 0 else 1 + ctz n (x / 2)

/-- Leading zero bits of an n-bit number; n when it is zero. -/
def clz : Nat → Nat → Nat
  | 0, _ => 0
  | n + 1, x => if x / 2 ^ n % 2 = 1 then 0 else 1 + clz n x

/-- Byte j moved to byte 7 - j (Table 9.1). -/
def bswap (x : Word) : Word := BitVec.ofNat 64 (leVal (leBytes 8 x.toNat).reverse)

/-- Bytes accessed by a size field (R56). -/
def MSize.bytes : MSize → Nat
  | .b => 1 | .h => 2 | .w => 4 | .d => 8

/-- A list index that may lie outside the list. -/
def at? {α : Type} (xs : List α) (n : Nat) : Option α := xs[n]?

/-- The list with the element at position n replaced. -/
def putAt {α : Type} (xs : List α) (n : Nat) (x : α) : List α := xs.set n x

/-- The list without the element at position n. -/
def dropAt {α : Type} (xs : List α) (n : Nat) : List α := xs.eraseIdx n

end Sys2Proof.Machine
end

