-- ==== Sys2Proof/Machine/Float.lean ====
section
/-! DEFINITION. Number formats and arithmetic (R17 to R42): exact values, one rounding, flags. -/

namespace Sys2Proof.Machine

/-- The floating-point formats of Table 1.3 that carry a sign (E8M0 scales are read by `e8m0Exp`). -/
inductive FF where
  | fp32 | f16 | bf16 | e4m3 | e5m2 | e2m1
  deriving DecidableEq, Repr

/-- Exponent bits (Table 1.3). -/
def FF.ebits : FF → Nat
  | .fp32 => 8 | .f16 => 5 | .bf16 => 8 | .e4m3 => 4 | .e5m2 => 5 | .e2m1 => 2
/-- Mantissa bits (Table 1.3). -/
def FF.mbits : FF → Nat
  | .fp32 => 23 | .f16 => 10 | .bf16 => 7 | .e4m3 => 3 | .e5m2 => 2 | .e2m1 => 1
/-- Width (Table 1.3). -/
def FF.width (f : FF) : Nat := 1 + f.ebits + f.mbits
/-- Bias (Table 1.3). -/
def FF.bias (f : FF) : Int := (2 ^ (f.ebits - 1) : Nat) - 1
/-- Formats with infinities: all ones exponent is no number (Table 1.3). -/
def FF.ieee : FF → Bool
  | .fp32 | .f16 | .bf16 | .e5m2 => true
  | .e4m3 | .e2m1 => false
/-- Magnitude pattern of the largest finite value (Table 1.3). -/
def FF.maxPat (f : FF) : Nat :=
  match f with
  | .e4m3 => 0x7E
  | .e2m1 => 0x7
  | f => (2 ^ f.ebits - 1) * 2 ^ f.mbits - 1
/-- Canonical quiet NaN (Table 1.4); E2M1 has none, and its conversions give 0x0 (R36). -/
def FF.nan : FF → Nat
  | .fp32 => 0x7FC00000 | .f16 => 0x7E00 | .bf16 => 0x7FC0 | .e4m3 => 0x7F | .e5m2 => 0x7E | .e2m1 => 0
/-- The pattern of infinity without sign, for formats that have one. -/
def FF.infPat (f : FF) : Nat := (2 ^ f.ebits - 1) * 2 ^ f.mbits
/-- The sign bit of a pattern as a number. -/
def FF.sgn (f : FF) (neg : Bool) : Nat := if neg then 2 ^ (f.width - 1) else 0

/-- The sticky flags of FFLAGS (Table 1.9). -/
abbrev Flags := BitVec 6
def fNX : Flags := 1
def fUF : Flags := 2
def fOF : Flags := 4
def fDZ : Flags := 8
def fNV : Flags := 16
def fSAT : Flags := 32

/-- What a pattern stands for: a NaN, an infinity, or the exact value ± m·2^e (R20, R21). -/
inductive FVal where
  | nan (signalling : Bool)
  | inf (neg : Bool)
  | fin (neg : Bool) (m : Nat) (e : Int)
  deriving DecidableEq, Repr

/-- Reading a pattern (R20, R21). -/
def FF.read (f : FF) (p : Nat) : FVal :=
  let neg := decide (p / 2 ^ (f.width - 1) % 2 = 1)
  let ex := p / 2 ^ f.mbits % 2 ^ f.ebits
  let mant := p % 2 ^ f.mbits
  let emin : Int := 1 - f.bias - f.mbits
  if f.ieee ∧ ex = 2 ^ f.ebits - 1 then
    if mant = 0 then .inf neg else .nan (decide (mant / 2 ^ (f.mbits - 1) = 0))
  else if f = .e4m3 ∧ ex = 15 ∧ mant = 7 then .nan false
  else if ex = 0 then .fin neg mant emin
  else .fin neg (2 ^ f.mbits + mant) (emin + ((ex : Int) - 1))

def FVal.isNan : FVal → Bool
  | .nan _ => true
  | _ => false
def FVal.isSig : FVal → Bool
  | .nan s => s
  | _ => false

/-- A rounding mode with what SR consumes (Table 1.5, R30). -/
inductive RMode where
  | rne | rz | rup | rdn
  | sr (g : Nat)
  deriving DecidableEq, Repr

/-- A magnitude (m·2^e, plus something below one unit of m when `st`) rounded to a multiple of 2^q:
the multiple, and whether it is inexact (R26, R30). -/
def roundMag (mode : RMode) (neg : Bool) (m : Nat) (e : Int) (st : Bool) (q : Int) : Nat × Bool :=
  if e ≥ q then
    let n := m * 2 ^ (e - q).toNat
    match mode with
    | .rup => (if st && !neg then n + 1 else n, st)
    | .rdn => (if st && neg then n + 1 else n, st)
    | _ => (n, st)
  else
    let sh := (q - e).toNat
    let n := m / 2 ^ sh
    let r := m % 2 ^ sh
    let half := 2 ^ (sh - 1)
    let inexact := decide (r ≠ 0) || st
    let up := match mode with
      | .rne => decide (r > half) || (decide (r = half) && (st || decide (n % 2 = 1)))
      | .rz => false
      | .rup => inexact && !neg
      | .rdn => inexact && neg
      | .sr g => decide (g + r * 2 ^ 16 / 2 ^ sh ≥ 2 ^ 16)
    (if up then n + 1 else n, inexact)

/-- The result of an overflow (Table 1.8); `ns` names the non-saturating E4M3 variant. -/
def FF.overflow (f : FF) (ns : Bool) (mode : RMode) (neg : Bool) : Nat :=
  let away := match mode with
    | .rne | .sr _ => true
    | .rz => false
    | .rup => !neg
    | .rdn => neg
  match f with
  | .e2m1 => f.sgn neg + f.maxPat
  | .e4m3 => if ns && away then f.nan else f.sgn neg + f.maxPat
  | f => f.sgn neg + (if away then f.infPat else f.maxPat)

/-- One rounding of an exact value to a format: RND(fmt, mode) (R26, R29 to R32). Tininess is found after
rounding with the format's precision and an unbounded exponent (R26, R32; log 7); under SR the rounding is that of R30,
with the subnormal spacing. -/
def FF.round (f : FF) (ns : Bool) (mode : RMode) (neg : Bool) (m : Nat) (e : Int) (st : Bool) : Nat × Flags :=
  if m = 0 ∧ st = false then (f.sgn neg, 0) else
  let top : Int := e + (Nat.log2 m : Int)
  let qu : Int := top - f.mbits
  let qs : Int := 1 - f.bias - f.mbits
  let q := if qu ≥ qs then qu else qs
  let (n, inexact) := roundMag mode neg m e st q
  let tiny := match mode with
    | .sr _ => decide (qu < qs ∧ n < 2 ^ f.mbits)
    | _ => decide (qu < qs ∧ (roundMag mode neg m e st qu).1 < 2 ^ (1 - f.bias - qu).toNat)
  let pat := (q - qs).toNat * 2 ^ f.mbits + n
  if pat > f.maxPat then (f.overflow ns mode neg, fOF ||| fNX)
  else (f.sgn neg + pat, if inexact then (if tiny then fNX ||| fUF else fNX) else 0)

/-- A signed dyadic z·2^e. -/
abbrev Dy := Int × Int

def dyOf (neg : Bool) (m : Nat) (e : Int) : Dy := (if neg then -(m : Int) else m, e)

/-- The exact sum of two dyadics. -/
def dyAdd (x y : Dy) : Dy :=
  if x.2 ≤ y.2 then (x.1 + y.1 * (2 ^ (y.2 - x.2).toNat : Nat), x.2)
  else (x.1 * (2 ^ (x.2 - y.2).toNat : Nat) + y.1, y.2)

/-- The exact product of two dyadics. -/
def dyMul (x y : Dy) : Dy := (x.1 * y.1, x.2 + y.2)

/-- Sign of an exact zero sum (R29): kept when both parts are zeros of one sign. -/
def zeroSign (mode : RMode) (aNeg bNeg bothZero : Bool) : Bool :=
  if bothZero && aNeg == bNeg then aNeg else decide (mode = .rdn)

/-- One rounding of an exact dyadic; `zneg` is the sign of a zero result. -/
def FF.roundDy (f : FF) (mode : RMode) (zneg : Bool) (d : Dy) : Nat × Flags :=
  if d.1 = 0 then (f.sgn zneg, 0) else f.round false mode (decide (d.1 < 0)) d.1.natAbs d.2 false

/-- Sum of two patterns, rounded once (R29, R34). -/
def FF.add (f : FF) (mode : RMode) (a b : Nat) : Nat × Flags :=
  let x := f.read a
  let y := f.read b
  let sig : Flags := if x.isSig || y.isSig then fNV else 0
  match x, y with
  | .nan _, _ | _, .nan _ => (f.nan, sig)
  | .inf n, .inf n' => if n = n' then (f.sgn n + f.infPat, 0) else (f.nan, fNV)
  | .inf n, .fin .. => (f.sgn n + f.infPat, 0)
  | .fin .., .inf n => (f.sgn n + f.infPat, 0)
  | .fin n m e, .fin n' m' e' =>
    f.roundDy mode (zeroSign mode n n' (decide (m = 0 ∧ m' = 0))) (dyAdd (dyOf n m e) (dyOf n' m' e'))

/-- The pattern with its sign bit inverted (R22). -/
def FF.neg (f : FF) (a : Nat) : Nat :=
  if a / 2 ^ (f.width - 1) % 2 = 1 then a - 2 ^ (f.width - 1) else a + 2 ^ (f.width - 1)
/-- The pattern with its sign bit cleared (R22). -/
def FF.abs (f : FF) (a : Nat) : Nat := a % 2 ^ (f.width - 1)
/-- The pattern of a with the sign bit of b (R265). -/
def FF.csgn (f : FF) (a b : Nat) : Nat := f.abs a + f.sgn (decide (b / 2 ^ (f.width - 1) % 2 = 1))

/-- Difference, rounded once: the sum with the sign of b inverted. -/
def FF.sub (f : FF) (mode : RMode) (a b : Nat) : Nat × Flags := f.add mode a (f.neg b)

/-- Product, rounded once (R29, R34). -/
def FF.mul (f : FF) (mode : RMode) (a b : Nat) : Nat × Flags :=
  let x := f.read a
  let y := f.read b
  let sig : Flags := if x.isSig || y.isSig then fNV else 0
  match x, y with
  | .nan _, _ | _, .nan _ => (f.nan, sig)
  | .inf n, .inf n' => (f.sgn (n != n') + f.infPat, 0)
  | .inf n, .fin n' m' _ => if m' = 0 then (f.nan, fNV) else (f.sgn (n != n') + f.infPat, 0)
  | .fin n m _, .inf n' => if m = 0 then (f.nan, fNV) else (f.sgn (n != n') + f.infPat, 0)
  | .fin n m e, .fin n' m' e' => f.round false mode (n != n') (m * m') (e + e') false

/-- a·b + c, rounded once (R29). -/
def FF.fma (f : FF) (mode : RMode) (a b c : Nat) : Nat × Flags :=
  let x := f.read a
  let y := f.read b
  let z := f.read c
  let invalid := match x, y with
    | .inf _, .fin _ m _ => decide (m = 0)
    | .fin _ m _, .inf _ => decide (m = 0)
    | _, _ => false
  let sig : Flags := if x.isSig || y.isSig || z.isSig || invalid then fNV else 0
  if x.isNan || y.isNan || z.isNan || invalid then (f.nan, sig) else
  let pInf := match x, y with
    | .inf n, .inf n' | .inf n, .fin n' _ _ | .fin n _ _, .inf n' => some (n != n')
    | _, _ => none
  match pInf, z with
  | some n, .inf n' => if n = n' then (f.sgn n + f.infPat, 0) else (f.nan, fNV)
  | some n, _ => (f.sgn n + f.infPat, 0)
  | none, .inf n => (f.sgn n + f.infPat, 0)
  | none, z =>
    match x, y, z with
    | .fin n m e, .fin n' m' e', .fin n2 m2 e2 =>
      f.roundDy mode (zeroSign mode (n != n') n2 (decide (m * m' = 0 ∧ m2 = 0)))
        (dyAdd (dyOf (n != n') (m * m') (e + e')) (dyOf n2 m2 e2))
    | _, _, _ => (f.nan, 0)

/-- a/b, correctly rounded (R38, Table 1.12). -/
def FF.div (f : FF) (mode : RMode) (a b : Nat) : Nat × Flags :=
  let x := f.read a
  let y := f.read b
  let sig : Flags := if x.isSig || y.isSig then fNV else 0
  match x, y with
  | .nan _, _ | _, .nan _ => (f.nan, sig)
  | .inf _, .inf _ => (f.nan, fNV)
  | .inf n, .fin n' _ _ => (f.sgn (n != n') + f.infPat, 0)
  | .fin n _ _, .inf n' => (f.sgn (n != n'), 0)
  | .fin n m e, .fin n' m' e' =>
    if m' = 0 then
      if m = 0 then (f.nan, fNV) else (f.sgn (n != n') + f.infPat, fDZ)
    else if m = 0 then (f.sgn (n != n'), 0)
    else
      let num := m * 2 ^ 64
      f.round false mode (n != n') (num / m') (e - e' - 64) (decide (num % m' ≠ 0))

/-- The integer square root, bit by bit from bit i - 1 down. -/
def isqrtFrom : Nat → Nat → Nat → Nat
  | 0, _, r => r
  | i + 1, n, r => isqrtFrom i n (if (r + 2 ^ i) * (r + 2 ^ i) ≤ n then r + 2 ^ i else r)

/-- The largest r with r·r ≤ n, for n below 2^200. -/
def isqrt (n : Nat) : Nat := isqrtFrom 100 n 0

/-- √a, correctly rounded (R38, Table 1.12). -/
def FF.sqrt (f : FF) (mode : RMode) (a : Nat) : Nat × Flags :=
  match f.read a with
  | .nan s => (f.nan, if s then fNV else 0)
  | .inf neg => if neg then (f.nan, fNV) else (f.infPat, 0)
  | .fin neg m e =>
    if m = 0 then (f.sgn neg, 0)
    else if neg then (f.nan, fNV)
    else
      let odd := decide (e % 2 ≠ 0)
      let m1 := if odd then 2 * m else m
      let e1 := if odd then e - 1 else e
      let n := m1 * 2 ^ 80
      let r := isqrt n
      f.round false mode false r (e1 / 2 - 40) (decide (r * r ≠ n))

/-- 1/√a, correctly rounded (R38, Table 1.12). -/
def FF.rsq (f : FF) (mode : RMode) (a : Nat) : Nat × Flags :=
  match f.read a with
  | .nan s => (f.nan, if s then fNV else 0)
  | .inf neg => if neg then (f.nan, fNV) else (0, 0)
  | .fin neg m e =>
    if m = 0 then (f.sgn neg + f.infPat, fDZ)
    else if neg then (f.nan, fNV)
    else
      let odd := decide (e % 2 ≠ 0)
      let m1 := if odd then 2 * m else m
      let e1 := if odd then e - 1 else e
      let n := 2 ^ 160
      let r := isqrt (n / m1)
      f.round false mode false r (-80 - e1 / 2) (decide (r * r * m1 ≠ n))

/-- The pattern of 1.0. -/
def FF.one (f : FF) : Nat := (2 ^ (f.ebits - 1) - 1) * 2 ^ f.mbits

/-- 1/a (R38). -/
def FF.rcp (f : FF) (mode : RMode) (a : Nat) : Nat × Flags := f.div mode f.one a

/-- A pattern as a number in the order of R37, where −0 lies below +0. -/
def FF.key (f : FF) (a : Nat) : Int :=
  if a / 2 ^ (f.width - 1) % 2 = 1 then -((f.abs a : Nat) : Int) - 1 else (f.abs a : Nat)

/-- minimum and maximum of R37 (Table 1.11); `num` selects minimumNumber and maximumNumber. -/
def FF.minmax (f : FF) (isMax num : Bool) (a b : Nat) : Nat × Flags :=
  let x := f.read a
  let y := f.read b
  let sig : Flags := if x.isSig || y.isSig then fNV else 0
  if x.isNan && y.isNan then (f.nan, sig)
  else if x.isNan then (if num then b else f.nan, sig)
  else if y.isNan then (if num then a else f.nan, sig)
  else if isMax then (if f.key a < f.key b then b else a, 0)
  else (if f.key b < f.key a then b else a, 0)

/-- Numeric comparison of two patterns that are no NaN: −0 equals +0 (R266). -/
def FF.lt (f : FF) (a b : Nat) : Bool :=
  let k (p : Nat) : Int := if p / 2 ^ (f.width - 1) % 2 = 1 then -((f.abs p : Nat) : Int) else (f.abs p : Nat)
  decide (k a < k b)
def FF.eqv (f : FF) (a b : Nat) : Bool := !f.lt a b && !f.lt b a

/-- An integer format: signedness and width (Table 1.1). -/
structure IFmt where
  signed : Bool
  w : Nat
  deriving DecidableEq, Repr

def IFmt.min (i : IFmt) : Int := if i.signed then -((2 ^ (i.w - 1) : Nat) : Int) else 0
def IFmt.max (i : IFmt) : Int := if i.signed then ((2 ^ (i.w - 1) : Nat) : Int) - 1 else ((2 ^ i.w : Nat) : Int) - 1
/-- The value of an element (R17). -/
def IFmt.val (i : IFmt) (n : Nat) : Int := if i.signed then toSigned i.w n else (n : Int)
/-- Clamping to the range, with SAT when it clamps (R18). -/
def IFmt.clamp (i : IFmt) (z : Int) : Nat × Flags :=
  if z < i.min then (wrap i.w i.min, fSAT)
  else if z > i.max then (wrap i.w i.max, fSAT)
  else (wrap i.w z, 0)

/-- A floating value converted to an integer format (Table 1.10). -/
def toIntFmt (mode : RMode) (i : IFmt) (v : FVal) : Nat × Flags :=
  match v with
  | .nan _ => (0, fNV)
  | .inf neg => (wrap i.w (if neg then i.min else i.max), fNV)
  | .fin neg m e =>
    let (n, inexact) := roundMag mode neg m e false 0
    let z : Int := if neg then -(n : Int) else n
    if z < i.min then (wrap i.w i.min, fNV)
    else if z > i.max then (wrap i.w i.max, fNV)
    else (wrap i.w z, if inexact then fNX else 0)

/-- A floating value converted to a floating format (Table 1.10), the same-format row apart. -/
def toFF (ns : Bool) (mode : RMode) (f : FF) (v : FVal) : Nat × Flags :=
  match v with
  | .nan s =>
    match f with
    | .e2m1 => (0, fNV)
    | f => (f.nan, if s then fNV else 0)
  | .inf neg =>
    match f with
    | .e4m3 => (if ns then f.nan else f.sgn neg + f.maxPat, fNV)
    | .e2m1 => (f.sgn neg + f.maxPat, fNV)
    | f => (f.sgn neg + f.infPat, 0)
  | .fin neg m e => f.round ns mode neg m e false

/-- A format of a conversion: an integer or a floating format. -/
inductive CFmt where
  | int (i : IFmt)
  | flt (f : FF)
  deriving DecidableEq, Repr

def CFmt.width : CFmt → Nat
  | .int i => i.w
  | .flt f => f.width

/-- The formats of the vector type codes (Table 2.11). -/
def vtyFmt : VTy → CFmt
  | .i8 => .int ⟨true, 8⟩ | .i16 => .int ⟨true, 16⟩ | .i32 => .int ⟨true, 32⟩ | .i64 => .int ⟨true, 64⟩
  | .n8 => .int ⟨false, 8⟩ | .n16 => .int ⟨false, 16⟩ | .n32 => .int ⟨false, 32⟩ | .n64 => .int ⟨false, 64⟩
  | .bf16 => .flt .bf16 | .f16 => .flt .f16 | .f32 => .flt .fp32
  | .e4m3 => .flt .e4m3 | .e5m2 => .flt .e5m2 | .e2m1 => .flt .e2m1

/-- Element width of a vector type. -/
def VTy.width (t : VTy) : Nat := (vtyFmt t).width
/-- The integer format of a vector type; floating types do not meet it (64 signed). -/
def VTy.ifmt (t : VTy) : IFmt :=
  match vtyFmt t with
  | .int i => i
  | .flt _ => ⟨true, 64⟩
/-- The format of a rounding type. -/
def FFmt.ff : FFmt → FF
  | .f32 => .fp32 | .bf16 => .bf16 | .f16 => .f16

/-- One element converted from a format to another: Table 1.10, its rows in order (R36). -/
def convert (src dst : CFmt) (ns : Bool) (mode : RMode) (x : Nat) : Nat × Flags :=
  match src, dst with
  | .flt f, .flt g =>
    if f = g ∧ (f.read x).isNan = false then (x, 0) else toFF ns mode g (f.read x)
  | .flt f, .int i => toIntFmt mode i (f.read x)
  | .int i, .flt g =>
    let z := i.val x
    g.round ns mode (decide (z < 0)) z.natAbs 0 false
  | .int i, .int j =>
    if i = j then (x, 0) else j.clamp (i.val x)

/-- The FP32 pattern of a value widened exactly; a NaN gives the canonical NaN (R36). -/
def widen (f : FF) (x : Nat) : Nat := (toFF false .rne .fp32 (f.read x)).1

/-- FMA_RNE of R39 on FP32 patterns. -/
def fmaRne (a b c : Nat) : Nat := (FF.fma .fp32 .rne a b c).1

/-- Horner evaluation with FMA_RNE: ((p·x + c)·x + …). -/
def horner (x : Nat) : Nat → List Nat → Nat
  | p, [] => p
  | p, c :: cs => horner x (fmaRne p x c) cs

/-- The FP32 pattern of a small integer. -/
def intF32 (z : Int) : Nat := (FF.round .fp32 false .rne (decide (z < 0)) z.natAbs 0 false).1

/-- EXP2 (R39, Table 1.13). -/
def exp2 (x : Nat) : Nat × Flags :=
  match FF.read .fp32 x with
  | .nan s => (0x7FC00000, if s then fNV else 0)
  | .inf neg => (if neg then 0 else 0x7F800000, 0)
  | .fin neg m e =>
    if FF.lt .fp32 x 0x43000000 = false then (0x7F800000, fOF ||| fNX)
    else if FF.lt .fp32 0xC3200000 x = false then (0, fUF ||| fNX)
    else
      let (k, _) := roundMag .rne neg m e false 0
      let n : Int := if neg then -(k : Int) else k
      let f := (FF.sub .fp32 .rne x (intF32 n)).1
      let p := horner f 0x3AAEC3FF [0x3C1D955B, 0x3D635847, 0x3E75FDF0, 0x3F317218, 0x3F800000]
      match FF.read .fp32 p with
      | .fin pn pm pe =>
        let (y, fl) := FF.round .fp32 false .rne pn pm (pe + n) false
        (y, if FF.abs .fp32 f = 0 then fl else fl ||| fNX)
      | _ => (0x7FC00000, 0)

/-- LOG2 (R40, Table 1.14). -/
def log2 (x : Nat) : Nat × Flags :=
  match FF.read .fp32 x with
  | .nan s => (0x7FC00000, if s then fNV else 0)
  | .inf neg => if neg then (0x7FC00000, fNV) else (0x7F800000, 0)
  | .fin neg m e =>
    if m = 0 then (0xFF800000, fDZ)
    else if neg then (0x7FC00000, fNV)
    else
      let lg := Nat.log2 m
      let m0 := 0x3F800000 + (m * 2 ^ (23 - lg) - 2 ^ 23)
      let e0 : Int := e + (lg : Int)
      let big := decide (m0 > 0x3FB504F3)
      let m1 := if big then m0 - 2 ^ 23 else m0
      let e1 := if big then e0 + 1 else e0
      let t := (FF.sub .fp32 .rne m1 0x3F800000).1
      let b := (FF.add .fp32 .rne m1 0x3F800000).1
      let s := (FF.div .fp32 .rne t b).1
      let w := (FF.mul .fp32 .rne s s).1
      let q := horner w 0x3E864D42 [0x3EA4258A, 0x3ED30BB1, 0x3F13BB63, 0x3F76384F, 0x4038AA3B]
      let y := fmaRne s q (intF32 e1)
      (y, if FF.abs .fp32 s = 0 then 0 else fNX)

/-- EXP2 and LOG2 on a lane format: widen, apply, round once under RNE (R41). -/
def viaFp32 (g : Nat → Nat × Flags) (f : FF) (x : Nat) : Nat × Flags :=
  let sig : Flags := if (f.read x).isSig then fNV else 0
  let (y, fl) := g (if f = .fp32 then x else widen f x)
  if f = .fp32 then (y, fl) else
  let (z, fl') := convert (.flt .fp32) (.flt f) false .rne y
  (z, sig ||| fl ||| fl')

/-- Division and remainder of R19 on w-bit patterns. -/
def quotient (i : IFmt) (a b : Nat) : Nat :=
  if b = 0 then 2 ^ i.w - 1 else wrap i.w ((i.val a).tdiv (i.val b))
def remainder (i : IFmt) (a b : Nat) : Nat :=
  if b = 0 then a else wrap i.w ((i.val a).tmod (i.val b))

/-- The exponent an E8M0 scale stands for; none for 0xFF (R20, R25). -/
def e8m0Exp (p : Nat) : Option Int := if p = 0xFF then none else some ((p : Int) - 127)

end Sys2Proof.Machine
end

