-- ==== Sys2Proof/Config.lean ====
section
/-! DEFINITION. What the spec leaves to an implementation or to the outside, as constants without a body:
nothing in Lean can evaluate them, so a claim holds for every value of them. -/

namespace Sys2Proof

/-- What a soft error upsets (R124, R205): a flit of the n-th packet in flight, corrected; its k-th payload flit; its header; the
directory entry of the tile of a place, with its FMT field intact or not. -/
inductive Upset where
  | corrected (n : Nat)
  | payload (n k : Nat)
  | header (n : Nat)
  | entry (place : Nat) (fmtOk : Bool)
  deriving DecidableEq, Repr

/-- What moves next: a thread tries to issue, or one of the other steps of the part happens; words of the next word-by-word
access are put off, or words of a matrix command's operands are fetched (R288, R352, R353); a soft error. -/
inductive Move where
  | issue (core : CoreIx) (thr : ThrIx)
  | event (i : Instr)
  | defer (words : List Nat)
  | fetch (cl : BitVec 8) (arr : BitVec 2) (k : Nat) (words : List Nat)
  | upset (u : Upset)
  deriving DecidableEq, Repr, Inhabited

/-- FREE VALUE (log 3). The move made at the n-th step when nothing is on the agenda: the spec gives no
order among the agents beyond its edges, and the outside may act at any time. -/
opaque Config.nextMove : Nat → Move

/-- FREE VALUE (log 4). Cycles that pass before the n-th step (R10: times are no part of a result). -/
opaque Config.elapsed : Nat → Nat

/-- FREE VALUE (log 14). How many entries the n-th injection combines into one block WR, within what R140
and R144 allow. -/
opaque Config.combine : Nat → Nat

/-- FREE VALUE (log 19). Whether the page lookup of the n-th step is answered from the copy that the controller
holds rather than from memory (R97). -/
opaque Config.usesCopy : Nat → Bool

/-- FREE VALUE (log 26). The loader's choices at the n-th step: range indexes, memory, a job number, kitty places
(R308, R309, R316, R388). -/
opaque Config.loaderChoice : Nat → Nat → Nat

/-- FREE VALUE (log 26). Whether the copy of an image that no job uses is still there at the load of the n-th step: it
may have been evicted (R389). -/
opaque Config.usesImageCopy : Nat → Bool

/-- FREE VALUE (log 27). Whether a logical cluster passed BIST, where not all did (R386). -/
opaque Config.passedBist : BitVec 8 → Bool

/-- FREE VALUE (log 28). The reply label of the control packets that the loader sends (R398). -/
opaque Config.replyLabel : Label

/-- FREE VALUE (log 29). The LPDDR channel of an offset: the interleave is not visible (Table 3.3). -/
opaque Config.lpChannel : Nat → BitVec 6

/-- FREE VALUE (log 11). The SM3 digest of R401, R403, 32 bytes: named by the spec, not defined by it. -/
opaque Config.sm3 : List Byte → BitVec 256

/-- FREE VALUE (log 11). The n-th SM2 signature over a digest, 64 bytes (R403: signatures differ). -/
opaque Config.sm2 : Nat → BitVec 256 → BitVec 512

/-- FREE VALUE (log 11). Whether a firmware image passes the verification of R401. -/
opaque Config.firmwareValid : List Byte → Bool

/-- FREE VALUE (log 11). The device certificate chain of R402. -/
opaque Config.certChain : List Byte

/-- FREE VALUE (log 11). Serial number and the fuse and defect maps of R403. -/
opaque Config.serial : Word
opaque Config.fuseMap : List Byte

/-- FREE VALUE (log 11). The security version that a firmware image carries (R401). -/
opaque Config.securityVersion : List Byte → BitVec 32

/-- FREE VALUE (log 12). Whether the n-th access of `xstream` to host memory meets a host-side error (R184). -/
opaque Config.hostError : Nat → Bool

end Sys2Proof
end

