-- ==== Sys2Proof/Machine/SMap.lean ====
section
/-! DEFINITION. Finite maps over numbered things (cores, clusters, entries), as plain lists in ascending key
order: a key that is not listed holds the given default. -/

namespace Sys2Proof.Machine

/-- A finite map: pairs of key and value, keys ascending. -/
abbrev SMap (α : Type) := List (Nat × α)

/-- The value at a key; the default where the key is not listed. -/
def SMap.get {α : Type} (dflt : α) : SMap α → Nat → α
  | [], _ => dflt
  | (k', v) :: r, k => if k = k' then v else SMap.get dflt r k

/-- The value at a key, where the key is listed. -/
def SMap.find {α : Type} : SMap α → Nat → Option α
  | [], _ => none
  | (k', v) :: r, k => if k = k' then some v else SMap.find r k

/-- The map with a key set. -/
def SMap.set {α : Type} (k : Nat) (v : α) : SMap α → SMap α
  | [] => [(k, v)]
  | (k', v') :: r => if k < k' then (k, v) :: (k', v') :: r
    else if k = k' then (k, v) :: r else (k', v') :: SMap.set k v r

/-- The map without a key. -/
def SMap.del {α : Type} (k : Nat) (m : SMap α) : SMap α := m.filter fun p => p.1 ≠ k

end Sys2Proof.Machine
end

