-- ==== Sys2Proof/Machine/State.lean ====
section
/-! DEFINITION. The state of one module: plain data, holding everything the spec gives the machine, and the
state right after reset (INVENTORY.md lists each piece with its rule). -/

namespace Sys2Proof.Machine

/-- Reasons a run stops with a fault. The spec gives every condition it names a trap, a status or a report,
so there is none. -/
inductive Fault where
  deriving DecidableEq, Repr

/-- Reasons a step gives no meaning. -/
inductive Refusal where
  /-- The instruction of that mnemonic has no meaning yet; raised by the dispatch only. Safe: the run stops. -/
  | notModelled (mnemonic : String)
  deriving DecidableEq, Repr

/-! ### Threads -/

/-- Thread states of Table 8.1; FROZEN is a state of the core (R213, R365). -/
inductive Run where
  | free
  | ready
  | stalled
  /-- SLEEPING in `recv` of a label; `since` orders sleepers (R321). -/
  | recv (lab : Label) (since : Nat)
  /-- SLEEPING in `bar` (R326). -/
  | bar (grp : BitVec 8)
  /-- SLEEPING in `wait` (R260). -/
  | wait (deadline : Word)
  deriving DecidableEq, Repr

/-- Where a read puts its data (R137). -/
inductive Dest where
  | none
  | out
  | s (r : SReg)
  | v (r : VReg) (lanes : Byte)
  deriving DecidableEq, Repr

/-- What a read is: `ldf`/`vldf`, `get` with its near destination and completion, or a near load. -/
inductive ReadKind where
  | far
  | get (near : Nat) (lab : Label) (cls : Cls)
  | near
  deriving DecidableEq, Repr

/-- How a read failed: an error status (R137) or poisoned bytes. -/
inductive ReadFail where
  | status (st : BitVec 4)
  | poison
  deriving DecidableEq, Repr

/-- A read that has not met its wait point: outstanding, or failed (R137, R252). -/
structure PendingRead where
  txid : BitVec 16 := 0
  kind : ReadKind := .far
  dest : Dest := .none
  addr : Word := 0
  bytes : Nat := 0
  sext : Bool := false
  /-- Bytes forwarded from the thread's own buffer, by position (R138). -/
  fwd : List (Nat × Byte) := []
  failed : Option ReadFail := none
  /-- A ninth far read waits for this one: its wait point (R136, R137). -/
  ninth : Bool := false
  /-- It reached its wait point together with an older one that trapped: it meets its wait points again after the
  handler's `eret` (R137). -/
  met : Bool := false
  deriving DecidableEq, Repr

/-- One item of a commit buffer (R139, R152, R253, R330). -/
inductive Entry where
  /-- A near store: the place of its 8-byte word. -/
  | near (place : Nat) (data : Word) (mask : BitVec 16)
  /-- `stf` or `vstf`: the GVA of its 8-byte word. -/
  | far (gva : Word) (data : Word) (mask : BitVec 16)
  /-- `put`: bytes/8 entries, injected as block WR packets; `psn` lists its poisoned words, `old` the bytes for which an
  entry before it holds a newer store (R138, R139). -/
  | put (gva : Word) (data : List Byte) (psn old : List Nat)
  /-- A posted `amo`. -/
  | amo (gva : Word) (op : AmoOp) (dbl : Bool) (v : Word)
  /-- A message: destinations in order, class, label, tag and payload; `rel` for `send.r`, `ctl` for a
  control send. -/
  | msg (dsts : List (BitVec 27)) (cls : Cls) (lab : Label) (tag : BitVec 4) (words : List Word)
      (rel ctl : Bool)
  /-- A fence mark; it takes no entry. -/
  | mark (scope : Scope)
  deriving DecidableEq, Repr

/-- An item of a commit that is not yet applied or injected: its commit and its part (R152, R343). -/
structure Held where
  commit : Nat
  part : Nat
  /-- The class of the instance that committed it (R112). -/
  cls : Cls := .normal
  e : Entry
  deriving DecidableEq, Repr

/-- A far write on its way (R141, R142). -/
structure FarWrite where
  txid : BitVec 16
  gva : Word
  bytes : Nat
  kind : BitVec 4
  deriving DecidableEq, Repr

/-- What takes place when a message is dequeued (R35, R164, R178, R283). -/
structure Effects where
  flags : BitVec 6 := 0
  /-- The engine commands whose bytes below XB the fetch sees from the dequeue on (R158, R164). -/
  cmds : List Nat := []
  /-- An `xpack` completion with status OVERFLOW, and the slot address (R178). -/
  overflow : Option Word := none
  deriving DecidableEq, Repr

/-- A sunk message: header, payload as 64-bit words, flits arrived, poisoned words (R218, R220, R360). -/
structure Message where
  hdr : Header := {}
  words : List Word := []
  poison : List Nat := []
  arrived : Nat := 0
  id : Nat := 0
  eff : Effects := {}
  /-- The first cycle in which it may start an instance or go to a sleeping `recv` (R320, R321). -/
  placed : Nat := 0
  /-- In a kitty: where its record begins, in bytes written to the ring before it (R316). -/
  slot : Nat := 0
  deriving DecidableEq, Repr

/-- A blocking fetching `amo` or `cas` on its way (R146, R148). -/
structure Blocked where
  txid : BitVec 16
  dest : SReg
  gva : Word
  /-- Words the instruction pops when it completes. -/
  pops : Nat
  /-- In a saved context: the reply's value (R376, R377). -/
  got : Option Word := none
  /-- The status that ended it: the far-error trap comes before any other instruction (R146, R377). -/
  err : Option (BitVec 4) := none
  deriving DecidableEq, Repr

/-- One hardware thread (R212). -/
structure Thread where
  s : Vector Word 32 := Vector.replicate 32 0
  v : Vector Vec 16 := Vector.replicate 16 0
  q : Vector Byte 8 := Vector.replicate 8 0
  pc : Word := 0
  fflags : BitVec 6 := 0
  frm : BitVec 2 := 0
  split : Bool := false
  trap : Bool := false
  ine : Bool := false
  oov : Bool := false
  lact : Bool := false
  llen : BitVec 5 := 0
  lstart : BitVec 15 := 0
  lcnt : BitVec 32 := 0
  tcause : BitVec 21 := 0
  taddr : Word := 0
  tepc : Word := 0
  instret : Word := 0
  /-- Instructions retired by the running instance (R366). -/
  wdog : Nat := 0
  run : Run := .free
  /-- The first cycle in which the running instance may issue (R320). -/
  opens : Nat := 0
  /-- Label and class of the running instance. -/
  inst : Option (Label × Cls) := none
  msg : Option Message := none
  /-- Words popped from the current message (R218). -/
  popped : Nat := 0
  /-- The open outgoing message (R219). -/
  out : List Word := []
  buf : List Entry := []
  held : List Held := []
  /-- Commits made so far: the number of the next one. -/
  commits : Nat := 0
  reads : List PendingRead := []
  wrs : List FarWrite := []
  block : Option Blocked := none
  /-- The commit of the instruction at the PC has begun (R259, R248, R146). -/
  begun : Bool := false
  /-- Lanes that the `vgthn` at the PC has read already: word and poison (R278, R352). -/
  lanes : SMap (Word × Bool) := []
  /-- The address whose next issue no comparator matches (R378). -/
  skip : Option Word := none
  /-- An xpack-overflow trap was taken here: after `recv` (true) or at a handler start (false) (R178). -/
  ovf : Option Bool := none
  /-- A trap to take before the next issue: cause, status, address (R132, R178). -/
  pend : Option (Byte × BitVec 4 × Word) := none
  deriving DecidableEq, Repr

/-! ### Cores -/

/-- Barrier states of Table 12.4. -/
inductive BarSt where
  | idle | wait | done
  deriving DecidableEq, Repr

/-- The kitty of a core (R316, R317). -/
structure Kitty where
  /-- Module-local physical place of the ring, and its size in bytes. -/
  base : Nat := 0
  size : Nat := 0
  recs : List Message := []
  /-- Bytes written to the ring so far. -/
  tail : Nat := 0
  /-- The full report was sent and room has not returned since. -/
  reported : Bool := false
  deriving DecidableEq, Repr

/-- Who waits for the reply of a request: a thread or an engine command (R157). -/
inductive Owner where
  | thread (t : ThrIx)
  | engine (id : Nat)
  /-- A thread of a saved context of a job (R376). -/
  | saved (job : BitVec 8) (t : ThrIx)
  /-- Nobody: an engine request abandoned at a save (R186). -/
  | gone
  deriving DecidableEq, Repr

/-- A memory request without its final reply: the packet as sent and its timer (R119, R126). -/
structure Req where
  txid : BitVec 16
  pkt : Packet
  owner : Owner
  expiries : Nat := 0
  /-- Cycle of the last transmission, and the cycle from which the timer runs. -/
  sentAt : Nat := 0
  timer : Nat := 0
  /-- After a NACK: the cycle from which it may be resent. -/
  nack : Option Nat := none
  deriving DecidableEq, Repr

/-- One handler core (R212, R225). -/
structure Core where
  threads : Vector Thread 8 := Vector.replicate 8 {}
  /-- The job of the core's team, and whether it belongs to one (R228, R312). -/
  job : BitVec 8 := 0
  member : Bool := false
  sup : Bool := false
  rank : BitVec 7 := 0
  size : BitVec 7 := 0
  role : Nat := 0
  /-- XB.BOUND: XB is 64 times it (R227). -/
  xb : BitVec 11 := 0
  tvEn : Bool := false
  tvEntry : BitVec 15 := 0
  cf : Byte := 0
  pcc : Vector Word 4 := Vector.replicate 4 0
  /-- Trigger entries in the layout of Table 12.1; a label not listed reads zero. -/
  trig : SMap Word := []
  /-- COUNT of each label. -/
  cnt : SMap (BitVec 16) := []
  /-- The engine commands whose completions a COUNT entry counted and dropped (R164). -/
  counted : SMap (List Nat) := []
  /-- Bytes below XB, by TCM offset, that the fetch does not see as memory holds them: the byte that it sees, then those that
  commands have written since, with the command of each (R158). -/
  veil : SMap (List (Option Nat × Byte)) := []
  qBulk : List Message := []
  qNormal : List Message := []
  qHigh : List Message := []
  qTrump : List Message := []
  /-- Messages that were counted or discarded while flits of theirs are to come: they hold inbox space (R312). -/
  drops : List Message := []
  kitty : Kitty := {}
  /-- Messages that the core forms for itself and holds while there is no room: label, class, payload (R317). -/
  owed : List (Label × Cls × List Word) := []
  /-- The label last started in each class (R319). -/
  lastLab : SMap Label := []
  /-- The thread of 0 to 6 that issued last (R322). -/
  rot : ThrIx := 0
  frozen : Bool := false
  /-- Starts nothing until RESUME or while the team is being saved (R367, R377). -/
  held : Bool := false
  discards : Nat := 0
  bars : SMap BarSt := []
  reqs : List Req := []
  /-- TXIDs not to be used again before a cycle (R127). -/
  quarantine : List (BitVec 16 × Nat) := []
  /-- Cycle of the last trump packet injected for the core (R122). -/
  lastTrump : Option Nat := none
  /-- The job's scratchpad window: first tile and tiles (R85). -/
  winBase : Nat := 0
  winTiles : Nat := 0
  /-- Spreading windows handled: CYCLE/256 of the last one, plus one (R323). -/
  spread : Nat := 0
  /-- The cycles after the last issue, the last start and the last MSG header sunk: one of each in a cycle (R312, R319, R322). -/
  lastIssue : Nat := 0
  lastStart : Nat := 0
  lastSink : Nat := 0
  deriving DecidableEq, Repr

/-! ### Engine and arrays -/

/-- A registered landing range, 16-byte aligned bounds, and the command that holds it (R165). -/
structure Landing where
  lo : Nat
  hi : Nat
  owner : Nat
  deriving DecidableEq, Repr

/-- A far request of an engine command on its way: TXID, GVA and bytes, its order among the requests of the
command, and where its reply goes in the staging bytes (none: a write or a posted atomic). -/
structure EngReq where
  txid : BitVec 16
  /-- The address that a failure of it names. -/
  gva : Word
  bytes : Nat
  order : Nat
  stage : Option Nat
  deriving DecidableEq, Repr

/-- Phases of a command: queued, reading its describing operands, working, ended. -/
inductive Phase where
  | queued
  | slot
  | desc
  | work
  | ended
  deriving DecidableEq, Repr

/-- A command of the copy engine (R155 to R187). -/
structure EngCmd where
  id : Nat
  insn : Instr
  core : CoreIx
  thr : ThrIx
  dv : Word
  av : Word
  bv : Word
  cv : Word
  cls : Cls
  lab : Label
  /-- Class of the issuing handler's requests (R112) and its job. -/
  reqCls : Cls
  job : BitVec 8
  /-- Commits of the issuing thread so far: its earlier far writes are those of the commits below (R350). -/
  commit : Nat := 0
  phase : Phase := .queued
  /-- A restored command that is to become active again, and the phase in which it then goes on (R187). -/
  was : Option Phase := none
  /-- The block of work under way (Table 6.8), and the next act within it. -/
  pos : Nat := 0
  sub : Nat := 0
  /-- Staged bytes of the block, by position, and the positions whose bytes are poisoned. -/
  stage : SMap Byte := []
  spsn : List Nat := []
  /-- The entry of a whole source tile with M = 0 (R168). -/
  ent : Option Word := none
  reqs : List EngReq := []
  /-- Describing operands as read at start: the tensor map, or the descriptor and the entry list. -/
  desc : List Byte := []
  /-- Its poisoned words, of the tensor map or of the entry list (R163). -/
  descPsn : List Nat := []
  tdesc : Word := 0
  /-- Sums of `xembed` and their poisoned elements, the bag and its first entry (R183, R187). -/
  sums : List Nat := []
  sumPsn : List Nat := []
  bag : Nat := 0
  bagEntry : Nat := 0
  flags : BitVec 6 := 0
  psn : Bool := false
  /-- Stopped by a failure: status, far status, WHERE (R163), and its place in the command's order. -/
  fail : Option (Nat × Nat × Word) := none
  failAt : Nat := 0
  doneUnits : Nat := 0
  aux0 : Word := 0
  aux1 : Word := 0
  /-- Held after a guard drop until the core is released (R185). -/
  hold : Bool := false
  deriving DecidableEq, Repr

/-- A command of a matrix array (R281). -/
structure MatCmd where
  id : Nat
  insn : Instr
  core : CoreIx
  thr : ThrIx
  dv : Word
  av : Word
  bv : Word
  cv : Word
  frm : BitVec 2
  lab : Label
  started : Bool := false
  /-- The landing wait is over and the snapshot taken (R287). -/
  ready : Bool := false
  ended : Bool := false
  /-- Grid cycles or tiles done. -/
  pos : Nat := 0
  /-- The snapshot: directory entry words by tile (R287). -/
  snap : SMap Word := []
  /-- Words of the blocks that the snapshot decides, and the words poisoned then (R288, R295). -/
  kept : SMap Word := []
  keptPsn : List Nat := []
  /-- MAPs of the records of `mops.zc` (R302). -/
  maps : List Nat := []
  flags : BitVec 6 := 0
  psn : Bool := false
  status : Nat := 0
  wher : Word := 0
  deriving DecidableEq, Repr

/-- One matrix array (R279). Cells not listed hold +0. -/
structure MatArray where
  acc0 : SMap (BitVec 32) := []
  acc1 : SMap (BitVec 32) := []
  /-- Poisoned cells. -/
  psn0 : List Nat := []
  psn1 : List Nat := []
  /-- T = INT. -/
  int0 : Bool := false
  int1 : Bool := false
  x : BitVec 32 := 1
  cmds : List MatCmd := []
  /-- Cores that wait for an entry, and the core admitted last (R281). -/
  wait : List CoreIx := []
  last : BitVec 7 := 127
  deriving DecidableEq, Repr

/-- Where a save area lies: its offset in its first 2 MiB of the address space, and the place of each 2 MiB that it
touches (R371). -/
structure SaveArea where
  off : Nat := 0
  units : List Nat := []
  deriving DecidableEq, Repr

/-- A team saved in a save area (R367 to R377): what Tables 14.7 to 14.11 do not hold stays with the cluster.
A core's image there wins where it holds a thing. -/
structure Saved where
  job : BitVec 8
  area : SaveArea
  /-- The cores as they were, by core; their kitties take the arrivals (R369). -/
  cores : SMap Core
  eng : List EngCmd := []
  /-- The arrays owned, by array number. -/
  arrays : SMap MatArray := []
  deriving DecidableEq, Repr

/-- A PREEMPT in its grace period: who asked, under which reply label (R367). -/
structure Grace where
  job : BitVec 8
  area : SaveArea
  until_ : Nat
  src : BitVec 27
  lab : Label
  /-- The labels armed on each core of the team when the grace began (step 1). -/
  en : SMap (List Nat) := []
  /-- The grace is over: threads, engine and arrays stop (steps 3 to 6). -/
  stopping : Bool := false
  deriving DecidableEq, Repr

/-- One cluster. -/
structure Cluster where
  eng : List EngCmd := []
  land : List Landing := []
  /-- Cores that wait for an entry of the engine's queue, and the core admitted last (R155). -/
  wait : List CoreIx := []
  last : BitVec 7 := 127
  arrays : Vector MatArray 4 := Vector.replicate 4 {}
  /-- AOWN: the job of each array, and whether it is assigned (Table 15.7). -/
  aown : Word := 0
  /-- G of the draw governor (R297), before throttling, and the cycles used in the window that `govWin` numbers. -/
  gov : Nat := 4096
  govUsed : Nat := 0
  govWin : Nat := 0
  /-- The cycles admitted in that window (R399: a GOV write takes effect from the next). -/
  govNow : Nat := 4096
  /-- Cycles of the last trump packets through the egress (R122). -/
  trumps : List Nat := []
  saved : List Saved := []
  grace : List Grace := []
  deriving DecidableEq, Repr

/-! ### Fabric, home, jobs, host -/

/-- Where a packet in flight is. -/
inductive Loc where
  /-- In a router, having come in by a port: 0 local, 1 to 4 the links +x, −x, +y, −y, 5 the switch. -/
  | router (cl : BitVec 8) (port : Nat)
  /-- At a gateway switch, about to leave the module: having come along the ring of dimension 0 to 2, or (3) from the
  router. -/
  | switch (i : BitVec 3) (dim : Nat)
  /-- On a Predan link to another module, not yet acknowledged (R124, R125). -/
  | link (l : BitVec 6)
  /-- A memory request at the endpoint or controller of its home, in the cluster that DCL names (R116). -/
  | home
  /-- At its destination core, cluster or member. -/
  | dest
  deriving DecidableEq, Repr

/-- A packet in flight, and the cycle in which it came to where it is (R121). -/
structure Flight where
  p : Packet
  loc : Loc
  since : Nat := 0
  /-- Sent on the supervisor control path (R131). -/
  supPath : Bool := false
  /-- A memory request from outside the module entered through this partition (R92). -/
  part : Nat := 0
  /-- At its home: the range entry that stage 1 found, index and words (R90). -/
  ent : Option (Nat × Word × Word) := none
  /-- The endpoint or controller that a memory request goes to within the module (R116, R117). -/
  ep : Nat := 0
  /-- The step in which it came there (R103). -/
  arr : Nat := 0
  /-- The place of its page entry, and, once translated, the place of its access (R94, R104). -/
  page : Option Nat := none
  place : Option Nat := none
  /-- Sent again (R117, R126). -/
  again : Bool := false
  /-- Thread and commit of a far write (R344). -/
  stream : Option (ThrIx × Nat) := none
  /-- The words of the access, or of the data that it brings, that are performed: value and poison (R352, R353). -/
  got : SMap (Word × Bool) := []
  deriving DecidableEq, Repr

/-- A parked request (R98, R101). -/
structure ParkSlot where
  stack : BitVec 5
  flight : Flight
  entry : Nat
  page : Nat
  since : Nat
  /-- Cycle of the last park notice. -/
  noticed : Nat := 0
  released : Bool := false
  deriving DecidableEq, Repr

/-- A whole tile on its way from an engine of this module to an endpoint: its source, the mark of its packets, the tile, and
the words that have come, with their poison (R167). -/
structure TilePart where
  src : BitVec 27
  mark : Word
  tile : Nat
  got : SMap (Word × Bool) := []
  deriving DecidableEq, Repr

/-- An entry of a completed-transaction cache (R128). -/
structure Ctc where
  endpoint : Nat
  src : BitVec 27
  txid : BitVec 16
  reply : Packet
  until_ : Nat
  deriving DecidableEq, Repr

/-- A Predan link (R124, R125). -/
structure Link where
  up : Bool := false
  fails : Nat := 0
  retraining : Bool := false
  deriving DecidableEq, Repr

/-- A gateway switch: its arrival ring and pod cycle counter (R120, R122). -/
structure Switch where
  ring : List Packet := []
  fullSince : Option Nat := none
  /-- Pod cycle counter less CYCLE. -/
  podSkew : Word := 0
  /-- The slot in which the module last injected a trump packet for other modules, plus one. -/
  trumpSlot : Nat := 0
  deriving DecidableEq, Repr

/-- A group of the group table, and the phase under way (R325, R326). -/
structure Group where
  job : BitVec 8
  members : List CoreIx
  arrived : List CoreIx := []
  deriving DecidableEq, Repr

/-- An initial message of an image (R83). -/
structure InitMsg where
  core : CoreIx
  lab : Label
  cls : Cls
  tag : BitVec 4
  words : List Word
  deriving DecidableEq, Repr

/-- A target that the job accepts from host tokens (R82). -/
structure HostTarget where
  core : CoreIx
  lab : Label
  cls : Cls
  deriving DecidableEq, Repr

/-- A report of a module of a multi-module job (R398). -/
structure QRep where
  mod : BitVec 12
  sent : Word
  recv : Word
  reading : Bool
  deriving DecidableEq, Repr

/-- A copy of an image that the loader keeps: its bytes, the step that used it last, and whether its entry was withdrawn:
then it goes once no job uses it (R389). -/
structure Copy where
  bytes : List Byte
  used : Nat
  withdrawn : Bool := false
  deriving DecidableEq, Repr

/-- A resident job (R308 to R310, R327 to R329, R398). -/
structure Job where
  handle : BitVec 32 := 0
  entry : Nat := 0
  queue : Option (BitVec 14) := none
  cores : List CoreIx := []
  /-- Prepared and waiting for its gate; open; retired jobs are not listed. -/
  gate : Bool := false
  done : Bool := false
  sent : Nat := 0
  recv : Nat := 0
  tail : Option Word := none
  inits : List InitMsg := []
  targets : List HostTarget := []
  /-- Endpoint slots as snapshotted at the gate (R396), and the directions of the image. -/
  slots : SMap (BitVec 256) := []
  dirs : SMap Nat := []
  coord : BitVec 12 := 0
  nmod : Nat := 0
  /-- OPEN or RETIRE was received (R398). -/
  opened : Bool := false
  retireOk : Bool := false
  /-- QREPORT messages sent, and the counts last reported. -/
  reported : Nat := 0
  lastRep : Nat × Nat := (0, 0)
  /-- Memory that the loader gave the job's far regions: places and bytes. -/
  mem : List (Nat × Nat) := []
  deriving DecidableEq, Repr

/-- What a coordinator knows of a multi-module job: modules that are ready or, after an abort, have told their outcome;
their readings, their tail handles, an abort; at any module, a load that failed (R398). -/
structure Launch where
  readys : List (BitVec 12) := []
  reps : List QRep := []
  tlhs : List (BitVec 12 × Word) := []
  aborted : Bool := false
  failed : Bool := false
  /-- NMOD, once this module's own load named it. -/
  nmod : Nat := 0
  deriving DecidableEq, Repr

/-- Ingress queue states (Table 15.5). -/
inductive QState where
  | unbound | loading | bound | error
  deriving DecidableEq, Repr

/-- An ingress queue (R391 to R394). -/
structure IQueue where
  tokens : List (List Byte) := []
  acc : BitVec 16 := 0
  out : BitVec 16 := 0
  drop : Byte := 0
  state : QState := .unbound
  cause : BitVec 4 := 0
  job : BitVec 8 := 0
  /-- The image-table entry being loaded from: its number and its fields as read (R388); a tail launch. -/
  load : Option (Nat × BitVec 512) := none
  tail : Bool := false
  deriving DecidableEq, Repr

/-- Service states (Table 15.3). -/
inductive Svc where
  | reset | boot | early | full | recovery | failed
  deriving DecidableEq, Repr

/-- Bring-up, power and the host's registers (R383 to R404). -/
structure Care where
  svc : Svc := .reset
  hbmOk : Bool := false
  lpOk : Bool := false
  linkOk : Bool := false
  clok : BitVec 9 := 0
  bist : Bool := false
  verified : Bool := false
  powered : Bool := false
  /-- The clocks are stopped until a reset (R404). -/
  stopped : Bool := false
  mevent : BitVec 6 := 0
  powercap : Nat := 24000
  throttled : Bool := false
  /-- The mailbox bytes, and the command under way (R402). -/
  mbox : SMap Byte := []
  mboxCmd : Option Nat := none
  /-- The firmware image in flash, and a flash write that was not finished. -/
  flash : List Byte := []
  flashBad : Bool := false
  flashWriting : Bool := false
  /-- The image being written. -/
  flashNew : List Byte := []
  /-- Tiers whose training failed (R385). -/
  hbmFail : Bool := false
  lpFail : Bool := false
  /-- MSI-X vectors raised, oldest first (output). -/
  vectors : List Nat := []
  /-- Signatures made. -/
  signs : Nat := 0
  deriving DecidableEq, Repr

/-- Configuration registers of Table 15.7 that have no other home. -/
structure Cfg where
  modid : BitVec 12 := 0
  podext : BitVec 12 := 0
  timer : Nat := 5
  parklim : Nat := 10
  retry : Nat := 16
  /-- Partition control words in force and staged (Table 4.5). -/
  pctl : SMap Word := [(0, 0x1F0)]
  staged : SMap Word := []
  /-- Words of the MODS bitmaps, by 64p + w. -/
  mods : SMap Word := []
  secnt : SMap Word := []
  hsec : SMap Word := []
  lsec : SMap Word := []
  /-- Cycles at which each counter grew, within an hour (R400). -/
  secLog : SMap (List Nat) := []
  deriving DecidableEq, Repr

/-- The core and thread whose instruction is being executed. -/
structure Cur where
  core : CoreIx := 0
  thr : ThrIx := 0
  deriving DecidableEq, Repr

/-- The module. -/
structure State where
  /-- The model's own: the moves that come next, the counter of the free values, the words put off, the executing thread. -/
  agenda : List Move := []
  tick : Nat := 0
  /-- Words that the next word-by-word access puts off (log 50). -/
  later : List Nat := []
  cur : Cur := {}
  /-- CYCLE (R229). -/
  cycle : Word := 0
  cores : SMap Core := []
  /-- A core that `cores` does not list: one of the system job from EARLY service on (R328, log 30). -/
  idle : Core := {}
  clusters : SMap Cluster := []
  /-- All memories as one list of bytes by place (Ops.lean numbers the places), canonical. -/
  mem : List Host.Cell := []
  /-- Directory entry words by tile place; a tile not listed reads ZERO, S 0, M 0, FMT 0. -/
  dir : SMap Word := []
  /-- Poisoned 8-byte words, by place. -/
  poison : List Nat := []
  net : List Flight := []
  links : SMap Link := []
  switches : SMap Switch := []
  /-- Last input port served, by output port (R121). -/
  rr : SMap Nat := []
  /-- Packets sent to other modules (output). -/
  podOut : List Packet := []
  /-- Range entries: low and high word (R91). -/
  ranges : SMap (Word × Word) := []
  /-- Page entries that a controller holds a copy of, by place (R97). -/
  pcache : SMap Word := []
  park : List ParkSlot := []
  tparts : List TilePart := []
  ctc : List Ctc := []
  groups : SMap Group := []
  /-- Messages for the system job while core 0 of cluster 0 belongs to another job (log 30). -/
  sysIn : List Message := []
  jobs : SMap Job := []
  launches : SMap Launch := []
  /-- Copies of images that the loader keeps, by handle (R389). -/
  store : SMap Copy := []
  queues : SMap IQueue := []
  images : SMap (BitVec 512) := []
  slots : SMap (BitVec 256) := []
  cfg : Cfg := {}
  care : Care := {}
  /-- Numbers given out to messages and commands. -/
  ids : Nat := 0
  deriving DecidableEq, Repr

/-- The machine right after reset: every field at the value the spec gives; the values the spec does not
give are those of log 1, log 2 and log 13. -/
def State.reset : State := {}

end Sys2Proof.Machine
end

