-- ==== Sys2Proof/Machine/Memory.lean ====
section
/-! DEFINITION. The memories and the tile directory: places, reading, partial stores, whole-tile writes
(R188, R193 to R208, R338, R345). Every byte the part keeps has one place, a natural number. -/

namespace Sys2Proof.Machine

/-! ### Places -/

/-- The place of a scratchpad byte: cluster and near offset (R188). -/
def spadPlace (cl : BitVec 8) (o : Nat) : Nat := 1 * 2 ^ 64 + cl.toNat * 2 ^ 24 + o
/-- The place of a TCM byte: core of the module and TCM offset (R222). -/
def tcmPlace (c : CoreIx) (o : Nat) : Nat := 2 * 2 ^ 64 + c.toNat * 2 ^ 17 + o
/-- The place of a byte of a module SRAM slice (R192). -/
def msramPlace (cl : BitVec 8) (o : Nat) : Nat := 3 * 2 ^ 64 + cl.toNat * 2 ^ 22 + o
/-- The place of an HBM byte: stack and offset (Table 3.3). -/
def hbmPlace (stack o : Nat) : Nat := 4 * 2 ^ 64 + stack * 2 ^ 36 + o
/-- The place of an LPDDR byte: the offset within the band, from the band's first column on (Table 3.3, R129). -/
def lpddrPlace (o : Nat) : Nat := 5 * 2 ^ 64 + o
/-- The place of a byte of host memory (R106, log 9). -/
def hostPlace (o : Nat) : Nat := 6 * 2 ^ 64 + o

/-- Which memory a place belongs to: 1 scratchpad, 2 TCM, 3 module SRAM, 4 HBM, 5 LPDDR, 6 host. -/
def placeKind (p : Nat) : Nat := p / 2 ^ 64

/-- The first byte of the tile directory within a stack (R89). -/
def hbmReserve : Nat := 0xBFA000000

/-- Places that have a directory entry (R193). -/
def hasDir (p : Nat) : Bool :=
  decide (placeKind p = 1) || (decide (placeKind p = 4) && decide (p % 2 ^ 36 < hbmReserve))

/-! ### Bytes -/

/-- The byte at a place: a place not listed reads as zero (log 1). -/
def Memory.read : List Host.Cell → Nat → Byte
  | [], _ => 0
  | (a, b) :: m, k => if k = a then b else Memory.read m k

/-- The cells that bytes from a place on make: the zero bytes are not listed. -/
def Memory.cells : Nat → List Byte → List Host.Cell
  | _, [] => []
  | a, b :: bs => if b = 0 then Memory.cells (a + 1) bs else (a, b) :: Memory.cells (a + 1) bs

/-- Bytes written from a place on. -/
def Memory.put (m : List Host.Cell) (a : Nat) (bs : List Byte) : List Host.Cell :=
  m.filter (fun c => decide (c.1 < a)) ++
    (Memory.cells a bs ++ m.filter (fun c => decide (a + bs.length ≤ c.1)))

/-- All bytes from a place on, n of them, made zero. -/
def Memory.clear (m : List Host.Cell) (a n : Nat) : List Host.Cell :=
  m.filter (fun c => decide (c.1 < a)) ++ m.filter (fun c => decide (a + n ≤ c.1))

/-- The canonical form: addresses strictly rising, no zero byte listed. -/
def Memory.wf (m : List Host.Cell) : Bool :=
  decide (m.Pairwise fun x y => x.1 < y.1) && m.all fun c => decide (c.2 ≠ 0)

/-- The stored byte at a place, whatever the directory says. -/
def State.memByte (s : State) (p : Nat) : Byte := Memory.read s.mem p
/-- The stored 8-byte word at a place. -/
def State.memWord (s : State) (p : Nat) : Word :=
  BitVec.ofNat 64 (leVal ((List.range 8).map fun i => s.memByte (p + i)))
/-- Stored bytes written. -/
def State.putBytes (s : State) (p : Nat) (bs : List Byte) : State := { s with mem := Memory.put s.mem p bs }

/-! ### Poison marks (R360) -/

/-- Whether the 8-byte word that holds a place is marked poisoned. -/
def State.poisoned (s : State) (p : Nat) : Bool := s.poison.contains (p / 8)

/-- The poison mark of a word after a write with a mask: a poisoned word sets it, a word written in all 16
nibbles clears it, a partial write keeps it (R147, R253, R360). -/
def State.markWord (s : State) (p : Nat) (mask : BitVec 16) (psn : Bool) : State :=
  if psn then { s with poison := if s.poison.contains (p / 8) then s.poison else (p / 8) :: s.poison }
  else if mask = BitVec.allOnes 16 then { s with poison := s.poison.filter fun w => w != p / 8 }
  else s

/-! ### Directory entries (Tables 7.1, 7.2) -/

/-- STATE of an entry: 0 GENERAL, 1 ZERO, 2 CONST, 3 IDENT. -/
def entState (e : Word) : Nat := fld e.toNat 0 2
def entS (e : Word) : Bool := e.getLsbD 2
def entM (e : Word) : Bool := e.getLsbD 3
def entFmt (e : Word) : Tag := (Tag.ofCode (fld e.toNat 4 4)).getD .raw
def entDiag (e : Word) : Nat := fld e.toNat 8 7
def entConst (e : Word) : Nat := fld e.toNat 32 32

/-- An entry word from its fields (Table 7.1). -/
def mkEnt (state : Nat) (sp m : Bool) (f : Tag) (diag const : Nat) : Word :=
  BitVec.ofNat 64 (layOut [(state, 2), (sp.toNat, 1), (m.toNat, 1), (f.code, 4), (diag, 7), (0, 17), (const, 32)])

/-- Element width of a format tag (Table 7.2). -/
def tagWidth : Tag → Nat
  | .raw | .i8 | .n8 | .e4m3 | .e5m2 | .e8m0 => 8
  | .i16 | .bf16 | .f16 => 16
  | .i32 | .f32 => 32
  | .e2m1 => 4

/-- Whether an element is special (Table 7.2). -/
def tagSpecial (f : Tag) (x : Nat) : Bool :=
  match f with
  | .raw => true
  | .i8 | .i16 | .i32 | .n8 | .e2m1 => false
  | .bf16 => decide (fld x 7 8 = 0xFF)
  | .f16 => decide (fld x 10 5 = 0x1F)
  | .f32 => decide (fld x 23 8 = 0xFF)
  | .e4m3 => decide (x = 0x7F ∨ x = 0xFF)
  | .e5m2 => decide (fld x 2 5 = 0x1F)
  | .e8m0 => decide (x = 0xFF)

/-- The pattern of the value one (R197). -/
def tagOne : Tag → Nat
  | .i8 | .n8 => 0x01
  | .bf16 => 0x3F80
  | .f16 => 0x3C00
  | .e4m3 => 0x38
  | .e5m2 => 0x3C
  | .e2m1 => 0x2
  | .raw | .i16 | .i32 | .f32 | .e8m0 => 0

/-- Whether element k of an IDENT tile is one: geometry and diagonal (R197). -/
def identAt (north : Bool) (diag k : Nat) : Bool :=
  if north then decide (k % 128 = k / 128 + diag) else decide (k % 64 = k / 64 + diag)

/-- Element k of SYNTH(e) (R196). -/
def synthElem (e : Word) (k : Nat) : Nat :=
  match entState e with
  | 2 => entConst e % 2 ^ tagWidth (entFmt e)
  | 3 => if identAt (decide (entConst e % 2 = 1)) (entDiag e) k then tagOne (entFmt e) else 0
  | _ => 0

/-- The 8-byte word of SYNTH(e) at an offset in the tile (R196). -/
def synthWord (e : Word) (o : Nat) : Word :=
  if entState e = 1 then 0 else
  let w := tagWidth (entFmt e)
  BitVec.ofNat 64 (packElems w ((List.range (64 / w)).map fun i => synthElem e (o * 8 / w + i)))

/-- SYNTH(e): the bytes of a tile with M = 0 (R196). -/
def synthBytes (e : Word) : List Byte := (List.range 512).flatMap fun i => leBytes 8 (synthWord e (8 * i)).toNat

/-- The entry of the tile that holds a place. -/
def State.entry (s : State) (p : Nat) : Word := SMap.get 1 s.dir (p / 4096)
/-- The entry of the tile that holds a place, set. -/
def State.setEntry (s : State) (p : Nat) (e : Word) : State := { s with dir := SMap.set (p / 4096) e s.dir }

/-- The 8-byte word at a place: synthesised where the tile has M = 0 (R199). -/
def State.word (s : State) (p : Nat) : Word :=
  if hasDir p && !entM (s.entry p) then synthWord (s.entry p) (p % 4096) else s.memWord p

/-- The byte at a place as every reader gets it. -/
def State.byte (s : State) (p : Nat) : Byte := (s.word (p / 8 * 8)).extractLsb' (8 * (p % 8)) 8

/-- n bytes from a place on. -/
def State.bytes (s : State) (p n : Nat) : List Byte :=
  let ws := (List.range ((p % 8 + n + 7) / 8)).map fun i => s.word (p / 8 * 8 + 8 * i)
  ((ws.flatMap fun w => leBytes 8 w.toNat).drop (p % 8)).take n

/-- The words of n bytes from a place on that are poisoned, as indexes from the first word. -/
def State.poisonIn (s : State) (p n : Nat) : List Nat :=
  (List.range ((p % 8 + n + 7) / 8)).filter fun i => s.poisoned (p / 8 * 8 + 8 * i)

/-- Writing the nibbles of a mask into the stored word at a place. -/
def State.writeNibbles (s : State) (p : Nat) (data : Word) (mask : BitVec 16) : State :=
  s.putBytes p (leBytes 8 (mergeWord mask (s.memWord p) data).toNat)

/-- The tile of a place gets its synthesised bytes stored (R202, R203). -/
def State.materialise (s : State) (p : Nat) : State :=
  let e := s.entry p
  let b := p / 4096 * 4096
  if entState e = 1 then { s with mem := Memory.clear s.mem b 4096 }
  else s.putBytes b (synthBytes e)

/-- SPECIAL of the elements of a word that overlap a mask (R195, R202). -/
def specialIn (f : Tag) (w : Word) (mask : BitVec 16) : Bool :=
  (List.range (64 / tagWidth f)).any fun i =>
    ((List.range (tagWidth f / 4)).any fun j => mask.getLsbD (i * tagWidth f / 4 + j))
      && tagSpecial f (elemOf (tagWidth f) i w.toNat)

/-- A partial store of one 8-byte word, with its entry update, as one step (R202, R204, R345). -/
def State.storeWord (s : State) (p : Nat) (data : Word) (mask : BitVec 16) (psn : Bool := false) : State :=
  let s := s.markWord p mask psn
  if hasDir p then
    let e := s.entry p
    if entState e ≠ 0 ∧ (synthWord e (p % 4096) ^^^ data) &&& maskBits mask = 0 then
      if entM e then s.writeNibbles p data mask else s
    else
      let s := if entM e then s else s.materialise p
      let s := s.writeNibbles p data mask
      let sp := entS e || specialIn (entFmt e) (s.memWord p) mask
      s.setEntry p (mkEnt 0 sp true (entFmt e) 0 0)
  else s.writeNibbles p data mask

/-- Words given as index from a first place, data, mask and poison mark, stored in order. -/
def State.storeWords (s : State) (ws : List (Nat × Word × BitVec 16 × Bool)) : State :=
  ws.foldl (fun s w => s.storeWord w.1 w.2.1 w.2.2.1 w.2.2.2) s

/-- Bytes from a place on as words with masks: the pieces of a partial store of any length (R202). -/
def pieces (p : Nat) (bs : List Byte) (psn : List Nat) : List (Nat × Word × BitVec 16 × Bool) :=
  let lo := p / 8 * 8
  let o := p % 8
  (List.range ((o + bs.length + 7) / 8)).map fun i =>
    let a := if i = 0 then o else 0
    let take := if i = 0 then 8 - o else 8
    let skip := if i = 0 then 0 else 8 * i - o
    let chunk := (bs.drop skip).take take
    (lo + 8 * i, BitVec.ofNat 64 (leVal chunk * 2 ^ (8 * a)), byteMask a chunk.length, psn.contains i)

/-- Bytes stored from a place on, word by word (R353); `psn` lists poisoned words from the first on. -/
def State.storeBytes (s : State) (p : Nat) (bs : List Byte) (psn : List Nat := []) : State :=
  s.storeWords (pieces p bs psn)

/-! ### Whole tiles -/

/-- Groups of k bytes, from the first on; `n` bounds how many. -/
def groups (k : Nat) : Nat → List Byte → List (List Byte)
  | 0, _ => []
  | n + 1, bs => if bs.isEmpty then [] else bs.take k :: groups k n (bs.drop k)

/-- The elements of bytes under a format (R24). -/
def elements (f : Tag) (bs : List Byte) : List Nat :=
  if tagWidth f = 4 then bs.flatMap fun b => [b.toNat % 16, b.toNat / 16]
  else (groups (tagWidth f / 8) bs.length bs).map leVal

/-- SUMMARY(bytes, f): the entry of a tile just written whole; M follows STATE (R200, R201). -/
def summary (f : Tag) (bs : List Byte) : Word :=
  if bs.all fun b => decide (b = 0) then mkEnt 1 false false f 0 0
  else match elements f bs with
    | [] => mkEnt 1 false false f 0 0
    | x :: xs =>
      if xs.all fun y => decide (y = x) then mkEnt 2 (tagSpecial f x) false f 0 x
      else mkEnt 0 ((x :: xs).any (tagSpecial f)) true f 0 0

/-- The poison marks of a tile's words after a write of the whole tile. -/
def State.markTile (s : State) (p : Nat) (psn : List Nat) : State :=
  let b := p / 4096 * 512
  { s with poison := psn.map (b + ·) ++ s.poison.filter fun w => decide (w / 512 ≠ p / 4096) }

/-- A whole-tile write under R200 and R201; with `always`, the bytes are written whatever the summary and
M is 1 (`mdrain`). -/
def State.wholeTile (s : State) (p : Nat) (bs : List Byte) (f : Tag) (always : Bool := false)
    (psn : List Nat := []) : State :=
  let e := summary f bs
  let s := s.markTile p psn
  if entState e = 0 ∨ always then
    (s.putBytes (p / 4096 * 4096) bs).setEntry p
      (mkEnt (entState e) (entS e) true f 0 (entConst e))
  else s.setEntry p e

/-- A tile's entry set with M = 0: no byte is written, the old bytes cannot be read again (R201, R211). -/
def State.setTile (s : State) (p : Nat) (e : Word) : State := (s.markTile p []).setEntry p e

/-- An entry that met an uncorrectable error: GENERAL, S 1, M 1, every word poisoned (R205). -/
def State.breakEntry (s : State) (p : Nat) (fmtOk : Bool) : State :=
  let e := s.entry p
  let s := if entM e then s else s.materialise p
  (s.markTile p (List.range 512)).setEntry p (mkEnt 0 true true (if fmtOk then entFmt e else .raw) 0 0)

end Sys2Proof.Machine
end

