-- ==== Sys2Proof/Machine/Ops.lean ====
section
/-! DEFINITION. The named operations that the meanings share: cores and threads, registers and ports, the
program counter, traps and freezing, reports, messages and their queues. -/

namespace Sys2Proof.Machine

/-- What a meaning answers. -/
abbrev Out := Host.Outcome State Fault Refusal

/-! ### Cores, clusters, threads -/

/-- Logical cluster of a core. -/
def clusterOf (c : CoreIx) : BitVec 8 := c.extractLsb' 7 8
/-- Core number within its cluster. -/
def coreOf (c : CoreIx) : BitVec 7 := c.extractLsb' 0 7
/-- The core of a cluster and a number. -/
def coreIx (cl : BitVec 8) (n : BitVec 7) : CoreIx := cl ++ n

def State.core (s : State) (c : CoreIx) : Core := SMap.get s.idle s.cores c.toNat
def State.setCore (s : State) (c : CoreIx) (k : Core) : State := { s with cores := SMap.set c.toNat k s.cores }
def State.modCore (s : State) (c : CoreIx) (f : Core → Core) : State := s.setCore c (f (s.core c))

def State.cluster (s : State) (cl : BitVec 8) : Cluster := SMap.get {} s.clusters cl.toNat
def State.setCluster (s : State) (cl : BitVec 8) (k : Cluster) : State :=
  { s with clusters := SMap.set cl.toNat k s.clusters }
def State.modCluster (s : State) (cl : BitVec 8) (f : Cluster → Cluster) : State :=
  s.setCluster cl (f (s.cluster cl))

def Core.thread (k : Core) (t : ThrIx) : Thread := k.threads[t.toNat]'(t.isLt)
def Core.setThread (k : Core) (t : ThrIx) (th : Thread) : Core :=
  { k with threads := k.threads.set t.toNat th (t.isLt) }

def State.getTh (s : State) (c : CoreIx) (t : ThrIx) : Thread := (s.core c).thread t
def State.putTh (s : State) (c : CoreIx) (t : ThrIx) (th : Thread) : State :=
  s.modCore c fun k => k.setThread t th
def State.modTh (s : State) (c : CoreIx) (t : ThrIx) (f : Thread → Thread) : State :=
  s.putTh c t (f (s.getTh c t))

/-- The core that executes. -/
def State.k (s : State) : Core := s.core s.cur.core
/-- The thread that executes. -/
def State.th (s : State) : Thread := s.getTh s.cur.core s.cur.thr
def State.setTh (s : State) (th : Thread) : State := s.putTh s.cur.core s.cur.thr th
def State.modK (s : State) (f : Core → Core) : State := s.modCore s.cur.core f
/-- The cluster of the core that executes. -/
def State.clx (s : State) : BitVec 8 := clusterOf s.cur.core

/-- The pod-wide name of a core (R7, R228). -/
def State.coreName (s : State) (c : CoreIx) : BitVec 27 := (s.cfg.modid ++ c).cast (by decide)
/-- The module field of a core name. -/
def modOf (n : BitVec 27) : BitVec 12 := n.extractLsb' 15 12
/-- The core within its module of a core name. -/
def ixOf (n : BitVec 27) : CoreIx := n.extractLsb' 0 15

/-- XB of a core, in bytes (R227). -/
def Core.xbBytes (k : Core) : Nat := 64 * k.xb.toNat

/-- The cores of a cluster that belong to a job: its team there (R308), in ascending core number. -/
def State.team (s : State) (cl : BitVec 8) (job : BitVec 8) : List CoreIx :=
  ((List.range 128).map fun n => coreIx cl (BitVec.ofNat 7 n)).filter fun c =>
    (s.core c).member && decide ((s.core c).job = job)

/-! ### Registers and ports (R47, R48, R218, R219) -/

/-- A pop of `in`: the next payload word; past the end, 0 and INE (R218). -/
def Thread.pop (th : Thread) : Word × Thread :=
  match th.msg with
  | some m => if th.popped < m.words.length then (m.words.getD th.popped 0, { th with popped := th.popped + 1 })
      else (0, { th with ine := true })
  | none => (0, { th with ine := true })

/-- A push to `out`: a word beyond 32 is discarded and sets OOV (R219). -/
def Thread.push (th : Thread) (x : Word) : Thread :=
  if th.out.length < 32 then { th with out := th.out ++ [x] } else { th with oov := true }

/-- A scalar register as it stands: s0 reads 0; the ports hold nothing (R47). -/
def Thread.reg (th : Thread) (r : SReg) : Word :=
  if r = 0 then 0 else th.s[r.toNat]'(r.isLt)

/-- A source field: s29 pops. -/
def Thread.rd (th : Thread) (r : SReg) : Word × Thread :=
  if r = 29 then th.pop else (th.reg r, th)

/-- Two source fields, in order. -/
def Thread.rd2 (th : Thread) (a b : SReg) : Word × Word × Thread :=
  let x := th.rd a
  let y := x.2.rd b
  (x.1, y.1, y.2)

/-- Three source fields, in order. -/
def Thread.rd3 (th : Thread) (a b c : SReg) : Word × Word × Word × Thread :=
  let x := th.rd a
  let y := x.2.rd b
  let z := y.2.rd c
  (x.1, y.1, z.1, z.2)

/-- A scalar register written, s30 aside. -/
def Thread.setReg (th : Thread) (r : SReg) (x : Word) : Thread := { th with s := th.s.set r.toNat x (r.isLt) }

/-- A destination field: s0 discards, s30 pushes (R47, R48). -/
def Thread.wr (th : Thread) (r : SReg) (x : Word) : Thread :=
  if r = 0 then th else if r = 30 then th.push x else th.setReg r x

def Thread.vreg (th : Thread) (r : VReg) : Vec := th.v[r.toNat]'(r.isLt)
def Thread.setVreg (th : Thread) (r : VReg) (x : Vec) : Thread := { th with v := th.v.set r.toNat x (r.isLt) }

/-- A predicate register: q0 reads 0xFF (R47). -/
def Thread.qreg (th : Thread) (r : QReg) : Byte := if r = 0 then 0xFF else th.q[r.toNat]'(r.isLt)
/-- A predicate register written: q0 discards (R47). -/
def Thread.setQreg (th : Thread) (r : QReg) (x : Byte) : Thread :=
  if r = 0 then th else { th with q := th.q.set r.toNat x (r.isLt) }

/-! ### The program counter (R223, R229) -/

/-- LEND of the loop context. -/
def Thread.lend (th : Thread) : Word := BitVec.ofNat 64 (4 * (th.lstart.toNat + th.llen.toNat))
/-- The byte address of the loop body. -/
def Thread.lfirst (th : Thread) : Word := BitVec.ofNat 64 (4 * th.lstart.toNat)

/-- The counters of a retired instruction (R229, R366). -/
def Thread.count (th : Thread) : Thread :=
  { th with instret := th.instret + 1, wdog := th.wdog + 1, run := .ready, begun := false, lanes := [], skip := none }

/-- An instruction of `len` bytes retires without a transfer of control: the next PC, by the back-edge of
an active loop at LEND (R223). -/
def Thread.advance (th : Thread) (len : Nat) : Thread :=
  if th.lact ∧ th.pc = th.lend then
    let n := th.lcnt - 1
    if n ≠ 0 then { th.count with lcnt := n, pc := th.lfirst }
    else { th.count with lcnt := n, lact := false, pc := th.lend + 4 }
  else { th.count with pc := th.pc + BitVec.ofNat 64 len }

/-- An instruction retires with a transfer of control: a target outside an active body ends the loop (R223). -/
def Thread.jump (th : Thread) (target : Word) : Thread :=
  let keep := decide (th.lfirst ≤ target) && decide (target ≤ th.lend)
  { th.count with pc := target, lact := th.lact && keep }

/-- The executing instruction waits: the PC stands, nothing is popped (R213). -/
def State.stall (s : State) : State := s.setTh { s.th with run := .stalled }

/-! ### Packets and reports -/

/-- The words of a payload, padded with zeros to whole flits (R109). -/
def padWords (ws : List Word) : List Word := if ws.length % 2 = 1 then ws ++ [0] else ws

/-- PLEN of a payload of words. -/
def plenOf (ws : List Word) : Nat := (ws.length + 1) / 2

/-- A packet enters the fabric. -/
def State.launch (s : State) (f : Flight) : State := { s with net := s.net ++ [f] }

/-- A message that the device forms for the system job: core 0 of cluster 0, class high, on the supervisor
control path; `src` names the forming core or cluster (R314). -/
def State.report (s : State) (src : CoreIx) (lab : Label) (ws : List Word) : State :=
  s.launch {
    p := { hdr := { dmod := s.cfg.modid, cls := .high, lab := lab, plen := BitVec.ofNat 5 (plenOf ws),
                    src := s.coreName src }, words := padWords ws },
    loc := .dest, since := s.cycle.toNat, supPath := true }

/-- A word from fields, lowest first. -/
def wordOf (fs : List (Nat × Nat)) : Word := BitVec.ofNat 64 (layOut fs)

/-- The report under label 5 (Table 14.3). -/
def State.report5 (s : State) (c : CoreIx) (t : ThrIx) (cause : Nat) (kind : Nat) (addr epc : Word) : State :=
  s.report c 5 [wordOf [((s.coreName c).toNat, 27), ((s.core c).job.toNat, 8), (t.toNat, 3), (cause, 8),
    (kind, 2), ((s.core c).frozen.toNat, 1)], addr, epc]

/-- A machine check: the record under label 6 (Table 14.4). -/
def State.machineCheck (s : State) (source : Nat) (cl : BitVec 8) (unit : Nat) (addr : Word)
    (hdr : Word × Word := (0, 0)) : State :=
  s.report (coreIx cl 0) 6 [wordOf [(source, 8), (cl.toNat, 8), (unit, 8)], addr, hdr.1, hdr.2]

/-- The two words of a header flit (Table 4.1). -/
def Header.nat (h : Header) : Nat :=
  layOut [(h.dcore.toNat, 7), (h.dcl.toNat, 8), (h.dmod.toNat, 12), (h.vn.toNat, 2), (h.cls.code, 2),
    (h.lab.toNat, 7), (h.plen.toNat, 5), (h.kind.toNat, 4), (h.src.toNat, 27), (h.job.toNat, 8),
    (h.tag.toNat, 4), (h.txid.toNat, 16), (h.stat.toNat, 4), (h.aux.toNat, 16), (h.rsvd.toNat, 6)]
def Header.lo (h : Header) : Word := BitVec.ofNat 64 (Header.nat h)
def Header.hi (h : Header) : Word := BitVec.ofNat 64 (Header.nat h / 2 ^ 64)

/-- The header of two words (Table 4.1). -/
def Header.ofNat (x : Nat) : Header :=
  { dcore := BitVec.ofNat 7 x, dcl := BitVec.ofNat 8 (fld x 7 8), dmod := BitVec.ofNat 12 (fld x 15 12),
    vn := BitVec.ofNat 2 (fld x 27 2), cls := (Cls.ofCode (fld x 29 2)).getD .bulk,
    lab := BitVec.ofNat 7 (fld x 31 7), plen := BitVec.ofNat 5 (fld x 38 5), kind := BitVec.ofNat 4 (fld x 43 4),
    src := BitVec.ofNat 27 (fld x 47 27), job := BitVec.ofNat 8 (fld x 74 8), tag := BitVec.ofNat 4 (fld x 82 4),
    txid := BitVec.ofNat 16 (fld x 86 16), stat := BitVec.ofNat 4 (fld x 102 4),
    aux := BitVec.ofNat 16 (fld x 106 16), rsvd := BitVec.ofNat 6 (fld x 122 6) }

/-- The core a packet is for, within its module. -/
def Header.dst (h : Header) : CoreIx := coreIx h.dcl h.dcore

/-! ### Traps (R354 to R361) -/

/-- The causes of Table 14.1. -/
inductive Cause where
  | illegal | misalign | nearBound | overlay | farAddr | farError | poison | xpackOvf | commitOvf
  | software | breakpoint | comparator
  deriving DecidableEq, Repr

def Cause.code : Cause → Nat
  | .illegal => 1 | .misalign => 2 | .nearBound => 3 | .overlay => 4 | .farAddr => 5 | .farError => 6
  | .poison => 7 | .xpackOvf => 8 | .commitOvf => 9 | .software => 10 | .breakpoint => 11 | .comparator => 12

/-- TCAUSE from its fields (Table 14.2). -/
def tcauseOf (c : Cause) (stat reg rf comp : Nat) : BitVec 21 :=
  BitVec.ofNat 21 (layOut [(c.code, 8), (stat, 4), (reg, 5), (rf, 2), (comp, 2)])

/-- The core stops: frozen until a RELEASE (R132, R365). -/
def State.freezeCore (s : State) (c : CoreIx) : State := s.modCore c fun k => { k with frozen := true }

/-- TAKE_TRAP for a thread: the saved registers, the handler's address, or the freeze and the report of a
core without handler or of a double trap (R357, R358, R361). -/
def State.trapAt (s : State) (c : CoreIx) (t : ThrIx) (cause : Cause) (addr epc : Word)
    (stat reg rf comp : Nat := 0) : State :=
  let th := s.getTh c t
  if th.trap then (s.freezeCore c).report5 c t cause.code 1 addr epc
  else
    let th := { th with tcause := tcauseOf cause stat reg rf comp, taddr := addr, tepc := epc, skip := none, lanes := [] }
    if (s.core c).tvEn then
      s.putTh c t { th with trap := true, pc := BitVec.ofNat 64 (4 * (s.core c).tvEntry.toNat),
                            run := .ready, begun := false }
    else ((s.putTh c t { th with pc := epc, run := .ready, begun := false }).freezeCore c).report5 c t cause.code 0 addr epc

/-- A trap of the executing instruction, with TEPC at it. -/
def State.trap (s : State) (cause : Cause) (addr : Word) (stat reg rf comp : Nat := 0) : State :=
  s.trapAt s.cur.core s.cur.thr cause addr s.th.pc stat reg rf comp

/-- The illegal-instruction trap: TADDR holds the bits of the instruction (R71). -/
def State.trapIllegal (s : State) (i : Instr) : State :=
  s.trap .illegal (BitVec.ofNat 64 ((encode i).getD 0))

/-! ### Queues, inbox, kitty (R312 to R318) -/

def Core.queue (k : Core) : Cls → List Message
  | .bulk => k.qBulk | .normal => k.qNormal | .high => k.qHigh | .trump => k.qTrump
def Core.setQueue (k : Core) (c : Cls) (q : List Message) : Core :=
  match c with
  | .bulk => { k with qBulk := q } | .normal => { k with qNormal := q }
  | .high => { k with qHigh := q } | .trump => { k with qTrump := q }

/-- Entries of a class queue (R315). -/
def queueCap : Cls → Nat
  | .trump => 16 | _ => 64

def Cls.isTrump : Cls → Bool
  | .trump => true | _ => false

/-- Flits that a message holds in the inbox. -/
def Message.flits (m : Message) : Nat := m.hdr.plen.toNat

/-- Inbox flits in use, by trump messages or by the others (R220, R315). -/
def Core.inboxUse (k : Core) (trump : Bool) : Nat :=
  let cur := k.threads.toList.filterMap fun th => th.msg
  let all := k.qBulk ++ k.qNormal ++ k.qHigh ++ k.qTrump ++ cur ++ k.drops
  (all.map fun m => if Cls.isTrump m.hdr.cls = trump then m.flits else 0).sum

/-- Whether the inbox has room for a message of its kind: 32 flits are the trump reserve (R315). -/
def Core.inboxRoom (k : Core) (m : Message) : Bool :=
  if Cls.isTrump m.hdr.cls then decide (k.inboxUse true + m.flits ≤ 32)
  else decide (k.inboxUse false + m.flits ≤ 992)

/-- Bytes of a kitty record (R316). -/
def recBytes (m : Message) : Nat := (1 + m.flits + 3) / 4 * 64

/-- Where the oldest record of the ring begins. -/
def Kitty.head (y : Kitty) : Nat := (y.recs.head?.map (·.slot)).getD y.tail

/-- Whether the kitty lacks room for a record of any size (R317, log 15). -/
def Kitty.full (y : Kitty) : Bool := decide (y.size < y.tail - y.head + 320)

/-- The place of flit i of a record, after the header flit 0. -/
def Kitty.flitAt (y : Kitty) (m : Message) (i : Nat) : Nat := y.base + (m.slot + 16 * i) % y.size

/-- Flit i of a record written: the header, a payload flit that has arrived, or zeros (R316). -/
def State.ringFlit (s : State) (y : Kitty) (m : Message) (i : Nat) : State :=
  let w (j : Nat) : Nat := if i = 0 ∨ m.arrived < i then 0 else (m.words.getD (2 * (i - 1) + j) 0).toNat
  let bs := if i = 0 then leBytes 16 (Header.nat m.hdr) else leBytes 8 (w 0) ++ leBytes 8 (w 1)
  s.storeBytes (y.flitAt m i) bs (if i = 0 ∨ m.arrived < i then [] else
    (m.poison.filter fun p => decide (p / 2 = i - 1)).map (· % 2))

/-- A message with the payload that its record in the ring holds. -/
def State.ringRead (s : State) (y : Kitty) (m : Message) : Message :=
  let at_ (i : Nat) : Nat := y.flitAt m (1 + i / 2) + 8 * (i % 2)
  let n := Nat.min m.words.length (2 * m.arrived)
  { m with words := (List.range n).map (fun i => s.word (at_ i)) ++ m.words.drop n
           poison := (List.range n).filter (fun i => s.poisoned (at_ i)) ++ m.poison.filter fun i => decide (n ≤ i) }

/-- A message written to a kitty as a record (R316); a kitty of size zero has no ring. -/
def State.kittyAdd (s : State) (y : Kitty) (m : Message) : State × Kitty :=
  let m := { m with slot := y.tail }
  (if y.size = 0 then s else (List.range (recBytes m / 16)).foldl (fun s i => s.ringFlit y m i) s,
   { y with recs := y.recs ++ [m], tail := y.tail + recBytes m })

/-- Whether a cycle has come; cycle 0 always has. -/
def passed (t now : Nat) : Bool := decide (t = 0) || decide (t ≤ now)

/-- The trigger entry of a label (Table 12.1). -/
def Core.trigger (k : Core) (l : Label) : Word := SMap.get 0 k.trig l.toNat

def trgEntry (w : Word) : Nat := fld w.toNat 0 15
def trgCls (w : Word) : Cls := (Cls.ofCode (fld w.toNat 15 2)).getD .bulk
def trgCount (w : Word) : Bool := w.getLsbD 17
/-- Instances allowed at once: 1 to 7. -/
def trgLim (w : Word) : Nat := Nat.min (fld w.toNat 18 3 + 1) 7
def trgGuard (w : Word) (cf : Byte) : Bool := decide (cf.toNat &&& fld w.toNat 21 8 = fld w.toNat 29 8)
def trgSpread (w : Word) : Bool := w.getLsbD 37
def trgEn (w : Word) : Bool := w.getLsbD 38
def trgThold (w : Word) : Nat := fld w.toNat 40 16

/-- The report under label 4 (Table 12.2). -/
def State.report4 (s : State) (c : CoreIx) (job : BitVec 8) (lab : Label) (cause : Nat) (src : BitVec 27) : State :=
  s.report c 4 [wordOf [((s.coreName c).toNat, 27), (job.toNat, 8), (lab.toNat, 7), (cause, 2)],
    BitVec.ofNat 64 src.toNat]

/-- Whether a message spills (R316). -/
def Core.spills (k : Core) (m : Message) : Bool :=
  !Cls.isTrump m.hdr.cls &&
    (decide (queueCap m.hdr.cls ≤ (k.queue m.hdr.cls).length) || !k.inboxRoom m
      || k.kitty.recs.any fun r => decide (r.hdr.cls = m.hdr.cls))

/-- Whether a kitty that has just got a record is one to report: it became full (R317). -/
def Kitty.toReport (y : Kitty) : Bool := y.full && !y.reported && decide (0 < y.size)

/-- A message at the tail of its class queue: it may start from the next cycle on (R320). -/
def State.toQueue (s : State) (c : CoreIx) (m : Message) : State :=
  s.modCore c fun k => k.setQueue m.hdr.cls (k.queue m.hdr.cls ++ [{ m with placed := s.cycle.toNat + 1 }])

/-- A message takes its place: the class queue, or the kitty; a kitty that becomes full is reported once
(R315 to R317). -/
def State.enqueue (s : State) (c : CoreIx) (m : Message) : State :=
  let k := s.core c
  if k.spills m then
    let r := s.kittyAdd k.kitty m
    if r.2.toReport then (r.1.setCore c { k with kitty := { r.2 with reported := true } }).report4 c k.job 0 2 0
    else r.1.setCore c { k with kitty := r.2 }
  else s.toQueue c m

/-- A core that cannot take a message: of a kitty of size zero the report is sent now, once (R317, R386). -/
def State.noRoom (s : State) (c : CoreIx) : State :=
  let k := s.core c
  if k.kitty.size = 0 ∧ k.kitty.reported = false then
    (s.setCore c { k with kitty := { k.kitty with reported := true } }).report4 c k.job 0 2 0
  else s

/-- A message that is dropped holds its inbox space until its last flit has arrived (R312, log 75). -/
def State.dropMsg (s : State) (c : CoreIx) (m : Message) : State :=
  if m.arrived < m.flits then s.modCore c fun k => { k with drops := k.drops ++ [m] } else s

/-- R312 from step 2 on: the trump check, COUNT or MSG mode. A completion that a COUNT entry counts and
drops leaves its command to the one that reaches the threshold (R164). -/
def State.place (s : State) (c : CoreIx) (m : Message) : State :=
  let k := s.core c
  let e := k.trigger m.hdr.lab
  if Cls.isTrump m.hdr.cls ≠ Cls.isTrump (trgCls e) then (s.dropMsg c m).report4 c m.hdr.job m.hdr.lab 1 m.hdr.src
  else if trgCount e then
    let n := SMap.get 0 k.cnt m.hdr.lab.toNat + 1
    let code := SMap.get [] k.counted m.hdr.lab.toNat ++ m.eff.cmds
    if n.toNat = trgThold e then
      (s.setCore c { k with cnt := SMap.set m.hdr.lab.toNat 0 k.cnt, counted := SMap.del m.hdr.lab.toNat k.counted }).enqueue c
        { m with eff := { m.eff with cmds := code, overflow := none } }
    else (s.dropMsg c m).modCore c fun k => { k with cnt := SMap.set m.hdr.lab.toNat n k.cnt,
                                                     counted := SMap.set m.hdr.lab.toNat code k.counted }
  else s.enqueue c m

/-- A number for a message or a command. -/
def State.fresh (s : State) : Nat × State := (s.ids, { s with ids := s.ids + 1 })

/-- A message that a core forms for itself (R220, R313). -/
def State.selfMsg (s : State) (c : CoreIx) (lab : Label) (cls : Cls) (ws : List Word) (eff : Effects := {}) : State :=
  let n := s.fresh
  let k := n.2.core c
  n.2.place c { hdr := { dcore := coreOf c, dcl := clusterOf c, dmod := s.cfg.modid, cls := cls, lab := lab,
                         plen := BitVec.ofNat 5 (plenOf ws), src := s.coreName c, job := k.job },
                words := padWords ws, arrived := plenOf ws, id := n.1, eff := eff }

/-- Whether a core can take a non-trump message now: not while its kitty is full (R317); a kitty of size zero
is full only where a spill would be needed (R386). -/
def Core.takes (k : Core) (m : Message) : Bool :=
  if k.kitty.size = 0 then !k.spills m else !k.kitty.full

/-- Whether a core sinks a message now: a trump message needs a trump entry and its flits in the reserve. -/
def Core.sinks (k : Core) (m : Message) : Bool :=
  if Cls.isTrump m.hdr.cls then decide (k.qTrump.length < 16) && k.inboxRoom m else k.takes m

/-- What a core asks for before it forms a message for itself: its class and its flits. -/
def selfShape (cls : Cls) (ws : List Word) : Message := { hdr := { cls := cls, plen := BitVec.ofNat 5 (plenOf ws) } }

/-- A core forms a message for itself, after those that it holds, or holds it (R317). -/
def State.postSelf (s : State) (c : CoreIx) (lab : Label) (cls : Cls) (ws : List Word) : State :=
  let k := s.core c
  if k.owed.isEmpty && k.sinks (selfShape cls ws) then s.selfMsg c lab cls ws
  else (s.setCore c { k with owed := k.owed ++ [(lab, cls, ws)] }).noRoom c

/-! ### Current message, start and retirement (R215, R216, R332) -/

/-- The writes of a byte from the last one that the fetch sees on. -/
def unveiled : List (Option Nat × Byte) → List (Option Nat × Byte)
  | [] => []
  | e :: es => if es.any fun x => x.1.isNone then unveiled es else e :: es

/-- A core whose fetch sees the bytes that commands wrote below XB (R158). -/
def Core.unveil (k : Core) (ids : List Nat) : Core :=
  { k with veil := k.veil.filterMap fun e =>
      let ws := unveiled (e.2.map fun w => if w.1.any ids.contains then (none, w.2) else w)
      if ws.length ≤ 1 then none else some (e.1, ws) }

/-- What takes place in the thread that dequeues a message: FFLAGS, the code bytes below XB (R35, R158, R164). -/
def State.dequeueEffects (s : State) (c : CoreIx) (t : ThrIx) (m : Message) : State :=
  (s.modTh c t fun th => { th with fflags := th.fflags ||| m.eff.flags }).modCore c fun k => k.unveil m.eff.cmds

/-- A message becomes current (R218, R332). -/
def Thread.take (th : Thread) (m : Message) : Thread := { th with msg := some m, popped := 0 }

/-- An instance starts on a thread (R215). -/
def State.startOn (s : State) (c : CoreIx) (t : ThrIx) (m : Message) : State :=
  let e := (s.core c).trigger m.hdr.lab
  let s := s.modTh c t fun th => { (th.take m) with
    pc := BitVec.ofNat 64 (4 * trgEntry e), out := [], split := false, ine := false, oov := false,
    lact := false, wdog := 0, run := .ready, opens := s.cycle.toNat + 2, inst := some (m.hdr.lab, trgCls e), begun := false, skip := none,
    ovf := none,
    pend := m.eff.overflow.map fun a => (BitVec.ofNat 8 8, 0, a) }
  s.dequeueEffects c t m

/-- A thread's instance ends: the thread is FREE, the open message and the current message are gone (R216). -/
def Thread.finish (th : Thread) : Thread :=
  { th with run := .free, inst := none, msg := none, popped := 0, out := [], trap := false, begun := false, lanes := [], reads := [],
            ovf := none, pend := none, skip := none }

/-- A failed read meets its wait points again (R137). -/
def PendingRead.again (r : PendingRead) : PendingRead := { r with met := false }

/-- The return from a trap: TRAP cleared, the next PC from TEPC; a misaligned TEPC is a double trap (R258).
After an xpack overflow the message is discarded, and an instance that had not begun retires (R178). -/
def State.eret (s : State) : State :=
  let th := s.th
  if th.tepc.toNat % 4 ≠ 0 then s.trap .misalign th.tepc
  else
    let th := { th.count with pc := th.tepc, trap := false, skip := some th.tepc, reads := th.reads.map PendingRead.again }
    match th.ovf with
    | none => s.setTh th
    | some true => s.setTh { th with msg := none, popped := 0, ovf := none }
    | some false => s.setTh th.finish

/-- The xpack-overflow trap: the message is current already; `atRecv` says where it was taken (R178). -/
def State.trapOverflow (s : State) (c : CoreIx) (t : ThrIx) (addr : Word) (atRecv : Bool) : State :=
  let s := s.trapAt c t .xpackOvf addr (s.getTh c t).pc
  s.modTh c t fun th => { th with ovf := if th.trap then some atRecv else none, pend := none }

end Sys2Proof.Machine
end

