-- ==== Sys2Proof/Machine/Operands.lean ====
section
/-! DEFINITION. Operand forms: near accesses and their checks (R84, R85), forwarding from the commit buffer
(R138, R251), global virtual addresses and their checks (R86, R87, R134), effective addresses, range entries (R91, R92). -/

namespace Sys2Proof.Machine

/-! ### Near space -/

/-- The place of the first byte of a near access of n bytes for a core, where R84 and R85 allow it. A sibling
window of Table 3.1 is an area of its own (log 16). -/
def State.nearPlace (s : State) (c : CoreIx) (e : Word) (n : Nat) : Option Nat :=
  let o := e.toNat
  let k := s.core c
  if o < 0x1000000 then
    if k.winBase * 4096 ≤ o ∧ o + n ≤ (k.winBase + k.winTiles) * 4096 ∧ o + n ≤ 0x1000000 then
      some (spadPlace (clusterOf c) o)
    else none
  else if o < 0x1C00000 then
    let off := (o - 0x1000000) % 0x18000
    let w := coreIx (clusterOf c) (BitVec.ofNat 7 ((o - 0x1000000) / 0x18000))
    let wk := s.core w
    if (w = c ∨ (wk.member = true ∧ wk.job = k.job)) ∧ off + n ≤ 0x18000 ∧ wk.xbBytes ≤ off then
      some (tcmPlace w off)
    else none
  else if 0x1F00000 ≤ o ∧ o + n ≤ 0x1F18000 ∧ k.xbBytes ≤ o - 0x1F00000 then
    some (tcmPlace c (o - 0x1F00000))
  else none

/-- Whether a place is in a core's own TCM. -/
def ownTcm (c : CoreIx) (p : Nat) : Bool := decide (placeKind p = 2) && decide (p % 2 ^ 64 / 2 ^ 17 = c.toNat)

/-- The near entries that a thread's buffer holds, oldest first: place of the word, data and mask. -/
def Thread.nearEntries (th : Thread) : List (Nat × Word × BitVec 16) :=
  (th.held.map (·.e) ++ th.buf).filterMap fun e =>
    match e with
    | .near p d m => some (p, d, m)
    | _ => none

/-- A word as the thread reads it: its own near entries over the memory's word (R251). -/
def Thread.nearWord (th : Thread) (p : Nat) (w : Word) : Word :=
  th.nearEntries.foldl (fun w e => if e.1 = p then mergeWord e.2.2 w e.2.1 else w) w

/-- The nibbles of a word that the thread's own near entries supply. -/
def Thread.nearMask (th : Thread) (p : Nat) : BitVec 16 :=
  th.nearEntries.foldl (fun m e => if e.1 = p then m ||| e.2.2 else m) 0

/-- The 8-byte word at a place as the executing thread reads it. -/
def State.nearWord (s : State) (p : Nat) : Word := s.th.nearWord p (s.word p)

/-- Whether a read of the masked nibbles of a word meets poison: the word is poisoned and the thread's own
entries do not supply them all (R252). -/
def State.nearPoison (s : State) (p : Nat) (mask : BitVec 16) : Bool :=
  s.poisoned p && decide (mask &&& ~~~ s.th.nearMask p ≠ 0)

/-- n bytes from a place on as the executing thread reads them. -/
def State.nearBytes (s : State) (p n : Nat) : List Byte :=
  let ws := (List.range ((p % 8 + n + 7) / 8)).map fun i => s.nearWord (p / 8 * 8 + 8 * i)
  ((ws.flatMap fun w => leBytes 8 w.toNat).drop (p % 8)).take n

/-! ### Far space -/

/-- The effective GVA: HOME 0xFFF becomes the issuing module (R86, R134). -/
def State.gva (s : State) (a : Word) : Word :=
  if a.extractLsb' 52 12 = 0xFFF#12 then s.cfg.modid ++ a.extractLsb' 0 52 else a

/-- The home module of a GVA. -/
def homeOf (g : Word) : BitVec 12 := g.extractLsb' 52 12
/-- The module-local virtual address of a GVA. -/
def vaOf (g : Word) : Nat := g.toNat % 2 ^ 48

/-- Whether the extent of a PODEXT value holds a module number (R114). -/
def extentHas (x m : BitVec 12) : Bool :=
  decide (fld m.toNat 0 4 ≤ fld x.toNat 0 4) && decide (fld m.toNat 4 4 ≤ fld x.toNat 4 4) && decide (fld m.toNat 8 4 ≤ fld x.toNat 8 4)

/-- Whether a module number names a module of the pod: the extent holds it, and holds this module's own coordinates
(R114); in early service the extent is 1 × 1 × 1 (R386). -/
def State.inExtent (s : State) (m : BitVec 12) : Bool :=
  let x := if s.care.svc = .early then 0 else s.cfg.podext
  extentHas x m && extentHas x s.cfg.modid

/-- Whether a module is within reach: the issuing one, or one of the pod's extent (R87). -/
def State.reaches (s : State) (m : BitVec 12) : Bool := decide (m = s.cfg.modid) || s.inExtent m

/-- The checks of R86 and R87. -/
def State.gvaOk (s : State) (g : Word) : Bool :=
  decide (g.extractLsb' 48 4 = 0#4) && s.reaches (homeOf g)

/-- The far entries of single words that a thread's buffer holds, oldest first (R138): GVA of the word,
data and mask; a `put` word by word, without the bytes that an entry before it holds newer. -/
def Thread.farEntries (th : Thread) : List (Word × Word × BitVec 16) :=
  (th.held.map (·.e) ++ th.buf).flatMap fun e =>
    match e with
    | .far g d m => [(g, d, m)]
    | .put g bs _ old => (List.range (bs.length / 8)).map fun i =>
        (g + BitVec.ofNat 64 (8 * i), BitVec.ofNat 64 (leVal ((bs.drop (8 * i)).take 8)),
          ((List.range 8).filter fun j => old.contains (8 * i + j)).foldl (fun m j => m &&& ~~~ byteMask j 1) (BitVec.allOnes 16))
    | _ => []

/-- The bytes of a far read that the thread's own buffer supplies, by position (R138). -/
def Thread.farForward (th : Thread) (g : Word) (n : Nat) : List (Nat × Byte) :=
  (List.range n).filterMap fun i =>
    let b := g + BitVec.ofNat 64 i
    let w := BitVec.ofNat 64 (b.toNat / 8 * 8)
    let o := b.toNat % 8
    th.farEntries.foldl (fun r e => if e.1 = w ∧ e.2.2.getLsbD (2 * o) then some (i, e.2.1.extractLsb' (8 * o) 8) else r) none

/-- The 8-byte words that n bytes from a GVA on touch. -/
def wordsOf (g : Word) (n : Nat) : List Nat :=
  (List.range ((g.toNat % 8 + n + 7) / 8)).map fun i => g.toNat / 8 + i

/-- Whether two byte ranges of GVAs share an 8-byte word (R136, R141). -/
def sameWords (g : Word) (n : Nat) (h : Word) (m : Nat) : Bool :=
  decide (g.toNat / 8 < (h.toNat + m + 7) / 8) && decide (h.toNat / 8 < (g.toNat + n + 7) / 8)

/-! ### Range entries (Tables 3.4, 3.5) -/

def rngV (l : Word) : Bool := l.getLsbD 0
def rngTgt (l : Word) : Nat := fld l.toNat 1 2
def rngP (l : Word) : Bool := l.getLsbD 3
def rngPerm (l : Word) : Nat := fld l.toNat 4 3
def rngJob (l : Word) : BitVec 8 := l.extractLsb' 8 8
def rngPart (l : Word) : Nat := fld l.toNat 16 4
def rngBase (l : Word) : Nat := fld l.toNat 21 27
def rngLen (h : Word) : Nat := fld h.toNat 0 27
def rngTbase (h : Word) : Nat := fld h.toNat 27 29
/-- The bits of the two words that software writes. -/
def rngLowMask : Word := 0x0000FFFFFFEFFF7F
def rngHighMask : Word := 0x00FFFFFFFFFFFFFF

/-- 2 MiB. -/
def mib2 : Nat := 2 ^ 21

/-- Whether an entry is one that matches nothing (R92). -/
def rngVoid (l h : Word) : Bool :=
  (rngP l && decide (rngTgt l ≠ 0))
    || (decide (rngTgt l = 3) && decide (rngTbase h * mib2 / 2 ^ 24 ≠ ((rngTbase h + rngLen h + 1) * mib2 - 1) / 2 ^ 24))
    || decide (2 ^ 27 < rngBase l + rngLen h + 1)

/-- Whether an entry matches a request: its job, the partition, the address (R92). -/
def rngMatch (l h : Word) (job : BitVec 8) (part va : Nat) : Bool :=
  rngV l && (decide (rngJob l = job) || decide (job = 0)) && decide (rngPart l = part)
    && decide (rngBase l * mib2 ≤ va) && decide (va < (rngBase l + rngLen h + 1) * mib2) && !rngVoid l h

/-- The entry that R92 chooses: the lowest-indexed match. -/
def State.rangeOf (s : State) (job : BitVec 8) (part va : Nat) : Option (Nat × Word × Word) :=
  s.ranges.find? fun e => rngMatch e.2.1 e.2.2 job part va

/-- Stage 1 of the translation of a memory request, as it leaves a cluster of its home module or enters it at a gateway
(R90, R92). -/
def State.stage1 (s : State) (p : Packet) (part : Nat) : Option (Nat × Word × Word) :=
  s.rangeOf p.hdr.job part (vaOf (p.words.getD 0 0))

/-! ### Message destinations -/

/-- The destination of a send: a module field of 0xFFF names the issuing module (R330). -/
def State.sendDst (s : State) (a : Word) : BitVec 27 :=
  let n : BitVec 27 := a.extractLsb' 0 27
  if modOf n = 0xFFF#12 then s.coreName (ixOf n) else n

end Sys2Proof.Machine
end

