-- ==== Sys2Proof/Machine/Translate.lean ====
section
/-! DEFINITION. Translation at the home module: range entries, page entries, the checks of PERFORM
(R90 to R97, R129, R370). -/

namespace Sys2Proof.Machine

/-! ### Partitions (R129, R130) -/

/-- The control word of partition p in force (Table 4.5). -/
def State.pctl (s : State) (p : Nat) : Word := SMap.get 0 s.cfg.pctl p
def pctlLo (w : Word) : Nat := fld w.toNat 0 4
def pctlHi (w : Word) : Nat := fld w.toNat 4 4
def pctlV (w : Word) : Bool := w.getLsbD 8
def pctlPod (w : Word) : Bool := w.getLsbD 9
def columnOf (cl : BitVec 8) : Nat := cl.toNat % 16
def rowOf (cl : BitVec 8) : Nat := cl.toNat / 16

/-- Whether a cluster lies in a partition's band. -/
def State.inBand (s : State) (p : Nat) (cl : BitVec 8) : Bool :=
  let w := s.pctl p
  pctlV w && decide (pctlLo w ≤ columnOf cl) && decide (columnOf cl ≤ pctlHi w)

/-- The partition of a cluster. -/
def State.partOf (s : State) (cl : BitVec 8) : Nat := ((List.range 16).find? fun p => s.inBand p cl).getD 0

/-- The MODS bit of a partition for a module (R130). -/
def State.modsBit (s : State) (p : Nat) (m : BitVec 12) : Bool :=
  (SMap.get (0 : Word) s.cfg.mods (64 * p + m.toNat / 64)).getLsbD (m.toNat % 64)

/-! ### Physical places (Table 3.3) -/

/-- The column of the cluster that an HBM stack is attached to (R129). -/
def stackColumn (st : Nat) : Nat := 4 * (st % 12) / 3
/-- That cluster. -/
def stackCluster (st : Nat) : BitVec 8 := BitVec.ofNat 8 ((if st < 12 then 0 else 15) * 16 + stackColumn st)

/-- Columns of a partition's band. -/
def State.columns (s : State) (p : Nat) : Nat := pctlHi (s.pctl p) + 1 - pctlLo (s.pctl p)

/-- The LPDDR channel that keeps an offset, one of the 4k channels of the band of k columns that owns it (R129): which of
them is a free value (log 29). -/
def State.lpChannel (s : State) (o : Nat) : Nat :=
  let p := s.partOf (BitVec.ofNat 8 (o / 2 ^ 39))
  let k := s.columns p
  let i := (Config.lpChannel o).toNat % (4 * k)
  16 * (i / k) + pctlLo (s.pctl p) + i % k

/-- The cluster that an LPDDR channel is attached to (R129). -/
def channelCluster (ch : Nat) : BitVec 8 := BitVec.ofNat 8 ((4 * (ch / 16) + 2) * 16 + ch % 16)

/-- The cluster of the endpoint that keeps a place (Table 3.3, R129). -/
def State.clusterOfPlace (s : State) (p : Nat) : BitVec 8 :=
  match placeKind p with
  | 1 => BitVec.ofNat 8 (p % 2 ^ 64 / 2 ^ 24)
  | 3 => BitVec.ofNat 8 (p % 2 ^ 64 / 2 ^ 22)
  | 4 => stackCluster (p % 2 ^ 64 / 2 ^ 36)
  | _ => channelCluster (s.lpChannel (p % 2 ^ 64))

/-- The number of the endpoint that keeps a place: the controller of a stack (from 1 on), a scratchpad (1000), a slice
(2000), an LPDDR channel (4000). -/
def State.endpointOfPlace (s : State) (p : Nat) : Nat :=
  match placeKind p with
  | 1 => 1000 + p % 2 ^ 64 / 2 ^ 24
  | 3 => 2000 + p % 2 ^ 64 / 2 ^ 22
  | 4 => 1 + p % 2 ^ 64 / 2 ^ 36
  | _ => 4000 + s.lpChannel (p % 2 ^ 64)

/-- The number of a translator, where it answers a request itself (log 6). -/
def translatorNo (cl : BitVec 8) : Nat := 3000 + cl.toNat

/-- The checks of PERFORM: the place of a physical address, or the status (R94, R370). `job` is the range
entry's. -/
def State.physical (s : State) (part : Nat) (job : BitVec 8) (tgt pa : Nat) : Except Nat Nat :=
  let w := s.pctl part
  let col (c : Nat) : Bool := pctlV w && decide (pctlLo w ≤ c) && decide (c ≤ pctlHi w)
  match tgt with
  | 0 =>
    if !s.care.hbmOk then .error 6
    else
      let st := pa / 2 ^ 36
      if 24 ≤ st ∨ hbmReserve ≤ pa % 2 ^ 36 ∨ !col (stackColumn st) then .error 5 else .ok (hbmPlace st (pa % 2 ^ 36))
  | 1 =>
    if !s.care.lpOk then .error 6
    else if s.columns part * 2 ^ 39 ≤ pa then .error 5 else .ok (lpddrPlace (pctlLo w * 2 ^ 39 + pa))
  | 2 =>
    let cl : BitVec 8 := BitVec.ofNat 8 (pa / 2 ^ 22)
    if 2 ^ 30 ≤ pa ∨ !s.inBand part cl then .error 5 else .ok (msramPlace cl (pa % 2 ^ 22))
  | _ =>
    let cl : BitVec 8 := BitVec.ofNat 8 (pa / 2 ^ 24)
    if 2 ^ 32 ≤ pa ∨ !s.inBand part cl ∨ (s.team cl job).isEmpty then .error 5 else .ok (spadPlace cl (pa % 2 ^ 24))

/-! ### Page entries (Table 3.8) -/

def peState (e : Word) : Nat := fld e.toNat 0 2
def peTier (e : Word) : Nat := fld e.toNat 2 1
def peFrame (e : Word) : Nat := fld e.toNat 16 28
/-- The reserved bits of a page entry. -/
def peReserved : Word := 0x00FFF0000000FFC8

/-- The physical address of the page entry of a VA under a range entry (R94). -/
def pageEntryAddr (l h : Word) (va : Nat) : Nat := rngTbase h * 4096 + (va - rngBase l * mib2) / 65536 * 8
/-- The place of a page entry. -/
def pagePlace (pa : Nat) : Nat := hbmPlace (pa / 2 ^ 36) (pa % 2 ^ 36)

/-- A page lookup: the controller's copy or the memory word, which it then holds (R97, log 19). -/
def State.pageEntry (s : State) (pl : Nat) : Word × State :=
  let m := s.word pl
  let e := match SMap.find s.pcache pl with
    | some c => if Config.usesCopy s.tick then c else m
    | none => m
  (e, { s with pcache := SMap.set pl e s.pcache })

/-- A page entry written, memory and copy together (R97). -/
def State.setPage (s : State) (pl : Nat) (e : Word) : State :=
  let s := s.storeWord pl e (BitVec.allOnes 16)
  { s with pcache := SMap.set pl e s.pcache }

/-- What translation answers. -/
inductive Trans where
  | perform (place : Nat)
  | error (status : Nat)
  /-- Parked at a stack: index of the range entry, place of the page entry, page state. -/
  | park (stack entry page state : Nat)
  deriving DecidableEq, Repr

/-- The permission bit that a packet kind needs (R93). -/
def permOf (kind : Nat) : Nat := if kind = 1 then 1 else if kind = 2 then 2 else 4

/-- PERFORM or the status, for a physical range of a target: its first and its last byte are checked (R94). -/
def State.transAt (s : State) (part : Nat) (job : BitVec 8) (bytes tgt pa : Nat) : Except Nat Nat :=
  match s.physical part job tgt pa, s.physical part job tgt (pa + bytes - 1) with
  | .ok p, .ok _ => .ok p
  | .error st, _ => .error st
  | .ok _, .error st => .error st

/-- The accessed bit of a page entry, and for a write the dirty bit, set in memory and copy (R97, Table 3.8). -/
def State.markPage (s : State) (pl : Nat) (e : Word) (kind : Nat) : State :=
  let bits : Word := if kind = 1 then 0x10 else 0x30
  if e &&& bits = bits then s
  else { s.storeWord pl (s.word pl ||| bits) (BitVec.allOnes 16) with pcache := SMap.set pl (e ||| bits) s.pcache }

/-- What stage 1 decides about a request: an error, the place of its access in an unpaged range, or the physical address of
its page entry. -/
inductive Stage1 where
  | error (status : Nat)
  | perform (place : Nat)
  | page (pa : Nat)
  deriving DecidableEq, Repr

/-- TRANSLATE up to the page lookup (R94), with the entry that stage 1 found. -/
def State.firstStage (s : State) (ent : Option (Nat × Word × Word)) (part va bytes kind : Nat) : Stage1 :=
  match ent with
  | none => .error 1
  | some (_, l, h) =>
    if (rngBase l + rngLen h + 1) * mib2 < va + bytes then .error 2
    else if rngPerm l &&& permOf kind = 0 then .error 3
    else if !rngP l then
      match s.transAt part (rngJob l) bytes (rngTgt l) (rngTbase h * mib2 + (va - rngBase l * mib2)) with
      | .ok pl => .perform pl
      | .error st => .error st
    else if va / 65536 ≠ (va + bytes - 1) / 65536 then .error 2
    else if !s.care.hbmOk then .error 6
    else .page (pageEntryAddr l h va)

/-- TRANSLATE from the page lookup on (R94): entry i, with its low word, is paged. `replay` for a request that leaves its
park slot. -/
def State.translatePaged (s : State) (i : Nat) (l : Word) (pa part va bytes kind : Nat) (replay : Bool) : Trans × State :=
  let pl := pagePlace pa
  let r := s.pageEntry pl
  if !replay && s.park.any (fun k => decide (k.page = pl)) then (.park (pa / 2 ^ 36) i pl (peState r.1), r.2)
  else match peState r.1 with
    | 0 =>
      (match s.transAt part (rngJob l) bytes (peTier r.1) (peFrame r.1 * 65536 + va % 65536) with
        | .ok p => .perform p
        | .error st => .error st, r.2.markPage pl r.1 kind)
    | 3 => (.error 4, r.2)
    | st => (.park (pa / 2 ^ 36) i pl st, r.2)

/-- TRANSLATE (R94). -/
def State.translate (s : State) (ent : Option (Nat × Word × Word)) (part va bytes kind : Nat) (replay : Bool) : Trans × State :=
  match s.firstStage ent part va bytes kind with
  | .error st => (.error st, s)
  | .perform pl => (.perform pl, s)
  | .page pa => s.translatePaged ((ent.map (·.1)).getD 0) ((ent.map (·.2.1)).getD 0) pa part va bytes kind replay

/-! ### Where stage 1 sends a request (R90, R116) -/

/-- The width in bits of an atomic's word. -/
def Packet.amoBits (p : Packet) : Nat := if fld p.hdr.aux.toNat 5 2 = 3 then 64 else 32

/-- Bytes that a request covers: what translation checks. -/
def Packet.reqBytes (p : Packet) : Nat :=
  match p.hdr.kind.toNat with
  | 1 => (p.words.getD 1 0).toNat
  | 2 => if p.hdr.plen.toNat ≤ 1 then (if p.tile.isSome then 4096 else 8) else fld p.hdr.aux.toNat 0 9
  | _ => (Packet.amoBits p) / 8

/-- Whether a request is a far write. -/
def Packet.isWrite (p : Packet) : Bool := decide (p.hdr.kind = 2) || decide (p.hdr.kind = 4)

/-- A memory request as it leaves the translator of a cluster, where it came in by a port of the router: its header names the
cluster of its endpoint, or of the controller of its page entry. The translator answers an error itself (log 6). -/
def State.aimed (s : State) (f : Flight) (cl : BitVec 8) (port : Nat) : Flight :=
  let sent (dcl : BitVec 8) (ep : Nat) (loc : Loc) (page : Option Nat) : Flight :=
    { f with p := { f.p with hdr := { f.p.hdr with dcl := dcl } }, ep := ep, loc := loc, page := page }
  match s.firstStage f.ent f.part (vaOf (f.p.words.getD 0 0)) (Packet.reqBytes f.p) f.p.hdr.kind.toNat with
  | .error _ => sent cl (translatorNo cl) .home none
  | .perform pl => sent (s.clusterOfPlace pl) (s.endpointOfPlace pl) (.router cl port) none
  | .page pa => sent (stackCluster (pa / 2 ^ 36)) (1 + pa / 2 ^ 36) (.router cl port) (some (pagePlace pa))

end Sys2Proof.Machine
end

