-- ==== Sys2Proof/Machine/Commit.lean ====
section
/-! DEFINITION. The commit buffer (R139, R151, R340 to R345), what leaves it (R140, R141, R330, R331), and the
requests and packets that cores and engines put on the fabric (R112, R119, R122, R127, R131, R132). -/

namespace Sys2Proof.Machine

/-! ### The guard (R131, R132) -/

/-- The guard at the cluster egress: system-job packets pass; a memory request to the own module passes
(R131). -/
def State.guard (s : State) (src : CoreIx) (job : BitVec 8) (memReq : Bool) (dmod : BitVec 12) (dcl : BitVec 8) : Bool :=
  let p := s.partOf (clusterOf src)
  if job = 0 then true
  else if dmod = s.cfg.modid then memReq || s.inBand p dcl
  else pctlPod (s.pctl p) && s.modsBit p dmod

/-- A packet failed the egress check: the core freezes and a report goes out under label 3 (R132). -/
def State.violation (s : State) (c : CoreIx) (job : BitVec 8) (kind : Nat) (dst : BitVec 27) : State :=
  (s.freezeCore c).report c 3
    [wordOf [((s.coreName c).toNat, 27), (job.toNat, 8), (s.partOf (clusterOf c), 4), (kind, 4)],
     BitVec.ofNat 64 dst.toNat]

/-! ### Requests (R108, R109, R119, R127) -/

/-- Flits of the reply that a request reserves (R119). -/
def reserveOf (p : Packet) : Nat :=
  match p.hdr.kind.toNat with
  | 1 => ((p.words.getD 1 0).toNat + 15) / 16 + 1
  | 3 => 2
  | 5 => 2
  | _ => 1

def Owner.isEngine : Owner → Bool
  | .engine _ | .gone => true
  | .thread _ | .saved .. => false

/-- Reply-store flits reserved by the threads of a core. -/
def Core.reserved (k : Core) (eng : Bool) : Nat :=
  ((k.reqs.filter fun r => r.owner.isEngine == eng).map fun r => reserveOf r.pkt).sum

/-- Reply-store flits reserved by the engine of a cluster. -/
def State.engineReserved (s : State) (cl : BitVec 8) : Nat :=
  ((s.cores.filter fun p => decide (p.1 / 128 = cl.toNat)).map fun p => p.2.reserved true).sum

/-- A TXID that is free at a core: the lowest (R127, log 17). -/
def State.freeTxid (s : State) (c : CoreIx) : Option (BitVec 16) :=
  let k := s.core c
  let used := k.reqs.map (·.txid) ++ (k.quarantine.filter fun q => decide (s.cycle.toNat < q.2)).map (·.1)
  ((List.range (Nat.min 65536 (used.length + 1))).find? fun n => !used.contains (BitVec.ofNat 16 n)).map (BitVec.ofNat 16)

/-- Packet spaces of a buffer: 4, or 64 of the receiving side of a Predan link; and the trump reserve of VN 0 beside them
(R118). -/
def Loc.spaces : Loc → Nat × Nat
  | .switch _ d => if d < 3 then (64, 0) else (4, 4)
  | _ => (4, 4)

/-- Whether a buffer has so many free packet spaces of a network: a packet takes one whatever its length (log 68); trump
packets may take the reserve (R118). -/
def State.roomAt (s : State) (loc : Loc) (vn : BitVec 2) (trump : Bool) (spaces : Nat) : Bool :=
  let here := s.net.filter fun g => decide (g.loc = loc ∧ g.p.hdr.vn = vn)
  let t := (here.filter fun g => Cls.isTrump g.p.hdr.cls && decide (vn = 0)).length
  let size := loc.spaces
  (trump && decide (t + spaces ≤ size.2)) || decide (here.length - t + (t - size.2) + spaces ≤ size.1)

/-- Whether a packet may be injected at a cluster: it enters a ring there (R118). -/
def State.mayInject (s : State) (cl : BitVec 8) (vn : BitVec 2) (trump : Bool) : Bool := s.roomAt (.router cl 0) vn trump 2

/-- Whether a request of so many reply flits may be injected now (R118, R119, R127). -/
def State.mayRequest (s : State) (c : CoreIx) (eng : Bool) (flits : Nat) : Bool :=
  (s.freeTxid c).isSome && s.mayInject (clusterOf c) 0 false &&
    (if eng then decide (s.engineReserved (clusterOf c) + flits ≤ 4096)
     else decide ((s.core c).reserved false + flits ≤ 512))

/-- The class of a request: a trump handler's requests travel as high (R112). -/
def reqCls : Cls → Cls
  | .trump => .high | c => c

/-- The class of the instance that runs on a thread. -/
def Thread.cls (th : Thread) : Cls := (th.inst.map (·.2)).getD .normal

/-- A memory request leaves its cluster: to its own module through the translator of the cluster (R90, R116). `stream` is
the thread and commit of a far write (R344). -/
def State.sendRequest (s : State) (c : CoreIx) (p : Packet) (stream : Option (ThrIx × Nat) := none) (again : Bool := false) : State :=
  let cl := clusterOf c
  let f : Flight := { p := p, loc := .router cl 0, since := s.cycle.toNat, part := s.partOf cl, again := again, stream := stream }
  s.launch (if p.hdr.dmod = s.cfg.modid then s.aimed { f with ent := s.stage1 p f.part } cl 0 else f)

/-- A memory request is formed and injected, or dropped at the guard: the TXID, and whether it was dropped
(R108, R131, R132). `words` are the payload words. -/
def State.request (s : State) (c : CoreIx) (owner : Owner) (job : BitVec 8) (cls : Cls) (kind : Nat)
    (words : List Word) (aux : Nat) (tile : Option Word := none) (psn : List Nat := [])
    (stream : Option (ThrIx × Nat) := none) : State × BitVec 16 × Bool :=
  let tx := (s.freeTxid c).getD 0
  let g := words.getD 0 0
  let h : Header := { dmod := homeOf g, cls := reqCls cls, plen := BitVec.ofNat 5 (Nat.min 16 (plenOf words)),
                      kind := BitVec.ofNat 4 kind, src := s.coreName c, job := job, txid := tx,
                      aux := BitVec.ofNat 16 aux }
  let p : Packet := { hdr := h, words := padWords words, tile := tile, poison := psn }
  if s.guard c job true (homeOf g) 0 then
    let s := s.modCore c fun k => { k with reqs := k.reqs ++ [{ txid := tx, pkt := p, owner := owner, sentAt := s.cycle.toNat, timer := s.cycle.toNat }] }
    (s.sendRequest c p stream, tx, false)
  else (s.violation c job kind ((homeOf g ++ (0 : BitVec 15)).cast (by decide)), tx, true)

/-! ### Fault messages (R142) -/

/-- The payload of a fault message (Table 5.3). -/
def faultWords (t : ThrIx) (status : Nat) (w : FarWrite) : List Word :=
  [w.gva, wordOf [(status, 4), (w.kind.toNat, 4), (t.toNat, 3), (w.txid.toNat, 16), (w.bytes, 9)]]

/-- A far write failed: a message under label 127, or to the system job; held while the kitty is full. -/
def State.postFault (s : State) (c : CoreIx) (ws : List Word) : State :=
  let k := s.core c
  let e := k.trigger 127
  if !trgEn e || Cls.isTrump (trgCls e) then s.report c 2 ws
  else s.postSelf c 127 .high ws

/-! ### Entries -/

/-- Whether a home lies in the scope of a mark, beyond the cluster (R152). -/
def State.farScope (s : State) (sc : Scope) (g : Word) : Bool :=
  match sc with
  | .pod => true
  | .module => decide (homeOf g = s.cfg.modid)
  | .core | .cluster => false

def Entry.isNear : Entry → Bool
  | .near .. => true | _ => false
def Entry.isMark : Entry → Bool
  | .mark _ => true | _ => false

/-- The GVA of a far write entry. -/
def Entry.farGva : Entry → Option Word
  | .far g _ _ => some g
  | .put g _ _ _ => some g
  | .amo g _ _ _ => some g
  | _ => none

/-- Buffer entries that an item takes, of the 64 (R151, R330, R340). -/
def Entry.size : Entry → Nat
  | .put _ bs _ _ => bs.length / 8
  | .msg _ _ _ _ ws _ _ => 1 + ws.length
  | .mark _ => 0
  | _ => 1

def entriesSize (es : List Entry) : Nat := (es.map Entry.size).sum
/-- Entries in use in a thread's buffer. -/
def Thread.used (th : Thread) : Nat := entriesSize th.buf + entriesSize (th.held.map (·.e))

/-- Whether nothing of earlier commits is left but marks. -/
def Thread.drained (th : Thread) : Bool := th.held.all fun h => h.e.isMark

/-- Parts of a commit: a mark divides when a near entry lies after it and a far write in its scope lies
before it and after a near entry (R152). `near` says a near entry came; `farM`, `farP` that a far write in
module, pod scope came after one. -/
def State.parts (s : State) (commit : Nat) : Nat → Bool → Bool → Bool → List Entry → List Held
  | _, _, _, _, [] => []
  | part, near, farM, farP, e :: es =>
    match e with
    | .mark sc =>
      let far := match sc with
        | .module => farM | .pod => farP | _ => false
      let part' := if far && es.any Entry.isNear then part + 1 else part
      { commit := commit, part := part', e := e } :: State.parts s commit part' near farM farP es
    | _ =>
      let far := near && e.farGva.isSome
      let inM := (e.farGva.map fun g => s.farScope .module g).getD false
      { commit := commit, part := part, e := e } ::
        State.parts s commit part (near || e.isNear) (farM || (far && inM)) (farP || far) es

/-- Whether every mark of a list of held items is passed: no far write in its scope before it is unsent, and
none that was sent awaits its final reply (R152). -/
def State.marksPassed (s : State) (wrs : List FarWrite) : List Word → List Held → Bool
  | _, [] => true
  | seen, h :: hs =>
    match h.e with
    | .mark sc => seen.all (fun g => !s.farScope sc g) && wrs.all (fun w => !s.farScope sc w.gva)
        && State.marksPassed s wrs seen hs
    | e => State.marksPassed s wrs (e.farGva.toList ++ seen) hs

/-- Marks at the head of what is held that are passed are dropped. -/
def State.pruneMarks (s : State) (wrs : List FarWrite) : List Held → List Held
  | [] => []
  | h :: hs =>
    match h.e with
    | .mark sc => if wrs.all fun w => !s.farScope sc w.gva then State.pruneMarks s wrs hs else h :: hs
    | _ => h :: hs

/-- The next near instant of a thread, when R152 and R343 allow it: the near entries of one part, applied in
commit order as one step. -/
def State.nearInstant (s : State) (c : CoreIx) (t : ThrIx) : Option State :=
  let th := s.getTh c t
  match th.held.find? fun h => h.e.isNear with
  | none => none
  | some f =>
    let mine (h : Held) : Bool := h.e.isNear && decide (h.commit = f.commit) && decide (h.part = f.part)
    let before := (th.held.reverse.dropWhile fun h => !mine h).reverse
    if s.marksPassed th.wrs [] before then
      let s := th.held.foldl (fun s h =>
        match h.e with
        | .near p d m => if mine h then s.storeWord p d m else s
        | _ => s) s
      some (s.modTh c t fun th => { th with held := s.pruneMarks th.wrs (th.held.filter fun h => !mine h) })
    else none

/-- Near instants, as many as can be made now (at most n). -/
def State.nearInstants (s : State) (c : CoreIx) (t : ThrIx) : Nat → State
  | 0 => s
  | n + 1 => match s.nearInstant c t with
    | some s' => State.nearInstants s' c t n
    | none => s

/-- A commit of a thread: every uncommitted entry, in order; near instants follow at once where they can
(R341, R343). -/
def State.commitThread (s : State) (c : CoreIx) (t : ThrIx) : State :=
  let th := s.getTh c t
  let hs := (s.parts th.commits 0 false false false th.buf).map fun h => { h with cls := th.cls }
  let th := { th with buf := [], held := s.pruneMarks th.wrs (th.held ++ hs), commits := th.commits + 1 }
  (s.putTh c t th).nearInstants c t th.held.length

/-! ### Injection (R140, R141, R331, R343) -/

/-- The gateways of a cluster's partition: those whose column lies in the band, in order (R115). -/
def State.gatewayList (s : State) (cl : BitVec 8) : List Nat :=
  let w := s.pctl (s.partOf cl)
  (List.range 8).filter fun i => decide (pctlLo w ≤ 2 * i) && decide (2 * i ≤ pctlHi w)

/-- The gateway switch that a cluster's packets for other modules use (R115). -/
def State.gatewayOf (s : State) (cl : BitVec 8) : Option Nat :=
  let gs := s.gatewayList cl
  gs[cl.toNat % gs.length]?

def State.sw (s : State) (i : Nat) : Switch := SMap.get {} s.switches i

/-- The slot of the pod cycle counter of a switch (R122). -/
def State.slot (s : State) (i : Nat) : Nat := (s.cycle + (s.sw i).podSkew).toNat / 1024

/-- The trump limits for a packet of a core's account: one in 1,024 cycles of the core, four of the egress,
the module's own slot and one per slot for other modules (R122). -/
def State.trumpOk (s : State) (c : CoreIx) (away : Bool) : Bool :=
  let now := s.cycle.toNat
  let kl := s.cluster (clusterOf c)
  let i := (s.gatewayOf (clusterOf c)).getD 0
  (match (s.core c).lastTrump with
    | some l => decide (l + 1024 ≤ now)
    | none => true)
  && decide ((kl.trumps.filter fun x => decide (now < x + 1024)).length < 4)
  && (!away || (decide (s.slot i % 256 = s.cfg.modid.toNat % 256)
      && (List.range 8).all fun j => decide ((s.sw j).trumpSlot ≠ s.slot i + 1)))

/-- A trump packet is counted against its limits. -/
def State.trumpSent (s : State) (c : CoreIx) (away : Bool) : State :=
  let now := s.cycle.toNat
  let i := (s.gatewayOf (clusterOf c)).getD 0
  let s := s.modCore c fun k => { k with lastTrump := some now }
  let s := s.modCluster (clusterOf c) fun k => { k with trumps := now :: k.trumps.filter fun x => decide (now < x + 1024) }
  if away then { s with switches := SMap.set i { s.sw i with trumpSlot := s.slot i + 1 } s.switches } else s

/-- One MSG packet of a job counts as sent (R327). -/
def State.countSent (s : State) (job : BitVec 8) : State :=
  match SMap.find s.jobs job.toNat with
  | some j => { s with jobs := SMap.set job.toNat { j with sent := j.sent + 1 } s.jobs }
  | none => s
/-- One MSG packet counts as received. -/
def State.countRecv (s : State) (job : BitVec 8) : State :=
  match SMap.find s.jobs job.toNat with
  | some j => { s with jobs := SMap.set job.toNat { j with recv := j.recv + 1 } s.jobs }
  | none => s

/-- The header of a message packet (R331, R363). -/
def State.msgHeader (s : State) (c : CoreIx) (dst : BitVec 27) (cls : Cls) (lab : Label) (tag : BitVec 4)
    (ws : List Word) (ctl : Bool) : Header :=
  { dcore := coreOf (ixOf dst), dcl := clusterOf (ixOf dst), dmod := modOf dst,
    cls := if ctl then .high else cls, lab := lab, plen := BitVec.ofNat 5 (plenOf ws),
    kind := if ctl then 11 else 0, src := s.coreName c, job := (s.core c).job, tag := tag }

/-- Whether a MSG or CTL packet of a core takes the supervisor control path: the system job's packets between partitions, and
all CTL packets within the module (R131, R363). -/
def State.controlPath (s : State) (c : CoreIx) (dst : BitVec 27) (ctl : Bool) : Bool :=
  decide (modOf dst = s.cfg.modid) &&
    (ctl || (decide ((s.core c).job = 0) && !s.inBand (s.partOf (clusterOf c)) (clusterOf (ixOf dst))))

/-- A MSG or CTL packet is injected, or dropped at the guard (R131, R363). -/
def State.injectMsg (s : State) (c : CoreIx) (dst : BitVec 27) (cls : Cls) (lab : Label) (tag : BitVec 4)
    (ws : List Word) (ctl : Bool) : State :=
  let h := s.msgHeader c dst cls lab tag ws ctl
  if s.guard c h.job false h.dmod h.dcl then
    let sup := s.controlPath c dst ctl
    let s := if ctl then s else s.countSent h.job
    let s := if Cls.isTrump h.cls then s.trumpSent c (decide (h.dmod ≠ s.cfg.modid)) else s
    s.launch { p := { hdr := h, words := padWords ws }, loc := if sup then .dest else .router (clusterOf c) 0,
               since := s.cycle.toNat, supPath := sup }
  else s.violation c h.job h.kind.toNat dst

/-- Consecutive full words from the head of what is held that one block WR may carry (R140). -/
def blockRun (commit part : Nat) (g : Nat) : List Held → List Word
  | [] => []
  | h :: hs =>
    match h.e with
    | .far a d m =>
      if a.toNat = g ∧ m = BitVec.allOnes 16 ∧ h.commit = commit ∧ h.part = part then
        d :: blockRun commit part (g + 8) hs
      else []
    | _ => []

/-- How many entries of a run go in one packet: a whole block of 64 aligned bytes stays together (R144);
beyond that the number is free (R140, log 14). -/
def combineCount (free g run : Nat) : Nat :=
  if g % 16 ≠ 0 ∨ run < 2 then 1
  else
    let want := Nat.max 1 (Nat.min free (Nat.min run 31))
    let k := if g % 64 = 0 ∧ 8 ≤ run then Nat.max 8 want else want
    let e := g + 8 * k
    let b := e / 64 * 64
    if e % 64 ≠ 0 ∧ g < b ∧ b + 64 ≤ g + 8 * run then (b - g) / 8
    else if e % 64 ≠ 0 ∧ g = b ∧ b + 64 ≤ g + 8 * run then 8
    else k

/-- A far write packet of a held entry leaves the buffer of a thread: recorded until its final reply, or failed at the
guard (R132, R141). -/
def State.sendWrite (s : State) (c : CoreIx) (t : ThrIx) (h : Held) (kind : Nat) (words : List Word) (aux bytes : Nat)
    (psn : List Nat := []) : State :=
  let r := s.request c (.thread t) (s.core c).job h.cls kind words aux none psn (some (t, h.commit))
  let w : FarWrite := { txid := r.2.1, gva := words.getD 0 0, bytes := bytes, kind := BitVec.ofNat 4 kind }
  if r.2.2 then r.1.postFault c (faultWords t 7 w)
  else r.1.modTh c t fun th => { th with wrs := th.wrs ++ [w] }

/-- Whether a far write may go out: no earlier one of the thread to a same word awaits its reply (R141), and
the request can be made. -/
def State.mayWrite (s : State) (c : CoreIx) (t : ThrIx) (g : Word) (n : Nat) : Bool :=
  (s.getTh c t).wrs.all (fun w => !sameWords g n w.gva w.bytes) && s.mayRequest c false 1

/-- A held item once a far entry of n bytes from a GVA on has left: of a `put` of the words its own bytes are the newest that
are held (R138). -/
def Held.sent (g : Word) (n : Nat) (h : Held) : Held :=
  match h.e with
  | .put a bs psn old =>
    { h with e := .put a bs psn (old.filter fun i => decide (a.toNat + i < g.toNat) || decide (g.toNat + n ≤ a.toNat + i)) }
  | _ => h

/-- Whether an entry is a far write that touches a word of a range of bytes (R350). -/
def Entry.writes (e : Entry) (g : Word) (n : Nat) : Bool :=
  match e with
  | .far a _ _ => sameWords g n a 8
  | .put a bs _ _ => sameWords g n a bs.length
  | .amo a _ dbl _ => sameWords g n a (if dbl then 8 else 4)
  | _ => false

/-- The first far or message entry of a thread leaves its buffer, when R343 admits it. -/
def State.inject (s : State) (c : CoreIx) (t : ThrIx) : Option State :=
  let th := s.getTh c t
  let pre := th.held.takeWhile fun h => h.e.isNear || h.e.isMark
  let rest := th.held.drop pre.length
  match rest with
  | [] => none
  | h :: post =>
    let keep (s : State) (hs : List Held) : State :=
      s.modTh c t fun th => { th with held := s.pruneMarks th.wrs (pre ++ hs) }
    if pre.any (fun h => h.e.isNear) || !s.marksPassed th.wrs [] pre then none
    else match h.e with
      | .far g d m =>
        let run := blockRun h.commit h.part g.toNat rest
        let k := combineCount (Config.combine s.tick) g.toNat run.length
        if s.mayWrite c t g (8 * k) then
          if k = 1 then
            some ((keep s (post.map (Held.sent g 8))).sendWrite c t h 2 [g, d] m.toNat (popc 16 m.toNat / 2))
          else some ((keep s ((rest.drop k).map (Held.sent g (8 * k)))).sendWrite c t h 2 (g :: run.take k) (8 * k) (8 * k))
        else none
      | .put g bs psn old =>
        let n := if 248 < bs.length then bs.length / 2 else bs.length
        let words := (List.range (n / 8)).map fun i => BitVec.ofNat 64 (leVal ((bs.drop (8 * i)).take 8))
        if s.mayWrite c t g n then
          let psn' := (psn.filter fun i => decide (n / 8 ≤ i)).map (· - n / 8)
          let old' := (old.filter fun i => decide (n ≤ i)).map (· - n)
          let hs := if n < bs.length then { h with e := .put (g + BitVec.ofNat 64 n) (bs.drop n) psn' old' } :: post else post
          some ((keep s hs).sendWrite c t h 2 (g :: words) n n ((psn.filter fun i => decide (i < n / 8)).map (· + 1)))
        else none
      | .amo g op dbl v =>
        if s.mayWrite c t g (if dbl then 8 else 4) then
          some ((keep s post).sendWrite c t h 4 [g, v] (op.code + 32 * (if dbl then 3 else 2)) (if dbl then 8 else 4))
        else none
      | .msg dsts cls lab tag ws rel ctl =>
        if post.any (fun n => n.e.isNear && decide (n.commit = h.commit) && decide (n.part = h.part)) then none
        else if rel && !th.wrs.isEmpty then none
        else match dsts with
          | [] => some (keep s post)
          | d :: ds =>
            let trump := Cls.isTrump cls && !ctl
            if trump && !s.trumpOk c (decide (modOf d ≠ s.cfg.modid)) then none
            else if !s.controlPath c d ctl && !s.mayInject (clusterOf c) 0 trump then none
            else
              let hs := if ds.isEmpty then post else { h with e := .msg ds cls lab tag ws rel ctl } :: post
              some ((keep s hs).injectMsg c d cls lab tag ws ctl)
      | .near .. => none
      | .mark _ => none

/-- Whether the team of a core is being saved: steps 3 to 6 of R367. -/
def State.isStopping (s : State) (c : CoreIx) : Bool :=
  (s.cluster (clusterOf c)).grace.any fun g => g.stopping && (s.core c).member && decide (g.job = (s.core c).job)

/-- One step of a thread's commit: a near instant, or an injection; nothing on a frozen core (R132, R343). -/
def State.commitStep (s : State) (c : CoreIx) (t : ThrIx) : Option State :=
  if (s.core c).frozen then none
  else match s.nearInstant c t with
    | some s' => some s'
    | none => s.inject c t

/-! ### Taking entries (R139, R151, R253, R359) -/

/-- A near store of a word in the uncommitted buffer: merged where the buffer holds the word (R253). -/
def mergeNear (p : Nat) (d : Word) (m : BitVec 16) : List Entry → Option (List Entry)
  | [] => none
  | e :: es =>
    match e with
    | .near p' d' m' =>
      if p' = p then some (.near p (mergeWord m d' d) (m' ||| m) :: es)
      else (mergeNear p d m es).map (e :: ·)
    | _ => (mergeNear p d m es).map (e :: ·)

/-- Whether a posted `amo` to a word stands in the entries (R139). -/
def hasAmo (g : Word) (es : List Entry) : Bool :=
  es.any fun e => match e with
    | .amo a _ _ _ => decide (a.toNat / 8 = g.toNat / 8)
    | _ => false

/-- The later entries of a buffer once an entry before them holds newer bytes of a word: a `put` that covers them is marked
(R138, R139). -/
def markOld (g : Word) (m : BitVec 16) (es : List Entry) : List Entry :=
  es.map fun e => match e with
    | .put a bs psn old =>
      let o := g.toNat - a.toNat
      if a.toNat ≤ g.toNat ∧ o < bs.length then
        .put a bs psn (old ++ ((List.range 8).filter fun j => m.getLsbD (2 * j)).map (o + ·))
      else e
    | _ => e

/-- A far store of a word in the uncommitted buffer: merged into an `stf` or `vstf` entry of the word unless
a posted `amo` to it stands after that entry (R139). -/
def mergeFar (g : Word) (d : Word) (m : BitVec 16) : List Entry → Option (List Entry)
  | [] => none
  | e :: es =>
    match e with
    | .far g' d' m' =>
      if g' = g ∧ !hasAmo g es then some (.far g (mergeWord m d' d) (m' ||| m) :: markOld g m es)
      else (mergeFar g d m es).map (e :: ·)
    | _ => (mergeFar g d m es).map (e :: ·)

/-- The buffer with a near store taken. -/
def Thread.takeNear (th : Thread) (p : Nat) (d : Word) (m : BitVec 16) : Thread :=
  { th with buf := (mergeNear p d m th.buf).getD (th.buf ++ [.near p d m]) }
/-- The buffer with a far store taken. -/
def Thread.takeFar (th : Thread) (g d : Word) (m : BitVec 16) : Thread :=
  { th with buf := (mergeFar g d m th.buf).getD (th.buf ++ [.far g d m]) }

/-- Goes on when n more entries fit; else the buffer commits early, or overflows in a trap handler, or the
thread waits for the room (R151, R342, R359). -/
def State.withRoom (s : State) (n : Nat) (go : State → State) : State :=
  let th := s.th
  if th.used + n ≤ 64 then go s
  else if entriesSize th.buf = 0 then s.stall
  else if th.trap then s.trap .commitOvf 0
  else
    let s := s.setTh { th with split := true }
    (s.commitThread s.cur.core s.cur.thr).stall

/-- A commit point: the commit begins, and the instruction goes on once every entry of the commit is applied
and injected (R248, R259). -/
def State.atCommit (s : State) (go : State → State) : State :=
  let th := s.th
  if th.begun then (if th.drained then go s else s.stall)
  else
    let s := (s.setTh { th with begun := true }).commitThread s.cur.core s.cur.thr
    if th.buf.isEmpty || s.th.drained then go s else s.stall

/-- A commit point of an engine or matrix command: it goes on once the near instants are made (R156, R281). -/
def State.atNearCommit (s : State) (go : State → State) : State :=
  let th := s.th
  let s := if th.begun then s else (s.setTh { th with begun := true }).commitThread s.cur.core s.cur.thr
  if s.th.held.any fun h => h.e.isNear then s.stall else go s

end Sys2Proof.Machine
end

