-- ==== Sys2Proof/Machine/Csr.lean ====
section
/-! DEFINITION. The control and status registers (R49, R225 to R229, R355, R378) and their access. -/

namespace Sys2Proof.Machine

/-- THS of a thread (Table 8.4). -/
def Thread.ths (th : Thread) (sup : Bool) (t : ThrIx) : Word :=
  wordOf [(th.split.toNat, 1), (sup.toNat, 1), (th.trap.toNat, 1), (t.toNat, 3), (th.ine.toNat, 1),
    (th.oov.toNat, 1), (th.lact.toNat, 1), (th.llen.toNat, 5), (th.lstart.toNat, 15), (0, 3), (th.lcnt.toNat, 32)]

/-- A write of THS: the RO fields keep their values (R226). -/
def Thread.setThs (th : Thread) (x : Word) : Thread :=
  { th with split := x.getLsbD 0, ine := x.getLsbD 6, oov := x.getLsbD 7, lact := x.getLsbD 8,
            llen := x.extractLsb' 9 5, lstart := x.extractLsb' 14 15, lcnt := x.extractLsb' 32 32 }

/-- TV of a core (Table 8.5). -/
def Core.tv (k : Core) : Word := wordOf [(k.tvEn.toNat, 1), (0, 1), (k.tvEntry.toNat, 15)]
/-- TEAM of a core (Table 8.6). -/
def Core.team (k : Core) : Word := wordOf [(k.rank.toNat, 7), (0, 1), (k.size.toNat, 7)]
/-- XB.BOUND as stored: a value above 0x600 is clamped (R227). -/
def clampXb (x : BitVec 11) : BitVec 11 := if 0x600 < x.toNat then 0x600 else x
/-- The bits of a comparator that software writes (Table 14.13). -/
def pccMask : Word := 0x3FFFFFD

/-- Whether an access is legal: reads of all but the comparators in user mode, writes as Table 2.2 says. -/
def csrLegal (sup wr : Bool) : Csr → Bool
  | .fflags | .frm | .ths | .cf | .tv | .tepc => true
  | .xb | .tcause | .taddr => sup || !wr
  | .pcc0 | .pcc1 | .pcc2 | .pcc3 => sup
  | .mhd0 | .mhd1 | .job | .team | .coreid | .cycle | .instret => !wr

/-- The value of a CSR for the executing thread. -/
def State.csr (s : State) : Csr → Word
  | .fflags => s.th.fflags.setWidth 64
  | .frm => s.th.frm.setWidth 64
  | .ths => s.th.ths s.k.sup s.cur.thr
  | .cf => s.k.cf.setWidth 64
  | .xb => BitVec.ofNat 64 s.k.xbBytes
  | .tv => s.k.tv
  | .tcause => s.th.tcause.setWidth 64
  | .taddr => s.th.taddr
  | .tepc => s.th.tepc
  | .mhd0 => (s.th.msg.map fun m => Header.lo m.hdr).getD 0
  | .mhd1 => (s.th.msg.map fun m => Header.hi m.hdr).getD 0
  | .job => s.k.job.setWidth 64
  | .team => s.k.team
  | .coreid => (s.coreName s.cur.core).setWidth 64
  | .cycle => s.cycle
  | .instret => s.th.instret
  | .pcc0 => s.k.pcc[0]
  | .pcc1 => s.k.pcc[1]
  | .pcc2 => s.k.pcc[2]
  | .pcc3 => s.k.pcc[3]

/-- A CSR written field by field; a read-only CSR keeps its value (R255). -/
def State.setCsr (s : State) (r : Csr) (x : Word) : State :=
  let th := s.th
  match r with
  | .fflags => s.setTh { th with fflags := x.extractLsb' 0 6 }
  | .frm => s.setTh { th with frm := x.extractLsb' 0 2 }
  | .ths => s.setTh (th.setThs x)
  | .cf => s.modK fun k => { k with cf := x.extractLsb' 0 8 }
  | .xb => s.modK fun k => { k with xb := clampXb (x.extractLsb' 6 11) }
  | .tv => s.modK fun k => { k with tvEn := x.getLsbD 0, tvEntry := x.extractLsb' 2 15 }
  | .tcause => s.setTh { th with tcause := x.extractLsb' 0 21 }
  | .taddr => s.setTh { th with taddr := x }
  | .tepc => s.setTh { th with tepc := x }
  | .pcc0 => s.modK fun k => { k with pcc := k.pcc.set 0 (x &&& pccMask) }
  | .pcc1 => s.modK fun k => { k with pcc := k.pcc.set 1 (x &&& pccMask) }
  | .pcc2 => s.modK fun k => { k with pcc := k.pcc.set 2 (x &&& pccMask) }
  | .pcc3 => s.modK fun k => { k with pcc := k.pcc.set 3 (x &&& pccMask) }
  | .mhd0 | .mhd1 | .job | .team | .coreid | .cycle | .instret => s

/-- A CSR access that writes: `f` of the old value and s[a] becomes the new value; the old value goes to d.
The write lies after the step of the loop context that the instruction's own completion makes (log 18). -/
def State.csrUpdate (s : State) (i : Instr) (d a : SReg) (r : Csr) (f : Word → Word → Word) : Out :=
  if csrLegal s.k.sup true r then
    let old := s.csr r
    let x := s.th.rd a
    let s := s.setTh (x.2.advance 4)
    let s := s.setCsr r (f old x.1)
    .next (s.setTh (s.th.wr d old))
  else .next (s.trapIllegal i)

/-- `csrr` (R255). -/
def execCsrr (d : SReg) (csr : Csr) (s : State) : Out :=
  if csrLegal s.k.sup false csr then .next (s.setTh ((s.th.advance 4).wr d (s.csr csr)))
  else .next (s.trapIllegal (.csrr d csr))
/-- `csrw` (R255). -/
def execCsrw (d a : SReg) (csr : Csr) (s : State) : Out := s.csrUpdate (.csrw d a csr) d a csr fun _ x => x
/-- `csrs` (R255). -/
def execCsrs (d a : SReg) (csr : Csr) (s : State) : Out := s.csrUpdate (.csrs d a csr) d a csr fun o x => o ||| x
/-- `csrc` (R255). -/
def execCsrc (d a : SReg) (csr : Csr) (s : State) : Out := s.csrUpdate (.csrc d a csr) d a csr fun o x => o &&& ~~~ x

/-- Whether an instruction is illegal for what the machine holds: supervisor-only instructions, CSR accesses,
`eret` outside a trap (R49, R69, R258). -/
def State.illegalNow (s : State) (i : Instr) : Bool :=
  match i with
  | .csrr _ r => !csrLegal s.k.sup false r
  | .csrw _ _ r | .csrs _ _ r | .csrc _ _ r => !csrLegal s.k.sup true r
  | .eret => !s.th.trap
  | i => i.supOnly && !s.k.sup

end Sys2Proof.Machine
end

