-- ==== Sys2Proof/Machine/Fetch.lean ====
section
/-! DEFINITION. What happens before an instruction executes: fetch under XB (R43 to R45), comparators (R378),
wait points (R137, R252), availability of the `in` port (R218, R360), in the order of R356. -/

namespace Sys2Proof.Machine

/-- The byte at a TCM offset as the fetch of a core sees it (R158). -/
def State.codeByte (s : State) (c : CoreIx) (o : Nat) : Byte :=
  match SMap.find (s.core c).veil o with
  | some (w :: _) => w.2
  | _ => s.memByte (tcmPlace c o)

/-- The 32-bit word at a TCM offset of a core. -/
def State.codeWord (s : State) (c : CoreIx) (o : Nat) : Nat :=
  leVal ((List.range 4).map fun i => s.codeByte c (o + i))

/-- What the fetch at the PC of a thread gives: the address at or above XB that stops it, or the words. -/
inductive Fetched where
  | overlay (addr : Word)
  | words (w0 w1 : Nat)
  deriving DecidableEq, Repr

/-- An instruction is fetched whole, below XB (R45). -/
def State.fetch (s : State) (c : CoreIx) (pc : Word) : Fetched :=
  let xb := (s.core c).xbBytes
  if xb ≤ pc.toNat then .overlay pc
  else
    let w0 := s.codeWord c pc.toNat
    if isLongWord w0 then
      if xb ≤ pc.toNat + 4 then .overlay (pc + 4) else .words w0 (s.codeWord c (pc.toNat + 4))
    else .words w0 0

/-- Whether comparator word w matches an address on a thread (Table 14.13). -/
def pccMatch (w : Word) (pc : Word) (t : ThrIx) : Bool :=
  w.getLsbD 0 && decide (pc.toNat = 4 * fld w.toNat 2 15) && w.getLsbD (17 + t.toNat)

/-- The lowest-numbered comparator that matches; none right after an `eret` or a RELEASE to the address
(R356, R378). -/
def State.comparator (s : State) (c : CoreIx) (t : ThrIx) : Option (Nat × Word) :=
  let th := s.getTh c t
  if th.skip = some th.pc then none
  else ((List.range 4).zip (s.core c).pcc.toList).find? fun p => pccMatch p.2 th.pc t

/-- Whether an instruction names a scalar register in any field; `jal` and `btag` write lk. -/
def Instr.names (i : Instr) (r : SReg) : Bool :=
  decide (r ≠ 0) &&
    (i.srcs.contains r || i.dst == some r || i.both == some r ||
      (decide (r = 31) && match i with
        | .jal _ | .btag _ => true
        | _ => false))

/-- The instructions that wait for every earlier read (R137). -/
def Instr.waitsAll : Instr → Bool
  | .fence _ | .ret | .jdone | .eret => true
  | _ => false

/-- The far reads. -/
def Instr.isFarRead : Instr → Bool
  | .ldf .. | .vldf .. | .get .. => true
  | _ => false

/-- Whether a pending read is one that counts as outstanding (R136). -/
def PendingRead.outstanding (r : PendingRead) : Bool := r.failed.isNone && decide (r.kind ≠ .near)

/-- Whether an instruction is at or past the wait point of a read (R137, R252). -/
def atWait (i : Instr) (r : PendingRead) : Bool :=
  Instr.waitsAll i || (r.ninth && Instr.isFarRead i) ||
    match r.dest with
    | .none => false
    | .out => true
    | .s d => Instr.names i d
    | .v d _ => i.vregs.contains d

/-- What stops an instruction before it executes. -/
inductive Hold where
  | go
  | stall
  /-- A failed read is at its wait point. -/
  | failed (r : PendingRead)
  /-- A pop meets a poisoned payload word, of this index. -/
  | poison (index : Nat)
  deriving DecidableEq, Repr

/-- The wait points of the reads of a thread: all that the instruction waits for are complete before the oldest of
those that failed traps (R137, R356). -/
def waitHold (i : Instr) (rs : List PendingRead) : Hold :=
  let ws := rs.filter fun r => atWait i r && !r.met
  if ws.any fun r => r.failed.isNone then .stall
  else match ws with
    | [] => .go
    | r :: _ => .failed r

/-- The pops of an instruction, in field order: each waits for its flit, and stops at poison (R218, R360). -/
def popHold (m : Message) : Nat → Nat → Hold
  | _, 0 => .go
  | k, n + 1 =>
    if m.words.length ≤ k then popHold m (k + 1) n
    else if m.arrived ≤ k / 2 then .stall
    else if m.poison.contains k then .poison k
    else popHold m (k + 1) n

/-- The pops of an instruction. -/
def Instr.pops (i : Instr) : Nat := (i.srcs.filter fun r => decide (r = 29)).length

/-- The `in` port of a thread for an instruction. -/
def portHold (th : Thread) (i : Instr) : Hold :=
  match th.msg with
  | some m => popHold m th.popped (Instr.pops i)
  | none => .go

/-- A read beside one that traps at the wait point of both. -/
def PendingRead.besides (i : Instr) (r : PendingRead) : PendingRead :=
  if atWait i r && r.failed.isSome then { r with met := true } else r

/-- The trap of a failed read at its wait point: the read is no longer pending, the others that failed meet theirs again
after `eret` (R137, R252). -/
def State.trapRead (s : State) (i : Instr) (r : PendingRead) : State :=
  let th := s.th
  let s := s.setTh { th with reads := (th.reads.erase r).map (PendingRead.besides i) }
  let reg := match r.dest with
    | .s d => (d.toNat, 1) | .v d _ => (d.toNat, 2) | .out => (30, 1) | .none => (0, 1)
  match r.failed with
  | some (.status st) => s.trap .farError r.addr st.toNat reg.1 reg.2
  | _ => s.trap .poison r.addr 0 reg.1 reg.2

/-- What holds the executing thread's next instruction. -/
def State.holdOf (s : State) (i : Instr) : Hold :=
  let th := s.th
  match waitHold i th.reads with
  | .go =>
    if Instr.isFarRead i && decide (8 ≤ (th.reads.filter PendingRead.outstanding).length) then .stall
    else portHold th i
  | h => h

/-- The oldest outstanding far read is marked as one that a ninth waits for (R136). -/
def markNinth : List PendingRead → List PendingRead
  | [] => []
  | r :: rs => if r.outstanding then { r with ninth := true } :: rs else r :: markNinth rs

/-- A stall before execution; a ninth far read marks the oldest. -/
def State.stallFor (s : State) (i : Instr) : State :=
  let th := s.th
  let full := Instr.isFarRead i && decide (8 ≤ (th.reads.filter PendingRead.outstanding).length)
  s.setTh { th with run := .stalled, reads := if full then markNinth th.reads else th.reads }

/-- The thread becomes the one that executes. -/
def State.enter (s : State) (c : CoreIx) (t : ThrIx) : State := { s with cur := { core := c, thr := t } }

/-- The core has issued from a thread (R322). -/
def State.issued (s : State) : State :=
  s.modK fun k => { k with lastIssue := s.cycle.toNat + 1, rot := if s.cur.thr = 7 then k.rot else s.cur.thr }

end Sys2Proof.Machine
end

