-- ==== Sys2Proof/Machine/Flags.lean ====
section
/-! DEFINITION. Flag computations: the rounding mode of an instruction (R27, R28), flags ORed into FFLAGS
(R33, R34), saturation, and conditions (R55, R244). -/

namespace Sys2Proof.Machine

/-- The mode of FRM.RM (Table 1.7). -/
def frmMode (rm : BitVec 2) : RMode :=
  match rm.toNat with
  | 0 => .rne | 1 => .rz | 2 => .rup | _ => .rdn

/-- The mode a rounding selector names; SR has its own value at each use (Table 1.6). -/
def Rm.mode (frm : BitVec 2) (g : BitVec 16) : Rm → RMode
  | .rne => .rne | .rz => .rz | .rup => .rup | .rdn => .rdn
  | .dyn => frmMode frm
  | .sr => .sr g.toNat

/-- Flags ORed into FFLAGS as the instruction retires (R34). -/
def Thread.raise (th : Thread) (f : Flags) : Thread := { th with fflags := th.fflags ||| f }

/-- A saturating signed result of width w and whether it clamped (R18). -/
def satS (w : Nat) (z : Int) : Nat × Flags := IFmt.clamp { w := w, signed := true } z
/-- A saturating unsigned result. -/
def satU (w : Nat) (z : Int) : Nat × Flags := IFmt.clamp { w := w, signed := false } z

/-- Conditions of compares (R242). -/
def Cond.holds (c : Cond) (a b : Word) : Bool :=
  match c with
  | .eq => decide (a = b)
  | .ne => decide (a ≠ b)
  | .lt => a.slt b
  | .ge => !a.slt b
  | .ltu => a.ult b
  | .geu => !a.ult b
  | .tst => decide (a &&& b ≠ 0)
  | .ntst => decide (a &&& b = 0)

/-- Quantifiers of branches over the 8 bits of a predicate register (R244). -/
def Quant.holds (n : Quant) (q : Byte) : Bool :=
  match n with
  | .any => decide (q ≠ 0)
  | .all => decide (q = 0xFF)
  | .none => decide (q = 0)
  | .nall => decide (q ≠ 0xFF)

end Sys2Proof.Machine
end

