-- ==== Sys2Proof/Machine/Scalar.lean ====
section
/-! DEFINITION. The scalar instructions of chapter 9 that only compute: integer ALU, floating point,
immediates, bit fields, compares, `sel` and `lea` (R236 to R243). -/

namespace Sys2Proof.Machine

/-- Two sources, one result, no flag (R234). -/
def State.alu2 (s : State) (d a b : SReg) (f : Word → Word → Word) : Out :=
  let x := s.th.rd2 a b
  .next (s.setTh ((x.2.2.advance 4).wr d (f x.1 x.2.1)))

/-- One source, one result, no flag. -/
def State.alu1 (s : State) (d a : SReg) (f : Word → Word) : Out :=
  let x := s.th.rd a
  .next (s.setTh ((x.2.advance 4).wr d (f x.1)))

/-- Two sources, one result with flags (R34). -/
def State.alu2f (s : State) (d a b : SReg) (f : Word → Word → Nat × Flags) : Out :=
  let x := s.th.rd2 a b
  let r := f x.1 x.2.1
  .next (s.setTh (((x.2.2.advance 4).wr d (BitVec.ofNat 64 r.1)).raise r.2))

/-- Three sources, one result. -/
def State.alu3 (s : State) (d a b c : SReg) (f : Word → Word → Word → Word) : Out :=
  let x := s.th.rd3 a b c
  .next (s.setTh ((x.2.2.2.advance 4).wr d (f x.1 x.2.1 x.2.2.1)))

/-- Bits [127:64] of a product of integers (R236). -/
def mulHigh (x y : Int) : Word := BitVec.ofInt 64 (x * y / (2 ^ 64 : Nat))

/-- The shift amount of a register operand: its low six bits. -/
def shamt (b : Word) : Nat := b.toNat % 64

/-- 64-bit signed and unsigned formats of the division rows. -/
def s64 : IFmt := { w := 64, signed := true }
def u64 : IFmt := { w := 64, signed := false }

/-- `add` (R236). -/
def execAdd (d a b : SReg) (s : State) : Out := s.alu2 d a b fun x y => x + y
/-- `sub` (R236). -/
def execSub (d a b : SReg) (s : State) : Out := s.alu2 d a b fun x y => x - y
/-- `mul` (R236). -/
def execMul (d a b : SReg) (s : State) : Out := s.alu2 d a b fun x y => x * y
/-- `mulh` (R236). -/
def execMulh (d a b : SReg) (s : State) : Out := s.alu2 d a b fun x y => mulHigh x.toInt y.toInt
/-- `mulhu` (R236). -/
def execMulhu (d a b : SReg) (s : State) : Out := s.alu2 d a b fun x y => mulHigh x.toNat y.toNat
/-- `mulhsu` (R236). -/
def execMulhsu (d a b : SReg) (s : State) : Out := s.alu2 d a b fun x y => mulHigh x.toInt y.toNat
/-- `div` (R236). -/
def execDiv (d a b : SReg) (s : State) : Out := s.alu2 d a b fun x y => BitVec.ofNat 64 (quotient s64 x.toNat y.toNat)
/-- `divu` (R236). -/
def execDivu (d a b : SReg) (s : State) : Out := s.alu2 d a b fun x y => BitVec.ofNat 64 (quotient u64 x.toNat y.toNat)
/-- `rem` (R236). -/
def execRem (d a b : SReg) (s : State) : Out := s.alu2 d a b fun x y => BitVec.ofNat 64 (remainder s64 x.toNat y.toNat)
/-- `remu` (R236). -/
def execRemu (d a b : SReg) (s : State) : Out := s.alu2 d a b fun x y => BitVec.ofNat 64 (remainder u64 x.toNat y.toNat)
/-- `and` (R236). -/
def execAnd (d a b : SReg) (s : State) : Out := s.alu2 d a b fun x y => x &&& y
/-- `or` (R236). -/
def execOr (d a b : SReg) (s : State) : Out := s.alu2 d a b fun x y => x ||| y
/-- `xor` (R236). -/
def execXor (d a b : SReg) (s : State) : Out := s.alu2 d a b fun x y => x ^^^ y
/-- `andn` (R236). -/
def execAndn (d a b : SReg) (s : State) : Out := s.alu2 d a b fun x y => x &&& ~~~ y
/-- `orn` (R236). -/
def execOrn (d a b : SReg) (s : State) : Out := s.alu2 d a b fun x y => x ||| ~~~ y
/-- `sll` (R236). -/
def execSll (d a b : SReg) (s : State) : Out := s.alu2 d a b fun x y => x <<< shamt y
/-- `srl` (R236). -/
def execSrl (d a b : SReg) (s : State) : Out := s.alu2 d a b fun x y => x >>> shamt y
/-- `sra` (R236). -/
def execSra (d a b : SReg) (s : State) : Out := s.alu2 d a b fun x y => x.sshiftRight (shamt y)
/-- `rol` (R236). -/
def execRol (d a b : SReg) (s : State) : Out := s.alu2 d a b fun x y => x.rotateLeft (shamt y)
/-- `ror` (R236). -/
def execRor (d a b : SReg) (s : State) : Out := s.alu2 d a b fun x y => x.rotateRight (shamt y)
/-- `min` (R236). -/
def execMin (d a b : SReg) (s : State) : Out := s.alu2 d a b fun x y => if x.slt y then x else y
/-- `minu` (R236). -/
def execMinu (d a b : SReg) (s : State) : Out := s.alu2 d a b fun x y => if x.ult y then x else y
/-- `max` (R236). -/
def execMax (d a b : SReg) (s : State) : Out := s.alu2 d a b fun x y => if x.slt y then y else x
/-- `maxu` (R236). -/
def execMaxu (d a b : SReg) (s : State) : Out := s.alu2 d a b fun x y => if x.ult y then y else x
/-- `adds` (R236). -/
def execAdds (d a b : SReg) (s : State) : Out := s.alu2f d a b fun x y => satS 64 (x.toInt + y.toInt)
/-- `subs` (R236). -/
def execSubs (d a b : SReg) (s : State) : Out := s.alu2f d a b fun x y => satS 64 (x.toInt - y.toInt)
/-- `addsu` (R236). -/
def execAddsu (d a b : SReg) (s : State) : Out := s.alu2f d a b fun x y => satU 64 ((x.toNat : Int) + y.toNat)
/-- `subsu` (R236). -/
def execSubsu (d a b : SReg) (s : State) : Out := s.alu2f d a b fun x y => satU 64 ((x.toNat : Int) - y.toNat)
/-- `clz` (R236). -/
def execClz (d a : SReg) (s : State) : Out := s.alu1 d a fun x => BitVec.ofNat 64 (clz 64 x.toNat)
/-- `ctz` (R236). -/
def execCtz (d a : SReg) (s : State) : Out := s.alu1 d a fun x => BitVec.ofNat 64 (ctz 64 x.toNat)
/-- `popc` (R236). -/
def execPopc (d a : SReg) (s : State) : Out := s.alu1 d a fun x => BitVec.ofNat 64 (popc 64 x.toNat)
/-- `bswap` (R236). -/
def execBswap (d a : SReg) (s : State) : Out := s.alu1 d a fun x => bswap x

/-- The element of a format in the low bits of a register (R237). -/
def lowElem (f : FF) (x : Word) : Nat := x.toNat % 2 ^ f.width

/-- A scalar floating-point instruction that rounds (R237). -/
def State.fp2 (s : State) (f : FFmt) (rm : Rm) (d a b : SReg) (op : FF → RMode → Nat → Nat → Nat × Flags) : Out :=
  let mode := Rm.mode s.th.frm 0 rm
  s.alu2f d a b fun x y => op (FFmt.ff f) mode (lowElem (FFmt.ff f) x) (lowElem (FFmt.ff f) y)

/-- `fadd` (R237). -/
def execFadd (f : FFmt) (rm : Rm) (d a b : SReg) (s : State) : Out := s.fp2 f rm d a b FF.add
/-- `fsub` (R237). -/
def execFsub (f : FFmt) (rm : Rm) (d a b : SReg) (s : State) : Out := s.fp2 f rm d a b FF.sub
/-- `fmul` (R237). -/
def execFmul (f : FFmt) (rm : Rm) (d a b : SReg) (s : State) : Out := s.fp2 f rm d a b FF.mul
/-- `fmin` (R37, R237). -/
def execFmin (f : FFmt) (d a b : SReg) (s : State) : Out :=
  s.alu2f d a b fun x y => FF.minmax (FFmt.ff f) false false (lowElem (FFmt.ff f) x) (lowElem (FFmt.ff f) y)
/-- `fmax` (R37, R237). -/
def execFmax (f : FFmt) (d a b : SReg) (s : State) : Out :=
  s.alu2f d a b fun x y => FF.minmax (FFmt.ff f) true false (lowElem (FFmt.ff f) x) (lowElem (FFmt.ff f) y)
/-- `fminn` (R37, R237). -/
def execFminn (f : FFmt) (d a b : SReg) (s : State) : Out :=
  s.alu2f d a b fun x y => FF.minmax (FFmt.ff f) false true (lowElem (FFmt.ff f) x) (lowElem (FFmt.ff f) y)
/-- `fmaxn` (R37, R237). -/
def execFmaxn (f : FFmt) (d a b : SReg) (s : State) : Out :=
  s.alu2f d a b fun x y => FF.minmax (FFmt.ff f) true true (lowElem (FFmt.ff f) x) (lowElem (FFmt.ff f) y)

/-- `bool3`: the third operand is d itself (R239). -/
def execBool3 (d a b : SReg) (tab : BitVec 8) (s : State) : Out := s.alu2 d a b fun x y => bool3 tab (s.th.reg d) x y

/-- The funnel shifts of W = a·2^64 + b (R240). -/
def fshl (n : Nat) (x y : Word) : Word := BitVec.ofNat 64 ((x.toNat * 2 ^ 64 + y.toNat) <<< n / 2 ^ 64)
def fshr (n : Nat) (x y : Word) : Word := BitVec.ofNat 64 ((x.toNat * 2 ^ 64 + y.toNat) >>> n)
/-- `fshl` by an immediate. -/
def execFshlImm (d a b : SReg) (sh : BitVec 6) (s : State) : Out := s.alu2 d a b (fshl sh.toNat)
/-- `fshr` by an immediate. -/
def execFshrImm (d a b : SReg) (sh : BitVec 6) (s : State) : Out := s.alu2 d a b (fshr sh.toNat)
/-- `fshl` by a register. -/
def execFshlReg (d a b c : SReg) (s : State) : Out := s.alu3 d a b c fun x y n => fshl (shamt n) x y
/-- `fshr` by a register. -/
def execFshrReg (d a b c : SReg) (s : State) : Out := s.alu3 d a b c fun x y n => fshr (shamt n) x y

/-- Bits [pos + len - 1 : pos] of a word. -/
def bitField (x : Word) (pos len : Nat) : Nat := x.toNat / 2 ^ pos % 2 ^ len
/-- `ext` (R241). -/
def execExt (d a : SReg) (pos len1 : BitVec 6) (s : State) : Out :=
  s.alu1 d a fun x => BitVec.ofInt 64 (toSigned (len1.toNat + 1) (bitField x pos.toNat (len1.toNat + 1)))
/-- `extn` (R241). -/
def execExtn (d a : SReg) (pos len1 : BitVec 6) (s : State) : Out :=
  s.alu1 d a fun x => BitVec.ofNat 64 (bitField x pos.toNat (len1.toNat + 1))
/-- `ins` (R241). -/
def execIns (d a : SReg) (pos len1 : BitVec 6) (s : State) : Out :=
  let m : Word := BitVec.ofNat 64 ((2 ^ (len1.toNat + 1) - 1) * 2 ^ pos.toNat)
  s.alu1 d a fun x => (s.th.reg d &&& ~~~ m) ||| ((x <<< pos.toNat) &&& m)

/-- `addi` (R238). -/
def execAddi (d a : SReg) (imm : BitVec 16) (s : State) : Out := s.alu1 d a fun x => x + sextW imm
/-- `andi` (R238). -/
def execAndi (d a : SReg) (imm : BitVec 16) (s : State) : Out := s.alu1 d a fun x => x &&& sextW imm
/-- `ori` (R238). -/
def execOri (d a : SReg) (imm : BitVec 16) (s : State) : Out := s.alu1 d a fun x => x ||| zextW imm
/-- `xori` (R238). -/
def execXori (d a : SReg) (imm : BitVec 16) (s : State) : Out := s.alu1 d a fun x => x ^^^ zextW imm
/-- `slli` (R238). -/
def execSlli (d a : SReg) (sh : BitVec 6) (s : State) : Out := s.alu1 d a fun x => x <<< sh.toNat
/-- `srli` (R238). -/
def execSrli (d a : SReg) (sh : BitVec 6) (s : State) : Out := s.alu1 d a fun x => x >>> sh.toNat
/-- `srai` (R238). -/
def execSrai (d a : SReg) (sh : BitVec 6) (s : State) : Out := s.alu1 d a fun x => x.sshiftRight sh.toNat
/-- `rori` (R238). -/
def execRori (d a : SReg) (sh : BitVec 6) (s : State) : Out := s.alu1 d a fun x => x.rotateRight sh.toNat

/-- A constant written, by an instruction of `len` bytes. -/
def State.const (s : State) (len : Nat) (d : SReg) (x : Word) : Out := .next (s.setTh ((s.th.advance len).wr d x))
/-- `lui` (R238). -/
def execLui (d : SReg) (imm : BitVec 21) (s : State) : Out := s.const 4 d (sextW imm <<< 16)
/-- `li`, a long form (R238). -/
def execLi (d : SReg) (imm : BitVec 48) (s : State) : Out := s.const 8 d (sextW imm)

/-- A compare's result: all eight bits of qd (R242). -/
def truth (b : Bool) : Byte := if b then 0xFF else 0
/-- `cmp` (R242). -/
def execCmp (qd : QReg) (cond : Cond) (a b : SReg) (s : State) : Out :=
  let x := s.th.rd2 a b
  .next (s.setTh ((x.2.2.advance 4).setQreg qd (truth (Cond.holds cond x.1 x.2.1))))
/-- The immediate of `cmpi`: zero-extended under the unsigned conditions (R51). -/
def cmpImm (cond : Cond) (imm : BitVec 14) : Word :=
  match cond with
  | .ltu | .geu => zextW imm
  | _ => sextW imm
/-- `cmpi` (R242). -/
def execCmpi (qd : QReg) (cond : Cond) (a : SReg) (imm : BitVec 14) (s : State) : Out :=
  let x := s.th.rd a
  .next (s.setTh ((x.2.advance 4).setQreg qd (truth (Cond.holds cond x.1 (cmpImm cond imm)))))
/-- `sel`: both sources are read (R243). -/
def execSel (d : SReg) (q : QReg) (a b : SReg) (s : State) : Out :=
  s.alu2 d a b fun x y => if s.th.qreg q ≠ 0 then x else y
/-- `lea` (R243). -/
def execLea (d a b : SReg) (sh : BitVec 3) (s : State) : Out := s.alu2 d a b fun x y => x + (y <<< sh.toNat)

end Sys2Proof.Machine
end

