-- ==== Sys2Proof/Machine/Control.lean ====
section
/-! DEFINITION. Control flow and the system group: branches, jumps, `loop`, `ret`, traps, `eret`, `commit`,
`wait` (R244 to R249, R256 to R260), and the retirement of an instance (R216, R248, R335). -/

namespace Sys2Proof.Machine

/-- A PC-relative target (R46). -/
def target {w : Nat} (pc : Word) (off : BitVec w) : Word := pc + (sextW off <<< 2)

/-- `br` (R244). -/
def execBr (q : QReg) (qn : Quant) (off : BitVec 21) (s : State) : Out :=
  if Quant.holds qn (s.th.qreg q) then .next (s.setTh (s.th.jump (target s.th.pc off)))
  else .next (s.setTh (s.th.advance 4))
/-- `j` (R245). -/
def execJ (off : BitVec 26) (s : State) : Out := .next (s.setTh (s.th.jump (target s.th.pc off)))
/-- `jal`: lk receives PC + 4 (R245). -/
def execJal (off : BitVec 26) (s : State) : Out :=
  .next (s.setTh ((s.th.jump (target s.th.pc off)).wr 31 (s.th.pc + 4)))
/-- `jalr`: a misaligned target traps before the register is written (R245). -/
def execJalr (d a : SReg) (imm : BitVec 16) (s : State) : Out :=
  let x := s.th.rd a
  let t := x.1 + sextW imm
  if t.toNat % 4 ≠ 0 then .next (s.trap .misalign t)
  else .next (s.setTh ((x.2.jump t).wr d (s.th.pc + 4)))
/-- `btag` (R247). -/
def execBtag (off : BitVec 21) (s : State) : Out := s.const 4 31 (target s.th.pc off)

/-- Whether the word at LEND of a loop body that starts at the next word begins a long form; a word at or
above XB is not read (R59, R249). -/
def State.loopEndsLong (s : State) (n : Nat) : Bool :=
  let e := s.th.pc.toNat + 4 * (n + 1)
  decide (e < s.k.xbBytes) && isLongWord (s.codeWord s.cur.core e)

/-- `loop` with its count: the context, or the skip of the body (R249). `th` is the thread after the pops. -/
def State.loop (s : State) (i : Instr) (n : BitVec 5) (count : BitVec 32) (th : Thread) : Out :=
  if count = 0 then
    .next (s.setTh { th.count with lact := false, pc := th.pc + BitVec.ofNat 64 (4 * (n.toNat + 2)) })
  else if s.loopEndsLong n.toNat then .next (s.trapIllegal i)
  else .next (s.setTh { th.count with lstart := (th.pc + 4).extractLsb' 2 15, llen := n, lcnt := count,
                                      lact := true, pc := th.pc + 4 })
/-- `loop` by a register count. -/
def execLoopReg (n : BitVec 5) (a : SReg) (s : State) : Out :=
  let x := s.th.rd a
  s.loop (.loopReg n a) n (x.1.extractLsb' 0 32) x.2
/-- `loop` by an immediate count. -/
def execLoopImm (n : BitVec 5) (cnt : BitVec 20) (s : State) : Out :=
  s.loop (.loopImm n cnt) n (cnt.setWidth 32) s.th

/-- The instance retires (R216). The instruction that ends it counts (R229). -/
def State.retire (s : State) : State := s.setTh s.th.count.finish
/-- `ret`: a commit point, then the end of the instance (R248). -/
def execRet (s : State) : Out := .next (s.atCommit fun s => s.retire)
/-- The job marked DONE (R335). -/
def State.markDone (s : State) : State :=
  match SMap.find s.jobs s.k.job.toNat with
  | some j => { s with jobs := SMap.set s.k.job.toNat { j with done := true } s.jobs }
  | none => s
/-- `jdone` (R335). -/
def execJdone (s : State) : Out := .next (s.atCommit fun s => s.markDone.retire)

/-- `nop` (R256). -/
def execNop (s : State) : Out := .next (s.setTh (s.th.advance 4))
/-- `yield`: the thread goes last in the rotation, which changes timing only (R256). -/
def execYield (s : State) : Out := .next (s.setTh (s.th.advance 4))
/-- `trap`: TEPC is PC + 4 (R257). -/
def execTrap (imm : BitVec 16) (s : State) : Out :=
  .next (s.trapAt s.cur.core s.cur.thr .software (zextW imm) (s.th.pc + 4))
/-- `brk` (R257). -/
def execBrk (imm : BitVec 16) (s : State) : Out := .next (s.trap .breakpoint (zextW imm))
/-- `eret`, legal only in a trap handler (R258). -/
def execEret (s : State) : Out :=
  if s.th.trap then .next s.eret else .next (s.trapIllegal .eret)
/-- `commit` (R259). -/
def execCommit (s : State) : Out := .next (s.atCommit fun s => s.setTh (s.th.advance 4))
/-- `wait`: SLEEPING until CYCLE reaches the deadline (R260). -/
def execWait (a : SReg) (s : State) : Out :=
  let x := s.th.rd a
  if x.1.toNat ≤ s.cycle.toNat then .next (s.setTh (x.2.advance 4))
  else .next (s.setTh { x.2 with run := .wait x.1 })

/-- The far writes that a fence of a scope waits for (R152). -/
def State.fenceWaits (s : State) (sc : Scope) : Bool := s.th.wrs.any fun w => s.farScope sc w.gva
/-- `fence`: waits for the far writes injected before it, then places its mark (R152). -/
def execFence (scope : Scope) (s : State) : Out :=
  if s.fenceWaits scope then .next s.stall
  else
    let th := s.th.advance 4
    let mark := decide (scope = .module ∨ scope = .pod)
    .next (s.setTh { th with buf := if mark then th.buf ++ [.mark scope] else th.buf })

/-- The word or words at the PC are no instruction: the trap, and no other effect (R70, R71). -/
def execIllegalInstruction (bits : BitVec 64) (s : State) : Out := .next (s.trap .illegal bits)

end Sys2Proof.Machine
end

