-- ==== Sys2Proof/Machine/Near.lean ====
section
/-! DEFINITION. Near loads and stores, scalar and vector, gathers and scatters, and `tdir` (R209, R250 to R254,
R275 to R278). -/

namespace Sys2Proof.Machine

/-- Where the data of a read goes: s0 discards, s30 pushes (R137). -/
def destOf (d : SReg) : Dest := if d = 0 then .none else if d = 30 then .out else .s d

/-- A value of n bytes extended to 64 bits (R251). -/
def extend (x : Bool) (n v : Nat) : Word := if x then BitVec.ofInt 64 (toSigned (8 * n) v) else BitVec.ofNat 64 v

/-- A near read whose bytes are poisoned: it writes nothing, its trap waits (R252, R276). `th` is the thread
after the pops. -/
def State.poisonedLoad (s : State) (th : Thread) (dest : Dest) (addr : Word) : State :=
  let th := th.advance 4
  s.setTh { th with reads := th.reads ++ [{ kind := .near, dest := dest, addr := addr, failed := some .poison }] }

/-- `ldn` (R250 to R252). -/
def execLdn (sz : MSize) (x : Bool) (d a : SReg) (off : BitVec 12) (s : State) : Out :=
  let r := s.th.rd a
  let e := r.1 + sextW off
  let n := MSize.bytes sz
  if e.toNat % n ≠ 0 then .next (s.trap .misalign e)
  else match s.nearPlace s.cur.core e n with
    | none => .next (s.trap .nearBound e)
    | some p =>
      let w := p / 8 * 8
      if s.nearPoison w (byteMask (p % 8) n) then .next (s.poisonedLoad r.2 (destOf d) e)
      else
        let v := (s.nearWord w).toNat / 2 ^ (8 * (p % 8)) % 2 ^ (8 * n)
        .next (s.setTh ((r.2.advance 4).wr d (extend x n v)))

/-- A near store of the masked nibbles of a word by an instruction of four bytes: at once in the own TCM,
else an entry of the buffer (R222, R253). `th` is the thread after the pops. -/
def State.nearStore (s : State) (th : Thread) (p : Nat) (data : Word) (mask : BitVec 16) : State :=
  if ownTcm s.cur.core p then (s.setTh (th.advance 4)).storeWord p data mask
  else
    let need := if (mergeNear p data mask s.th.buf).isSome then 0 else 1
    s.withRoom need fun s => s.setTh ((th.takeNear p data mask).advance 4)

/-- `stn` (R250, R253). -/
def execStn (sz : MSize) (d a : SReg) (off : BitVec 12) (s : State) : Out :=
  let r := s.th.rd2 a d
  let e := r.1 + sextW off
  let n := MSize.bytes sz
  if e.toNat % n ≠ 0 then .next (s.trap .misalign e)
  else match s.nearPlace s.cur.core e n with
    | none => .next (s.trap .nearBound e)
    | some p => .next (s.nearStore r.2.2 (p / 8 * 8) (r.2.1 <<< (8 * (p % 8))) (byteMask (p % 8) n))

/-- `stnb` (R254). -/
def execStnb (d a : SReg) (n1 : BitVec 4) (h : Bool) (off : BitVec 11) (s : State) : Out :=
  let r := s.th.rd2 a d
  let e := r.1 + sextW off
  let n := n1.toNat + 1
  let q := 2 * (e.toNat % 8) + h.toNat
  if 16 < q + n then .next (s.trap .misalign e)
  else match s.nearPlace s.cur.core e 1 with
    | none => .next (s.trap .nearBound e)
    | some p => .next (s.nearStore r.2.2 (p / 8 * 8) (r.2.1 <<< (4 * q)) (nibMask q n))

/-! ### Vectors -/

/-- The lanes that a predicate register enables. -/
def lanesOn (q : Byte) : List Nat := (List.range 8).filter fun i => q.getLsbD i

/-- `vldn`: the enabled lanes, at one instant (R275, R276). -/
def execVldn (vd : VReg) (a : SReg) (qp : QReg) (off : BitVec 12) (s : State) : Out :=
  let r := s.th.rd a
  let e := r.1 + sextW off
  let q := s.th.qreg qp
  if e.toNat % 8 ≠ 0 then .next (s.trap .misalign e)
  else match s.nearPlace s.cur.core e 64 with
    | none => .next (s.trap .nearBound e)
    | some p =>
      if (lanesOn q).any fun i => s.nearPoison (p + 8 * i) (BitVec.allOnes 16) then
        .next (s.poisonedLoad r.2 (.v vd q) e)
      else
        let v := ofLanes ((List.range 8).map fun i => s.nearWord (p + 8 * i))
        let th := r.2.advance 4
        .next (s.setTh (th.setVreg vd (mergeLanes q (s.th.vreg vd) v)))

/-- Whole words stored by a vector: place and data, in lane order; own TCM at once, the rest by the buffer
(R277). -/
def State.nearStores (s : State) (th : Thread) (ws : List (Nat × Word)) : State :=
  let own := ws.filter fun w => ownTcm s.cur.core w.1
  let rest := ws.filter fun w => !ownTcm s.cur.core w.1
  let take (b : List Entry) : List Entry := rest.foldl (fun b w =>
    (mergeNear w.1 w.2 (BitVec.allOnes 16) b).getD (b ++ [.near w.1 w.2 (BitVec.allOnes 16)])) b
  let need := entriesSize (take s.th.buf) - entriesSize s.th.buf
  s.withRoom need fun s =>
    (s.setTh ({ th with buf := take th.buf }.advance 4)).storeWords
      (own.map fun w => (w.1, w.2, BitVec.allOnes 16, false))

/-- `vstn` (R275, R277). -/
def execVstn (vd : VReg) (a : SReg) (qp : QReg) (off : BitVec 12) (s : State) : Out :=
  let r := s.th.rd a
  let e := r.1 + sextW off
  if e.toNat % 8 ≠ 0 then .next (s.trap .misalign e)
  else match s.nearPlace s.cur.core e 64 with
    | none => .next (s.trap .nearBound e)
    | some p => .next (s.nearStores r.2 ((lanesOn (s.th.qreg qp)).map fun i => (p + 8 * i, lane (s.th.vreg vd) i)))

/-- The lanes of a gather or scatter: lane, address and place of the enabled ones, or the trap of the first
that fails (R278). -/
def State.laneAddrs (s : State) (base : Word) (vi : Vec) (sc : BitVec 2) :
    List Nat → Except (Cause × Word) (List (Nat × Word × Nat))
  | [] => .ok []
  | i :: is =>
    let e := base + (lane vi i <<< sc.toNat)
    if e.toNat % 8 ≠ 0 then .error (.misalign, e)
    else match s.nearPlace s.cur.core e 8 with
      | none => .error (.nearBound, e)
      | some p => match State.laneAddrs s base vi sc is with
        | .ok r => .ok ((i, e, p) :: r)
        | .error x => .error x

/-- The executing thread with the lanes of a gather that it reads in this step: those not read yet and not put off (R278, R352,
log 50). -/
def State.readLanes (s : State) (ls : List (Nat × Word × Nat)) : SMap (Word × Bool) :=
  (ls.filter fun l => (SMap.find s.th.lanes l.1).isNone && !s.later.contains l.1).foldl
    (fun g l => SMap.set l.1 (s.nearWord l.2.2, s.nearPoison l.2.2 (BitVec.allOnes 16)) g) s.th.lanes

/-- `vgthn`: every enabled lane at an instant of its own; the instruction retires once all are read (R278). -/
def execVgthn (vd : VReg) (a : SReg) (qp : QReg) (vi : VReg) (sc : BitVec 2) (s : State) : Out :=
  let r := s.th.rd a
  let q := s.th.qreg qp
  match s.laneAddrs r.1 (s.th.vreg vi) sc (lanesOn q) with
  | .error x => .next (s.trap x.1 x.2)
  | .ok ls =>
    let g := s.readLanes ls
    let s := { s with later := [] }
    if g.length < ls.length then .next (s.setTh { s.th with lanes := g })
    else match ls.find? fun l => ((SMap.find g l.1).map (·.2)).getD false with
      | some l => .next (s.poisonedLoad r.2 (.v vd q) l.2.1)
      | none =>
        let v := ofLanes ((List.range 8).map fun i => ((SMap.find g i).map (·.1)).getD (lane (s.th.vreg vd) i))
        .next (s.setTh ((r.2.advance 4).setVreg vd v))

/-- `vsctn` (R278). -/
def execVsctn (vd : VReg) (a : SReg) (qp : QReg) (vi : VReg) (sc : BitVec 2) (s : State) : Out :=
  let r := s.th.rd a
  match s.laneAddrs r.1 (s.th.vreg vi) sc (lanesOn (s.th.qreg qp)) with
  | .error x => .next (s.trap x.1 x.2)
  | .ok ls => .next (s.nearStores r.2 (ls.map fun l => (l.2.2, lane (s.th.vreg vd) l.1)))

/-- `tdir`: the directory entry of a scratchpad tile (R209). -/
def execTdir (d a : SReg) (s : State) : Out :=
  let r := s.th.rd a
  let o := r.1.toNat
  let k := s.k
  if 2 ^ 24 ≤ o ∨ o < k.winBase * 4096 ∨ (k.winBase + k.winTiles) * 4096 ≤ o then .next (s.trap .nearBound r.1)
  else .next (s.setTh ((r.2.advance 8).wr d (s.entry (spadPlace s.clx o))))

end Sys2Proof.Machine
end

