-- ==== Sys2Proof/Machine/Far.lean ====
section
/-! DEFINITION. The far access instructions: `ldf`, `stf`, `vldf`, `vstf`, `amo`, `cas`, `get`, `put`
(R134 to R151). -/

namespace Sys2Proof.Machine

/-- The issue checks of a far access of an alignment: alignment, then address (R134). -/
def State.farCheck (s : State) (g : Word) (align : Nat) : Option Cause :=
  if g.toNat % align ≠ 0 then some .misalign
  else if s.gvaOk g then none else some .farAddr

/-- The completion of a `get` (R149). -/
def getWords (st : Nat) (psn : Bool) (g : Word) : List Word := [wordOf [(st, 4), (psn.toNat, 1)], g]

/-- A far read leaves the thread, once its reply can be held and no far write of the thread to its words is on
its way; `th` is the thread after the pops (R119, R136, R138). One that the guard drops has failed with TIMEOUT (R132); of a `get`
the completion says so (R149, log 70). -/
def State.farRead (s : State) (th : Thread) (g : Word) (n : Nat) (kind : ReadKind) (dest : Dest) (sext : Bool) : State :=
  if s.th.wrs.any (fun w => sameWords g n w.gva w.bytes) || !s.mayRequest s.cur.core false ((n + 15) / 16 + 1) then s.stall
  else
    let fwd := s.th.farForward g n
    let th := th.advance 4
    let r := s.request s.cur.core (.thread s.cur.thr) s.k.job th.cls 1 [g, BitVec.ofNat 64 n] 0
    let p : PendingRead := { txid := r.2.1, kind := kind, dest := dest, addr := g, bytes := n, sext := sext, fwd := fwd,
                             failed := if r.2.2 then some (.status 7) else none }
    match kind, r.2.2 with
    | .get _ lab cls, true => (r.1.setTh th).postSelf s.cur.core lab cls (getWords 7 false g)
    | _, _ => r.1.setTh { th with reads := th.reads ++ [p] }

/-- `ldf` (R143). -/
def execLdf (sz : MSize) (x : Bool) (d a : SReg) (off : BitVec 12) (s : State) : Out :=
  let r := s.th.rd a
  let g := s.gva (r.1 + sextW off)
  match s.farCheck g (MSize.bytes sz) with
  | some c => .next (s.trap c g)
  | none => .next (s.farRead r.2 g (MSize.bytes sz) .far (destOf d) x)

/-- Far words stored: entries of the buffer, merging (R139). -/
def State.farStores (s : State) (th : Thread) (ws : List (Word × Word × BitVec 16)) : State :=
  let take (b : List Entry) : List Entry := ws.foldl (fun b w =>
    (mergeFar w.1 w.2.1 w.2.2 b).getD (b ++ [.far w.1 w.2.1 w.2.2])) b
  let need := entriesSize (take s.th.buf) - entriesSize s.th.buf
  s.withRoom need fun s => s.setTh ({ th with buf := take th.buf }.advance 4)

/-- `stf` (R143). -/
def execStf (sz : MSize) (d a : SReg) (off : BitVec 12) (s : State) : Out :=
  let r := s.th.rd2 a d
  let g := s.gva (r.1 + sextW off)
  let n := MSize.bytes sz
  match s.farCheck g n with
  | some c => .next (s.trap c g)
  | none =>
    let o := g.toNat % 8
    .next (s.farStores r.2.2 [(BitVec.ofNat 64 (g.toNat / 8 * 8), r.2.1 <<< (8 * o), byteMask o n)])

/-- `vldf`: one RD of 64 bytes when a lane is enabled (R144). -/
def execVldf (vd : VReg) (a : SReg) (qp : QReg) (off : BitVec 12) (s : State) : Out :=
  let r := s.th.rd a
  let g := s.gva (r.1 + sextW off)
  match s.farCheck g 64 with
  | some c => .next (s.trap c g)
  | none =>
    let q := s.th.qreg qp
    if q = 0 then .next (s.setTh (r.2.advance 4)) else .next (s.farRead r.2 g 64 .far (.v vd q) false)

/-- `vstf`: each enabled lane is an entry (R144). -/
def execVstf (vd : VReg) (a : SReg) (qp : QReg) (off : BitVec 12) (s : State) : Out :=
  let r := s.th.rd a
  let g := s.gva (r.1 + sextW off)
  match s.farCheck g 64 with
  | some c => .next (s.trap c g)
  | none => .next (s.farStores r.2 ((lanesOn (s.th.qreg qp)).map fun i =>
      (g + BitVec.ofNat 64 (8 * i), lane (s.th.vreg vd) i, BitVec.allOnes 16)))

/-- A posted `amo`: an entry that never merges (R139, R146). -/
def execAmoPost (op : AmoOp) (dbl : Bool) (a b : SReg) (s : State) : Out :=
  let r := s.th.rd2 a b
  let g := s.gva r.1
  match s.farCheck g (if dbl then 8 else 4) with
  | some c => .next (s.trap c g)
  | none => .next (s.withRoom 1 fun s =>
      s.setTh ({ r.2.2 with buf := r.2.2.buf ++ [Entry.amo g op dbl r.2.1] }.advance 4))

/-- The words a thread pops when a blocking instruction completes. -/
def Thread.popN (th : Thread) : Nat → Thread
  | 0 => th
  | n + 1 => Thread.popN th.pop.2 n

/-- A blocking atomic: a commit point; then the request goes out behind every mark and every earlier far
write to its word, and the thread waits for the reply (R146, R148). -/
def State.blocking (s : State) (i : Instr) (d : SReg) (g : Word) (bytes kind : Nat) (words : List Word) (aux : Nat) : State :=
  s.atCommit fun s =>
    let th := s.th
    if !(s.pruneMarks th.wrs th.held).isEmpty || th.wrs.any (fun w => sameWords g bytes w.gva w.bytes)
        || !s.mayRequest s.cur.core false 2 then s.stall
    else
      let r := s.request s.cur.core (.thread s.cur.thr) s.k.job th.cls kind words aux
      if r.2.2 then r.1.setTh { r.1.th with pend := some (6, 7, g), run := .stalled, begun := false }
      else r.1.setTh { r.1.th with block := some { txid := r.2.1, dest := d, gva := g, pops := Instr.pops i },
                                   run := .stalled, begun := false, held := [] }

/-- A fetching `amo` (R145, R146). -/
def execAmoFetch (op : AmoOp) (dbl : Bool) (d a b : SReg) (s : State) : Out :=
  let r := s.th.rd2 a b
  let g := s.gva r.1
  let n := if dbl then 8 else 4
  match s.farCheck g n with
  | some c => .next (s.trap c g)
  | none => .next (s.blocking (.amoFetch op dbl d a b) d g n 3 [g, r.2.1] (op.code + 32 * (if dbl then 3 else 2)))

/-- `cas` (R148). -/
def execCas (dbl : Bool) (d a b : SReg) (s : State) : Out :=
  let r := s.th.rd2 a b
  let g := s.gva r.1
  let n := if dbl then 8 else 4
  match s.farCheck g n with
  | some c => .next (s.trap c g)
  | none => .next (s.blocking (.cas dbl d a b) d g n 5 [g, r.2.1, s.th.reg d, 0] (32 * (if dbl then 3 else 2)))

/-- Bytes of a `get` or `put` (R61). -/
def blockBytes (t : BitVec 4) : Nat := 16 * (t.toNat + 1)

/-- The checks of `get` and `put` in their order: the trap and its address (R134), or the near place. -/
def State.blockCheck (s : State) (g b : Word) (n : Nat) : Except (Cause × Word) Nat :=
  if g.toNat % 16 ≠ 0 then .error (.misalign, g)
  else if b.toNat % 16 ≠ 0 then .error (.misalign, b)
  else if !s.gvaOk g then .error (.farAddr, g)
  else match s.nearPlace s.cur.core b n with
    | none => .error (.nearBound, b)
    | some p => .ok p

/-- `get` (R149). -/
def execGet (cls : Cls) (a : SReg) (lab : Label) (t : BitVec 4) (b : SReg) (s : State) : Out :=
  let r := s.th.rd2 a b
  let g := s.gva r.1
  match s.blockCheck g r.2.1 (blockBytes t) with
  | .error x => .next (s.trap x.1 x.2)
  | .ok p => .next (s.farRead r.2.2 g (blockBytes t) (.get p lab cls) .none false)

/-- `put` (R151): the source bytes are read now, with the thread's own stores. -/
def execPut (a : SReg) (t : BitVec 4) (b : SReg) (s : State) : Out :=
  let r := s.th.rd2 a b
  let g := s.gva r.1
  let n := blockBytes t
  match s.blockCheck g r.2.1 n with
  | .error x => .next (s.trap x.1 x.2)
  | .ok p =>
    let psn := (List.range (n / 8)).filter fun i => s.nearPoison (p + 8 * i) (BitVec.allOnes 16)
    let e : Entry := .put g (s.nearBytes p n) psn []
    .next (s.withRoom (n / 8) fun s => s.setTh ({ r.2.2 with buf := r.2.2.buf ++ [e] }.advance 4))

end Sys2Proof.Machine
end

