-- ==== Sys2Proof/Machine/Home.lean ====
section
/-! DEFINITION. What the home module does with memory requests at the endpoint or controller that stage 1 named: the
page lookup, the performance, word by word where the spec has it so, parking and replay, duplicates, and the replies
(R94 to R103, R128, R144 to R148, R352, R353). -/

namespace Sys2Proof.Machine

/-! ### Times -/

/-- Cycles of 10 µs: 2.5 GHz, or 1.25 GHz outside full service (R386, R387). -/
def State.us10 (s : State) : Nat := if s.care.svc = .full then 25000 else 12500
/-- Twice the timer setting, in cycles (R127, R128). -/
def State.timer2 (s : State) : Nat := 2 * s.cfg.timer * s.us10

/-! ### Atomics (R145) -/

/-- The float format of an `fadd` operation. -/
def AmoOp.ff : AmoOp → FF
  | .faddBf16 => .bf16
  | .faddF16 => .f16
  | _ => .fp32

/-- The new value of the word of an atomic: w is its width in bits. -/
def AmoOp.apply (op : AmoOp) (w old v : Nat) : Nat :=
  let lt := decide (toSigned w old < toSigned w v)
  match op with
  | .swap => v
  | .add => (old + v) % 2 ^ w
  | .and => old &&& v
  | .or => old ||| v
  | .xor => old ^^^ v
  | .min => if lt then old else v
  | .max => if lt then v else old
  | .minu => if old < v then old else v
  | .maxu => if old < v then v else old
  | .faddF32 | .faddBf16 | .faddF16 =>
    let f := AmoOp.ff op
    packElems f.width ((List.range (w / f.width)).map fun i =>
      (f.add .rne (elemOf f.width i old) (elemOf f.width i v)).1)

/-! ### Endpoints and replies -/

/-- The reply to a request (Table 4.2): from the cluster where the request is, to the requester, class and job of the
request. -/
def State.replyOf (s : State) (f : Flight) (kind : Nat) (ws : List Word) (psn : List Nat := [])
    (stat aux : Nat := 0) (tile : Option Word := none) : Packet :=
  let h := f.p.hdr
  { hdr := { dcore := coreOf (ixOf h.src), dcl := clusterOf (ixOf h.src), dmod := modOf h.src, vn := 1, cls := h.cls,
             plen := BitVec.ofNat 5 (Nat.min 16 (plenOf ws)), kind := BitVec.ofNat 4 kind,
             src := s.coreName (coreIx h.dcl 0), job := h.job, txid := h.txid, stat := BitVec.ofNat 4 stat,
             aux := BitVec.ofNat 16 aux },
    words := padWords ws, poison := psn, tile := tile }

/-- A reply starts its way at its cluster's router. -/
def State.sendReply (s : State) (p : Packet) : State :=
  s.launch { p := p, loc := .router (clusterOf (ixOf p.hdr.src)) 0, since := s.cycle.toNat }

/-- Whether a cluster can emit a reply (R118, R120). -/
def State.mayReply (s : State) (cl : BitVec 8) : Bool := s.mayInject cl 1 false

/-- The packet in flight of that number without it. -/
def State.dropFlight (s : State) (n : Nat) : State := { s with net := dropAt s.net n }

/-! ### Performing (R145 to R148, R207) -/

/-- The poison marks of the data words of a write, counted from its first data word. -/
def Packet.dataPoison (p : Packet) : List Nat := (p.poison.filter fun i => decide (1 ≤ i)).map (· - 1)

/-- The data bytes of a block write. -/
def Packet.dataBytes (p : Packet) : List Byte := (p.words.drop 1).flatMap fun w => leBytes 8 w.toNat

/-- The word pieces of a write at a place: one masked word, or a block (R109). -/
def Packet.pieces (p : Packet) (pl : Nat) : List (Nat × Word × BitVec 16 × Bool) :=
  if p.hdr.plen.toNat ≤ 1 then [(pl, p.words.getD 1 0, p.hdr.aux, p.poison.contains 1)]
  else Sys2Proof.Machine.pieces pl ((Packet.dataBytes p).take (fld p.hdr.aux.toNat 0 9)) (Packet.dataPoison p)

/-- A packet of a whole tile that the engine of this module writes: its bytes are kept at the endpoint until the 4,096 are
there, and are then applied as one write; `e` is the packet's mark (R167, log 8). -/
def State.tilePart (s : State) (p : Packet) (pl : Nat) (e : Word) : State :=
  let key := pl / 4096
  let mine (a : TilePart) : Bool := decide (a.src = p.hdr.src ∧ a.mark = e ∧ a.tile = key)
  let old := (s.tparts.find? mine).getD { src := p.hdr.src, mark := e, tile := key }
  let got := (Packet.pieces p pl).foldl (fun m w => SMap.set (w.1 / 8 % 512) (w.2.1, w.2.2.2) m) old.got
  let rest := s.tparts.filter fun a => !mine a
  if got.length < 512 then { s with tparts := { old with got := got } :: rest }
  else State.wholeTile { s with tparts := rest } (4096 * key) (got.flatMap fun w => leBytes 8 w.2.1.toNat) (entFmt e) false
    ((got.filter fun w => w.2.2).map (·.1))

/-- The words that a write stores one by one: those of its data, or of the whole tile whose entry it brings (R168, R353). -/
def Packet.stores (p : Packet) (pl : Nat) : List (Nat × Word × BitVec 16 × Bool) :=
  match p.tile with
  | some e => if entM e then Packet.pieces p pl else Sys2Proof.Machine.pieces pl (synthBytes e) []
  | none => Packet.pieces p pl

/-- The old value at the place of an atomic. -/
def State.amoOld (s : State) (pl w : Nat) : Nat := (s.word (pl / 8 * 8)).toNat / 2 ^ (8 * (pl % 8)) % 2 ^ w

/-- The word of an atomic written as a partial store. -/
def State.amoWrite (s : State) (pl w v : Nat) (psn : Bool := false) : State :=
  s.storeWord (pl / 8 * 8) (BitVec.ofNat 64 (v * 2 ^ (8 * (pl % 8)))) (byteMask (pl % 8) (w / 8)) psn

/-- Those of the first m words of an access that are performed in this step: the ones not performed yet and not put off
(R352, R353, log 50). -/
def State.nowWords (s : State) (f : Flight) (m : Nat) : List Nat :=
  (List.range m).filter fun i => (SMap.find f.got i).isNone && !s.later.contains i

/-- A flight with the words at a place that this step reads of the first m (R352). -/
def State.readWords (s : State) (f : Flight) (pl m : Nat) : Flight :=
  { f with got := (s.nowWords f m).foldl (fun g i => SMap.set i (s.word (pl / 8 * 8 + 8 * i), s.poisoned (pl / 8 * 8 + 8 * i)) g) f.got }

/-- The pieces of a write that this step stores, and the flight that tells them (R353). -/
def State.writeWords (s : State) (f : Flight) (ps : List (Nat × Word × BitVec 16 × Bool)) : State × Flight :=
  let now := s.nowWords f ps.length
  (s.storeWords (now.filterMap fun i => ps[i]?), { f with got := now.foldl (fun g i => SMap.set i (0, false) g) f.got })

/-- The n bytes that the words of an access hold from its first byte on. -/
def Flight.gotBytes (f : Flight) (pl n : Nat) : List Byte := ((f.got.flatMap fun w => leBytes 8 w.2.1.toNat).drop (pl % 8)).take n

/-- What an access of a request at its place gives: the state, and the reply or how far it has come. -/
abbrev Performed := State × (Packet ⊕ Flight)

/-- An access of one word, read and written as one step (R145, R148, R351); a poisoned word stops it (R147). -/
def State.atomicAt (s : State) (f : Flight) (pl : Nat) : State × Packet :=
  let p := f.p
  if s.poisoned pl then (s, s.replyOf f 9 [] [] 4)
  else
    let w := (Packet.amoBits p)
    let old := s.amoOld pl w
    let v := (p.words.getD 1 0).toNat % 2 ^ w
    if p.hdr.kind.toNat = 5 then
      (if old = (p.words.getD 2 0).toNat % 2 ^ w then s.amoWrite pl w v (p.poison.contains 1) else s, s.replyOf f 6 [BitVec.ofNat 64 old])
    else
      let new := match AmoOp.ofCode (fld p.hdr.aux.toNat 0 5) with
        | some op => AmoOp.apply op w old v
        | none => old
      (s.amoWrite pl w new (p.poison.contains 1), if p.hdr.kind.toNat = 4 then s.replyOf f 7 [] else s.replyOf f 6 [BitVec.ofNat 64 old])

/-- The access of a translated request at its place (R144 to R148, R168, R207). -/
def State.perform (s : State) (f : Flight) (pl : Nat) : Performed :=
  let p := f.p
  let n := Packet.reqBytes p
  match p.hdr.kind.toNat, p.tile with
  | 1, tile =>
    if tile.isSome && hasDir pl && !entM (s.entry pl) && (s.poisonIn (pl / 4096 * 4096) 4096).isEmpty then (s, .inl (s.replyOf f 6 [s.entry pl] [] 0 0 (some (s.entry pl))))
    else
      let m := (pl % 8 + n + 7) / 8
      let g := s.readWords f pl m
      if g.got.length < m then (s, .inr g)
      else (s, .inl (s.replyOf f 6 ((Sys2Proof.Machine.groups 8 (n / 8 + 1) (g.gotBytes pl n)).map fun b => BitVec.ofNat 64 (leVal b))
        ((g.got.filter fun w => w.2.2).map (·.1))))
  | 2, tile =>
    match tile.filter fun _ => hasDir pl with
    | some e => (if entM e then s.tilePart p pl e else s.setTile pl e, .inl (s.replyOf f 7 []))
    | none =>
      let ps := Packet.stores p pl
      let r := s.writeWords f ps
      if r.2.got.length < ps.length then (r.1, .inr r.2) else (r.1, .inl (s.replyOf f 7 []))
  | _, _ =>
    let r := s.atomicAt f pl
    (r.1, .inl r.2)

/-! ### Parking (R98 to R101) -/

/-- Whether a request comes from another module. -/
def State.foreign (s : State) (p : Packet) : Bool := decide (modOf p.hdr.src ≠ s.cfg.modid)

/-- The n-th packet in flight, a request, is answered NACK with the retry-after (R100). -/
def State.nack (s : State) (n : Nat) (f : Flight) : State := (s.dropFlight n).sendReply (s.replyOf f 9 [] [] 8 s.cfg.retry)

/-- A park notice to the requester (R98). -/
def State.parkNoticeTo (s : State) (f : Flight) : State := s.sendReply (s.replyOf f 8 [])

/-- The fault notice of Table 3.9. -/
def State.faultNotice (s : State) (f : Flight) (stack entry state : Nat) : State :=
  s.report (coreIx (stackCluster stack) 0) 1
    [wordOf [(state, 2), (0, 6), (f.p.hdr.job.toNat, 8), (vaOf (f.p.words.getD 0 0) / 65536, 32)],
     wordOf [(stack, 5), (0, 11), ((s.park.filter fun k => decide (k.stack.toNat = stack)).length, 16), (entry, 12)]]

/-- The n-th packet in flight is parked, or answered NACK when all 256 slots are in use (R98 to R100). Behind requests that
await their replay it is one of them (R102). -/
def State.parkRequest (s : State) (n : Nat) (f : Flight) (stack entry page state : Nat) : State :=
  if 256 ≤ (s.park.filter fun k => decide (k.stack.toNat = stack)).length then s.nack n f
  else
    let others := s.park.filter fun k => decide (k.page = page)
    let now := s.cycle.toNat
    let k : ParkSlot := { stack := BitVec.ofNat 5 stack, flight := { f with page := some page }, entry := entry, page := page,
                          since := now, noticed := now, released := others.any (·.released) }
    let s : State := { s.dropFlight n with park := s.park ++ [k] }
    let s := s.parkNoticeTo f
    if others.isEmpty then s.faultNotice f stack entry state else s

/-! ### The completed-transaction caches (R128) -/

/-- Whether the reply of a request is kept: of another module, and no RD. -/
def State.cached (s : State) (p : Packet) : Bool := s.foreign p && decide (2 ≤ p.hdr.kind.toNat)

/-- The entries of an endpoint's cache that are in use: replies that still stand, and those that a parked or translated
request of another module will need (log 69). -/
def State.cacheUse (s : State) (ep : Nat) : Nat :=
  (s.ctc.filter fun c => decide (c.endpoint = ep ∧ s.cycle.toNat < c.until_)).length
    + (s.park.filter fun k => s.cached k.flight.p && decide (1 + k.stack.toNat = ep)).length
    + (s.net.filter fun f => s.cached f.p && f.place.any fun pl => decide (s.endpointOfPlace pl = ep)).length

/-- Whether the cache of an endpoint is full for a request (R128). -/
def State.cacheFull (s : State) (p : Packet) (ep : Nat) : Bool := s.cached p && decide (32768 ≤ s.cacheUse ep)

/-- The reply goes out; of a request from another module that is not an RD it is kept (R128). -/
def State.answer (s : State) (f : Flight) (ep : Nat) (r : Packet) : State :=
  let s := s.sendReply r
  if s.cached f.p then
    { s with ctc := s.ctc ++ [{ endpoint := ep, src := f.p.hdr.src, txid := f.p.hdr.txid, reply := r,
                                until_ := s.cycle.toNat + s.timer2 }] }
  else s

/-! ### Acting on a request -/

/-- The n-th packet in flight, a request translated to a place of the endpoint where it is, is performed: whole and answered,
or some of its words (R352, R353). -/
def State.performAt (s : State) (n : Nat) (f : Flight) (pl : Nat) : State :=
  let r := s.perform { f with place := some pl } pl
  let s := { r.1 with later := [] }
  match r.2 with
  | .inl p => (s.dropFlight n).answer f (s.endpointOfPlace pl) p
  | .inr g => { s with net := putAt s.net n g }

/-- Stage 2 sends a request on to the endpoint of its place in another cluster: a new route from the controller's cluster
(R116). -/
def State.forwardTo (s : State) (n : Nat) (f : Flight) (pl : Nat) : State :=
  let g : Flight := { f with p := { f.p with hdr := { f.p.hdr with dcl := s.clusterOfPlace pl } }, place := some pl,
                             ep := s.endpointOfPlace pl, loc := .router f.p.hdr.dcl 0, since := s.cycle.toNat }
  { s with net := putAt s.net n g }

/-- TRANSLATE and what follows, for the n-th packet in flight (R94). A full cache answers NACK and performs nothing (R128);
a replayed request waits for it in its slot. -/
def State.actOn (s : State) (n : Nat) (f : Flight) (replay : Bool) : State :=
  let r := s.translate f.ent f.part (vaOf (f.p.words.getD 0 0)) (Packet.reqBytes f.p) f.p.hdr.kind.toNat replay
  match r.1 with
  | .error st => if s.cacheFull f.p f.ep then s.nack n f else (r.2.dropFlight n).answer f f.ep (s.replyOf f 9 [] [] st)
  | .perform pl =>
    if s.cacheFull f.p (s.endpointOfPlace pl) then s.nack n f
    else if s.clusterOfPlace pl = f.p.hdr.dcl then r.2.performAt n f pl
    else if s.mayInject f.p.hdr.dcl 0 false then r.2.forwardTo n f pl
    else s
  | .park st e pg state => if s.cacheFull f.p f.ep then s.nack n f else r.2.parkRequest n f st e pg state

/-- Whether two requests are one: source and TXID. -/
def sameRequest (f g : Flight) : Bool := decide (f.p.hdr.src = g.p.hdr.src ∧ f.p.hdr.txid = g.p.hdr.txid)

/-- A request that has come to its endpoint or controller: a duplicate of a parked one, or of one that is being performed, is
discarded, one that hits the cache is answered from it (R101, R128). -/
def State.atHome (s : State) (n : Nat) (f : Flight) : State :=
  if s.park.any fun k => sameRequest k.flight f then s.dropFlight n
  else if s.foreign f.p && s.net.any fun g => sameRequest g f && g.place.isSome then s.dropFlight n
  else match (if s.cached f.p then
      s.ctc.find? fun c => decide (c.src = f.p.hdr.src ∧ c.txid = f.p.hdr.txid ∧ s.cycle.toNat < c.until_) else none) with
    | some c => if s.mayReply (clusterOf (ixOf c.reply.hdr.src)) then (s.dropFlight n).sendReply c.reply else s
    | none => s.actOn n f false

/-- Whether the accesses of two requests share a 4 KiB block of VA (R344). -/
def sameBlock (f g : Flight) : Bool :=
  let a := vaOf (f.p.words.getD 0 0)
  let b := vaOf (g.p.words.getD 0 0)
  decide (a / 4096 ≤ (b + Packet.reqBytes g.p - 1) / 4096) && decide (b / 4096 ≤ (a + Packet.reqBytes f.p - 1) / 4096)

/-- Whether a far write that was sent before another one is performed before it: of one commit, or of one source of another
module, with a block in common (R344, log 6). -/
def State.writeOrder (s : State) (g f : Flight) : Bool :=
  Packet.isWrite g.p && Packet.isWrite f.p && decide (g.p.hdr.src = f.p.hdr.src ∧ g.p.hdr.cls = f.p.hdr.cls ∧ g.p.hdr.dmod = f.p.hdr.dmod)
    && sameBlock g f && (s.foreign f.p || (f.stream.isSome && decide (g.stream = f.stream)))

/-- Whether a request of the same source came to the controller of their page before another one, and is still to be
performed (R103). -/
def pageOrder (g f : Flight) : Bool :=
  decide (g.p.hdr.src = f.p.hdr.src ∧ g.page = f.page ∧ g.arr < f.arr) && f.page.isSome && (decide (g.loc = .home) || g.place.isSome)

/-- Whether the endpoint or controller may act on the n-th packet in flight, a request: nothing that goes before it is left,
and a reply can be emitted (R103, R120, R344). -/
def State.mayAct (s : State) (n : Nat) (f : Flight) : Bool :=
  !(s.net.take n).any (s.writeOrder · f) && !s.net.any (pageOrder · f) && s.mayReply f.p.hdr.dcl

/-- The n-th packet in flight, a request of a kind, is acted on; any other n changes nothing. -/
def State.homeActs (s : State) (n kind : Nat) : State :=
  match s.net[n]? with
  | some f =>
    if f.loc = .home ∧ f.p.hdr.kind.toNat = kind ∧ s.mayAct n f = true then
      match f.place with
      | some pl => s.performAt n f pl
      | none => s.atHome n f
    else s
  | none => s

/-- RD_REQUEST (R94, R144, R168). -/
def execRdRequest (n : Nat) (s : State) : Out := .next (s.homeActs n 1)
/-- WR_REQUEST (R94, R344, R345). -/
def execWrRequest (n : Nat) (s : State) : Out := .next (s.homeActs n 2)
/-- AMO_REQUEST (R145, R351). -/
def execAmoRequest (n : Nat) (s : State) : Out := .next (s.homeActs n 3)
/-- AMOP_REQUEST (R145). -/
def execAmopRequest (n : Nat) (s : State) : Out := .next (s.homeActs n 4)
/-- CAS_REQUEST (R148). -/
def execCasRequest (n : Nat) (s : State) : Out := .next (s.homeActs n 5)

/-! ### Parked requests -/

/-- PARK_NOTICE_REPEAT: every 20 µs while the request stays parked (R98). -/
def execParkNoticeRepeat (stack : BitVec 5) (n : Nat) (s : State) : Out :=
  match s.park[n]? with
  | some k =>
    if k.stack = stack ∧ k.noticed + 2 * s.us10 ≤ s.cycle.toNat ∧ s.mayReply k.flight.p.hdr.dcl = true then
      .next (State.parkNoticeTo { s with park := putAt s.park n { k with noticed := s.cycle.toNat } } k.flight)
    else .next s
  | none => .next s

/-- PARK_LIMIT_EXPIRY: answered TIMEOUT (R103). -/
def execParkLimitExpiry (stack : BitVec 5) (n : Nat) (s : State) : Out :=
  match s.park[n]? with
  | some k =>
    if k.stack = stack ∧ k.since + 100 * s.cfg.parklim * s.us10 < s.cycle.toNat ∧ s.mayReply k.flight.p.hdr.dcl = true then
      .next (State.answer { s with park := dropAt s.park n } k.flight (1 + stack.toNat) (s.replyOf k.flight 9 [] [] 7))
    else .next s
  | none => .next s

/-- The slots of a page await no replay. -/
def State.unrelease (s : State) (page : Nat) : State :=
  { s with park := s.park.map fun k => if k.page = page then { k with released := false } else k }

/-- A released request, with the entry that it finds now, leaves its slot and is translated again. Where its page is not usable
after all, it is parked in its place, and so are those behind it (R102). A full cache keeps it in its slot. -/
def State.replay (s : State) (n : Nat) (k : ParkSlot) : State :=
  let f := { k.flight with ent := s.stage1 k.flight.p k.flight.part }
  let va := vaOf (f.p.words.getD 0 0)
  let mine := match s.firstStage f.ent f.part va (Packet.reqBytes f.p) f.p.hdr.kind.toNat with
    | .page pa => decide (pagePlace pa = k.page)
    | _ => true
  let r := s.translate f.ent f.part va (Packet.reqBytes f.p) f.p.hdr.kind.toNat mine
  let out := { s with park := dropAt s.park n }.launch f
  match r.1 with
  | .park st e pg state =>
    if mine then
      let s := { r.2 with park := putAt s.park n { k with noticed := s.cycle.toNat } }
      State.faultNotice ((s.unrelease pg).parkNoticeTo f) f st e state
    else out.actOn s.net.length f false
  | .perform pl =>
    if out.cacheFull f.p (s.endpointOfPlace pl) || !(decide (s.clusterOfPlace pl = f.p.hdr.dcl) || s.mayInject f.p.hdr.dcl 0 false) then s
    else out.actOn s.net.length f mine
  | .error _ => out.actOn s.net.length f mine

/-- PARKED_REQUEST_REPLAY: in the order in which the requests of a page parked (R102). -/
def execParkedRequestReplay (stack : BitVec 5) (n : Nat) (s : State) : Out :=
  match s.park[n]? with
  | some k =>
    if k.stack = stack ∧ k.released = true ∧ !(s.park.take n).any (fun j => decide (j.page = k.page))
        ∧ !s.net.any (pageOrder · k.flight) ∧ s.mayReply k.flight.p.hdr.dcl = true then .next (s.replay n k)
    else .next s
  | none => .next s

/-- COMPLETED_TRANSACTION_CACHE_EXPIRY (R128). -/
def execCompletedTransactionCacheExpiry (n : Nat) (s : State) : Out :=
  match s.ctc[n]? with
  | some c => if c.until_ ≤ s.cycle.toNat then .next { s with ctc := dropAt s.ctc n } else .next s
  | none => .next s

end Sys2Proof.Machine
end

