-- ==== Sys2Proof/Machine/Reply.lean ====
section
/-! DEFINITION. What the issuer of a request does with its replies, its timer and its retries (R119, R126, R127,
R137, R141, R142, R146, R149, R163), and the replies to saved contexts (R376). -/

namespace Sys2Proof.Machine

/-! ### Requests of a core -/

/-- The request of a core with a TXID. -/
def Core.req (k : Core) (tx : BitVec 16) : Option Req := k.reqs.find? fun r => decide (r.txid = tx)

/-- A request of a core changed. -/
def State.modReq (s : State) (c : CoreIx) (tx : BitVec 16) (f : Req → Req) : State :=
  s.modCore c fun k => { k with reqs := k.reqs.map fun r => if r.txid = tx then f r else r }

/-- The final reply is consumed: reservation and TXID are released, the TXID stays unused until twice the timer
after the last transmission (R119, R127). -/
def State.closeReq (s : State) (c : CoreIx) (r : Req) : State :=
  s.modCore c fun k => { k with
    reqs := k.reqs.filter fun q => decide (q.txid ≠ r.txid)
    quarantine := (r.txid, r.sentAt + s.timer2) :: k.quarantine.filter fun q => decide (s.cycle.toNat < q.2) }

/-! ### Data of a read -/

/-- Byte i of a reply's data. -/
def replyByte (p : Packet) (i : Nat) : Byte := (p.words.getD (i / 8) 0).extractLsb' (8 * (i % 8)) 8

/-- The bytes that a read returns: forwarded ones and those of the reply (R138). -/
def PendingRead.data (r : PendingRead) (p : Packet) : List Byte :=
  (List.range r.bytes).map fun i => match r.fwd.find? fun f => decide (f.1 = i) with
    | some f => f.2
    | none => replyByte p i

/-- Whether byte i of a read is poisoned. -/
def PendingRead.bad (r : PendingRead) (p : Packet) (i : Nat) : Bool :=
  p.poison.contains (i / 8) && !r.fwd.any fun f => decide (f.1 = i)

/-- Whether the bytes that a read takes meet poison: of a vector load, those of the enabled lanes (R137, R144). -/
def PendingRead.meetsPoison (r : PendingRead) (p : Packet) : Bool :=
  (List.range r.bytes).any fun i => r.bad p i && match r.dest with
    | .v _ q => q.getLsbD (i / 8)
    | _ => true

/-- A thread with the data of a read written to its destination (R137, R143, R144). -/
def Thread.fill (th : Thread) (r : PendingRead) (bs : List Byte) : Thread :=
  match r.dest with
  | .none => th
  | .out => th.push (extend r.sext r.bytes (leVal bs))
  | .s d => th.setReg d (extend r.sext r.bytes (leVal bs))
  | .v d q => th.setVreg d (mergeLanes q (th.vreg d) (BitVec.ofNat 512 (leVal bs)))

/-- A read of a thread that has failed waits for its wait point. -/
def Thread.failRead (th : Thread) (tx : BitVec 16) (f : ReadFail) : Thread :=
  { th with reads := th.reads.map fun r => if r.txid = tx ∧ r.kind ≠ .near ∧ r.failed = none then { r with failed := some f } else r }

/-- A thread without an outstanding read: one that has failed stays until its wait point, whatever its TXID is used for now
(R132). -/
def Thread.dropRead (th : Thread) (tx : BitVec 16) : Thread :=
  { th with reads := th.reads.filter fun r => decide (r.txid ≠ tx ∨ r.kind = .near) || r.failed.isSome }

/-- The outstanding read of a thread with a TXID. -/
def Thread.readOf (th : Thread) (tx : BitVec 16) : Option PendingRead :=
  th.reads.find? fun r => decide (r.txid = tx ∧ r.kind ≠ .near) && r.failed.isNone

/-- The words of a get's bytes that are poisoned. -/
def PendingRead.badWords (r : PendingRead) (p : Packet) : List Nat :=
  (List.range (r.bytes / 8)).filter fun w => (List.range 8).any fun i => r.bad p (8 * w + i)

/-- The near words that the data of a `get` makes, as pieces of a store. -/
def PendingRead.nearPieces (r : PendingRead) (p : Packet) (near : Nat) : List (Nat × Word × BitVec 16 × Bool) :=
  pieces near (r.data p) (r.badWords p)

/-- The pieces of a store whose words are not among those done. -/
def undone (got : SMap (Word × Bool)) (ps : List (Nat × Word × BitVec 16 × Bool)) : List (Nat × Word × BitVec 16 × Bool) :=
  ((List.range ps.length).filter fun i => (SMap.find got i).isNone).filterMap fun i => ps[i]?

/-- RDATA for a thread: a blocking atomic completes, a read is written or fails, a `get` is written and its
completion queued; `got` are the words of it that are written already (R137, R146, R149). -/
def State.threadData (s : State) (c : CoreIx) (t : ThrIx) (tx : BitVec 16) (p : Packet) (got : SMap (Word × Bool) := []) : State :=
  let th := s.getTh c t
  match th.block, th.readOf tx with
  | some b, none =>
    if b.txid = tx then s.putTh c t (({ Thread.popN th b.pops with block := none }.advance 4).wr b.dest (p.words.getD 0 0))
    else s
  | _, some r =>
    match r.kind with
    | .get near lab cls =>
      ((s.putTh c t (th.dropRead tx)).storeWords (undone got (r.nearPieces p near))).postSelf c lab cls
        (getWords 0 (!(r.badWords p).isEmpty) r.addr)
    | _ =>
      if r.meetsPoison p then s.putTh c t (th.failRead tx .poison)
      else s.putTh c t ((th.dropRead tx).fill r (r.data p))
  | _, none => s

/-- An error status for a thread's request (R137, R142, R146, R149). -/
def State.threadError (s : State) (c : CoreIx) (t : ThrIx) (tx : BitVec 16) (st : BitVec 4) : State :=
  let th := s.getTh c t
  match th.block, th.readOf tx, th.wrs.find? fun w => decide (w.txid = tx) with
  | some b, none, none =>
    if b.txid = tx then s.putTh c t { th with block := some { b with err := some st } } else s
  | _, some r, _ =>
    match r.kind with
    | .get _ lab cls => (s.putTh c t (th.dropRead tx)).postSelf c lab cls (getWords st.toNat false r.addr)
    | _ => s.putTh c t (th.failRead tx (.status st))
  | _, none, some w =>
    (s.putTh c t { th with wrs := th.wrs.filter fun w => decide (w.txid ≠ tx) }).postFault c (faultWords t st.toNat w)
  | none, none, none => s

/-- ACK for a thread's far write (R141). -/
def State.threadAck (s : State) (c : CoreIx) (t : ThrIx) (tx : BitVec 16) : State :=
  s.modTh c t fun th => { th with wrs := th.wrs.filter fun w => decide (w.txid ≠ tx) }

/-! ### Engine requests (R157, R163) -/

/-- Bytes put into a sorted run of positions. -/
def putRun (pos : Nat) (bs : List Byte) (m : SMap Byte) : SMap Byte :=
  m.filter (fun e => decide (e.1 < pos)) ++ ((List.range bs.length).map (pos + ·)).zip bs
    ++ m.filter (fun e => decide (pos + bs.length ≤ e.1))

/-- The bytes at positions p to e − 1 of a sorted run; a position not listed holds 0. -/
def getRun : SMap Byte → Nat → Nat → List Byte
  | [], p, e => List.replicate (e - p) 0
  | (k, b) :: r, p, e =>
    if k < p then getRun r p e
    else if e ≤ k then List.replicate (e - p) 0
    else List.replicate (k - p) 0 ++ b :: getRun r (k + 1) e

/-- A command with the data of one of its reads: staged, with the poison that it brings; a whole tile with
M = 0 comes as its entry (R168). -/
def EngCmd.data (k : EngCmd) (r : EngReq) (p : Packet) : EngCmd :=
  let k := { k with reqs := k.reqs.filter fun q => decide (q.txid ≠ r.txid) }
  match r.stage with
  | none => k
  | some pos =>
    match p.tile with
    | some e => { k with ent := some e }
    | none =>
      let bad := (List.range r.bytes).filter fun i => p.poison.contains (i / 8)
      { k with stage := putRun pos ((List.range r.bytes).map (replyByte p)) k.stage, spsn := k.spsn ++ bad.map (pos + ·) }

/-- A failure of a command: the first in the command's own order stays (R163). -/
def EngCmd.failure (k : EngCmd) (order status fstat : Nat) (wher : Word) : EngCmd :=
  if k.fail.isSome && decide (k.failAt ≤ order) then k else { k with fail := some (status, fstat, wher), failAt := order }

/-- A command with an error status for one of its requests. -/
def EngCmd.error (k : EngCmd) (r : EngReq) (st : Nat) : EngCmd :=
  { k with reqs := k.reqs.filter fun q => decide (q.txid ≠ r.txid) }.failure r.order 1 st r.gva

/-- A command of a cluster's engine changed. -/
def State.modEng (s : State) (cl : BitVec 8) (id : Nat) (f : EngCmd → EngCmd) : State :=
  s.modCluster cl fun k => { k with eng := k.eng.map fun e => if e.id = id then f e else e }

/-- A reply reaches its command: kind 6 data, 7 done, else an error. -/
def State.engineReply (s : State) (cl : BitVec 8) (id : Nat) (tx : BitVec 16) (kind : Nat) (p : Packet) (st : Nat) : State :=
  s.modEng cl id fun k => match k.reqs.find? fun r => decide (r.txid = tx) with
    | some r => if kind = 9 then k.error r st else k.data r p
    | none => k

/-! ### Replies to saved contexts (R376) -/

/-- The place of an offset in a save area. -/
def SaveArea.place (a : SaveArea) (o : Nat) : Nat := a.units.getD ((a.off + o) / 2 ^ 21) 0 + (a.off + o) % 2 ^ 21
/-- The places of the core record of a rank, by offset in the record (Table 14.7). -/
def coreRecord (a : SaveArea) (rank o : Nat) : Nat := a.place (0x100000 + 0x24000 * rank + o)
/-- The places of a thread record (Tables 14.9, 14.10). -/
def threadRecord (a : SaveArea) (rank : Nat) (t : ThrIx) (o : Nat) : Nat := coreRecord a rank (0x1C000 + 0x800 * t.toNat + o)
/-- The places of the window copy in a save area (Table 14.7). -/
def windowCopy (a : SaveArea) (o : Nat) : Nat := a.place (0x1300000 + o)

/-- A team of a cluster that is saved, by job. -/
def State.savedOf (s : State) (cl : BitVec 8) (job : BitVec 8) : Option Saved :=
  (s.cluster cl).saved.find? fun v => decide (v.job = job)

/-- A saved team changed. -/
def State.modSaved (s : State) (cl : BitVec 8) (job : BitVec 8) (f : Saved → Saved) : State :=
  s.modCluster cl fun k => { k with saved := k.saved.map fun v => if v.job = job then f v else v }

/-- A core of a saved team. -/
def Saved.core (v : Saved) (c : CoreIx) : Core := SMap.get {} v.cores c.toNat
/-- A core of a saved team changed. -/
def Saved.modCore (v : Saved) (c : CoreIx) (f : Core → Core) : Saved := { v with cores := SMap.set c.toNat (f (v.core c)) v.cores }
/-- A thread of a saved team changed. -/
def Saved.modTh (v : Saved) (c : CoreIx) (t : ThrIx) (f : Thread → Thread) : Saved :=
  v.modCore c fun k => k.setThread t (f (k.thread t))

/-- Where a near place of a saved team is kept meanwhile. -/
def Saved.place (v : Saved) (p : Nat) : Nat :=
  let o := p % 2 ^ 64
  if placeKind p = 2 then coreRecord v.area (v.core (BitVec.ofNat 15 (o / 2 ^ 17))).rank.toNat (o % 2 ^ 17)
  else windowCopy v.area (o % 2 ^ 24 - (v.cores.head?.map fun c => c.2.winBase * 4096).getD 0)

/-- A 64-bit word of the save area written. -/
def State.put64 (s : State) (p : Nat) (x : Word) : State := s.storeWord p x (BitVec.allOnes 16)

/-- A message into the kitty of a saved core, whose tail the save area holds; the kitty is reported when it becomes full (R317,
R369). -/
def State.savedMsg (s : State) (cl : BitVec 8) (job : BitVec 8) (c : CoreIx) (m : Message) : State :=
  match s.savedOf cl job with
  | none => s
  | some v =>
    let r := s.kittyAdd (v.core c).kitty m
    let y := { r.2 with reported := r.2.reported || r.2.toReport }
    let s := (r.1.modSaved cl job fun v => v.modCore c fun k => { k with kitty := y }).put64
      (coreRecord v.area (v.core c).rank.toNat 0x20550) (BitVec.ofNat 64 (y.tail % y.size))
    if r.2.toReport then s.report4 c job 0 2 0 else s

/-- A self-formed message for a saved core, in its kitty, or held while that is full (R317, R369). -/
def State.savedSelf (s : State) (v : Saved) (c : CoreIx) (lab : Label) (cls : Cls) (ws : List Word) : State :=
  let n := s.fresh
  if (v.core c).owed.isEmpty && !(v.core c).kitty.full then
    n.2.savedMsg (clusterOf c) v.job c
      { hdr := { dcore := coreOf c, dcl := clusterOf c, dmod := s.cfg.modid, cls := cls, lab := lab,
                 plen := BitVec.ofNat 5 (plenOf ws), src := s.coreName c, job := v.job },
        words := padWords ws, arrived := plenOf ws, id := n.1 }
  else s.modSaved (clusterOf c) v.job fun v => v.modCore c fun k => { k with owed := k.owed ++ [(lab, cls, ws)] }

/-- An entry of a saved core's parked-reply table is released in the save area (R376). -/
def State.unpark (s : State) (c : CoreIx) (tx : BitVec 16) : State :=
  (s.cluster (clusterOf c)).saved.foldl (fun s v =>
    match SMap.find v.cores c.toNat with
    | none => s
    | some k =>
      let p (i : Nat) : Nat := coreRecord v.area k.rank.toNat (0x22000 + 16 * i)
      match (List.range 512).find? fun i => decide ((s.word (p i)).extractLsb' 0 16 = tx) && (s.word (p i)).getLsbD 23 with
      | some i => s.put64 (p i) (s.word (p i) &&& ~~~ (1#64 <<< 23))
      | none => s) s

/-- The far-read record of a TXID in a thread record: its place (Table 14.10). -/
def State.farRecord (s : State) (rec : Nat → Nat) (tx : BitVec 16) : Option Nat :=
  ((List.range 8).map fun i => rec (0x580 + 16 * i)).find? fun p =>
    decide ((s.word p).extractLsb' 0 16 = tx) && (s.word p).getLsbD 23

/-- Bytes stored in words of 8 at the places of their offsets; `bad` lists poisoned words. -/
def State.storeAt (s : State) (place : Nat → Nat) (bs : List Byte) (bad : List Nat) : State :=
  (List.range ((bs.length + 7) / 8)).foldl (fun s i =>
    let w := (bs.drop (8 * i)).take 8
    s.storeWord (place (8 * i)) (BitVec.ofNat 64 (leVal w)) (byteMask 0 w.length) (bad.contains i)) s

/-- A far-read record marked replied, with its status and poison mark. -/
def State.markReplied (s : State) (rec : Nat → Nat) (tx : BitVec 16) (st : BitVec 4) (psn : Bool) : State :=
  match s.farRecord rec tx with
  | some p => s.storeWord p (s.word p ||| wordOf [(0, 25), (st.toNat, 4), (1, 1), (psn.toNat, 1)]) (BitVec.allOnes 16)
  | none => s

/-- The slot of a read's destination in a thread record, after the context's thread has it. -/
def State.fillSlot (s : State) (rec : Nat → Nat) (th : Thread) : Dest → State
  | .none => s
  | .s d => s.put64 (rec (8 * d.toNat)) (th.reg d)
  | .v d q => ((List.range 8).filter fun i => q.getLsbD i).foldl
      (fun s i => s.put64 (rec (0x100 + 64 * d.toNat + 8 * i)) (lane (th.vreg d) i)) s
  | .out => (s.put64 (rec (0x600 + 8 * (th.out.length - 1))) (th.out.getLastD 0)).put64 (rec 0x568)
      ((s.word (rec 0x568) &&& ~~~ 0x1FF00#64) ||| wordOf [(0, 8), (th.out.length, 9)])

/-- RDATA for a saved thread. -/
def State.savedData (s : State) (v : Saved) (c : CoreIx) (t : ThrIx) (tx : BitVec 16) (p : Packet) : State :=
  let cl := clusterOf c
  let th := (v.core c).thread t
  let rec_ := threadRecord v.area (v.core c).rank.toNat t
  match th.block, th.readOf tx with
  | some b, none =>
    if b.txid = tx then
      let s := s.modSaved cl v.job fun v => v.modTh c t fun th => { th with block := some { b with got := some (p.words.getD 0 0) } }
      let s := if b.dest = 0 ∨ b.dest = 30 then s else s.put64 (rec_ (8 * b.dest.toNat)) (p.words.getD 0 0)
      s.markReplied rec_ tx 0 false
    else s
  | _, some r =>
    match r.kind with
    | .get near lab cls =>
      let bad := r.badWords p
      let s := s.modSaved cl v.job fun v => v.modTh c t fun th => th.dropRead tx
      ((s.storeAt (fun o => v.place (near + o)) (r.data p) bad).markReplied rec_ tx 0 (!bad.isEmpty)).savedSelf v c lab cls
        (getWords 0 (!bad.isEmpty) r.addr)
    | _ =>
      if r.meetsPoison p then
        (s.modSaved cl v.job fun v => v.modTh c t fun th => th.failRead tx .poison).markReplied rec_ tx 0 true
      else
        let th := (th.dropRead tx).fill r (r.data p)
        ((s.modSaved cl v.job fun v => v.modTh c t fun _ => th).fillSlot rec_ th r.dest).markReplied rec_ tx 0 false
  | _, none => s

/-- An error status for a saved thread's request: only the status is recorded; a far write's fault message goes to
the kitty, or to the system job. -/
def State.savedError (s : State) (v : Saved) (c : CoreIx) (t : ThrIx) (tx : BitVec 16) (st : BitVec 4) : State :=
  let cl := clusterOf c
  let th := (v.core c).thread t
  let rec_ := threadRecord v.area (v.core c).rank.toNat t
  match th.block, th.readOf tx, th.wrs.find? fun w => decide (w.txid = tx) with
  | some b, none, none =>
    if b.txid = tx then
      (s.modSaved cl v.job fun v => v.modTh c t fun th => { th with block := some { b with err := some st } }).markReplied rec_ tx st false
    else s
  | _, some r, _ =>
    match r.kind with
    | .get _ lab cls =>
      ((s.modSaved cl v.job fun v => v.modTh c t fun th => th.dropRead tx).markReplied rec_ tx st false).savedSelf v c lab cls
        (getWords st.toNat false r.addr)
    | _ => (s.modSaved cl v.job fun v => v.modTh c t fun th => th.failRead tx (.status st)).markReplied rec_ tx st false
  | _, none, some w =>
    let s := s.modSaved cl v.job fun v => v.modTh c t fun th => { th with wrs := th.wrs.filter fun w => decide (w.txid ≠ tx) }
    let e := (v.core c).trigger 127
    if !trgEn e || Cls.isTrump (trgCls e) then s.report c 2 (faultWords t st.toNat w)
    else s.savedSelf v c 127 .high (faultWords t st.toNat w)
  | none, none, none => s

/-! ### The final reply of a request -/

/-- A final reply of a kind (6 RDATA, 7 ACK, 9 an error status) for a request of a core; `got` are the words of a `get` that
are written already. -/
def State.finalReply (s : State) (c : CoreIx) (r : Req) (kind : Nat) (p : Packet) (st : BitVec 4)
    (got : SMap (Word × Bool) := []) : State :=
  let s := s.closeReq c r
  match r.owner with
  | .thread t =>
    if kind = 6 then s.threadData c t r.txid p got else if kind = 7 then s.threadAck c t r.txid else s.threadError c t r.txid st
  | .engine id => s.engineReply (clusterOf c) id r.txid kind p st.toNat
  | .saved job t =>
    let s := s.unpark c r.txid
    match s.savedOf (clusterOf c) job with
    | some v =>
      if kind = 6 then s.savedData v c t r.txid p
      else if kind = 7 then s.modSaved (clusterOf c) job fun v => v.modTh c t fun th => { th with wrs := th.wrs.filter fun w => decide (w.txid ≠ r.txid) }
      else s.savedError v c t r.txid st
    | none => s
  | .gone => s.unpark c r.txid

/-- Packets on their way with the same source, destination core or endpoint, network and class, neither sent again (R117). -/
def samePair (f g : Flight) : Bool :=
  decide (f.p.hdr.src = g.p.hdr.src ∧ f.p.hdr.dcore = g.p.hdr.dcore ∧ f.p.hdr.dcl = g.p.hdr.dcl
    ∧ f.p.hdr.dmod = g.p.hdr.dmod ∧ f.ep = g.ep ∧ f.p.hdr.vn = g.p.hdr.vn ∧ f.p.hdr.cls = g.p.hdr.cls)
  && !f.again && !g.again && decide (f.loc ≠ .home ∧ g.loc ≠ .home)

/-- The n-th packet in flight, if it is at its destination, of a kind, and none of its pair is before it. -/
def State.arrived (s : State) (n kind : Nat) : Option Flight :=
  match s.net[n]? with
  | some f => if f.loc = .dest ∧ f.p.hdr.kind.toNat = kind ∧ !(s.net.take n).any (samePair f) then some f else none
  | none => none

/-- A reply at its issuer: without an outstanding request of its TXID it is discarded (R119). -/
def State.replyAt (s : State) (n kind : Nat) (f : State → CoreIx → Req → Packet → State) : Out :=
  match s.arrived n kind with
  | none => .next s
  | some fl =>
    let s := s.dropFlight n
    let c := Header.dst fl.p.hdr
    match (s.core c).req fl.p.hdr.txid with
    | none => .next s
    | some r => .next (f s c r fl.p)

/-- Some of the near words of a `get` whose data the n-th packet brings, when others are put off (R150, R352). -/
def State.getPart (s : State) (n : Nat) (fl : Flight) : Option State :=
  let c := Header.dst fl.p.hdr
  match (s.core c).req fl.p.hdr.txid with
  | some { owner := .thread t, .. } =>
    match (s.getTh c t).readOf fl.p.hdr.txid with
    | some r =>
      match r.kind with
      | .get near _ _ =>
        let ps := r.nearPieces fl.p near
        let q := s.writeWords fl ps
        if q.2.got.length < ps.length then some { q.1 with net := putAt s.net n q.2, later := [] } else none
      | _ => none
    | none => none
  | _ => none

/-- RDATA_REPLY (R137, R146, R149). -/
def execRdataReply (n : Nat) (s : State) : Out :=
  match s.arrived n 6 with
  | none => .next s
  | some fl =>
    match s.getPart n fl with
    | some s' => .next s'
    | none => State.replyAt { s with later := [] } n 6 fun s c r p => s.finalReply c r 6 p 0 fl.got
/-- ACK_REPLY (R141). -/
def execAckReply (n : Nat) (s : State) : Out := s.replyAt n 7 fun s c r p => s.finalReply c r 7 p 0
/-- PARK_NOTICE: the timer restarts, the count of expiries is zero (R126). -/
def execParkNotice (n : Nat) (s : State) : Out :=
  s.replyAt n 8 fun s c r _ => s.modReq c r.txid fun r => { r with expiries := 0, timer := s.cycle.toNat }
/-- ERR_REPLY: after NACK the request stays outstanding and is sent again after the retry-after (R126, R135); any
other status is final (R142). -/
def execErrReply (n : Nat) (s : State) : Out :=
  s.replyAt n 9 fun s c r p =>
    if p.hdr.stat = 8 then s.modReq c r.txid fun r => { r with nack := some (s.cycle.toNat + 64 * fld p.hdr.aux.toNat 0 8) }
    else s.finalReply c r 9 p p.hdr.stat

/-- A request is transmitted again with its TXID (R126). -/
def State.resend (s : State) (c : CoreIx) (r : Req) : State :=
  (s.modReq c r.txid fun r => { r with sentAt := s.cycle.toNat, timer := s.cycle.toNat, nack := none }).sendRequest c r.pkt none true

/-- FAR_TIMER_EXPIRY: the fourth completes the request with TIMEOUT; before, a request to another module is sent
again (R126). -/
def execFarTimerExpiry (core : CoreIx) (txid : BitVec 16) (s : State) : Out :=
  match (s.core core).req txid with
  | none => .next s
  | some r =>
    if s.cycle.toNat < r.timer + s.cfg.timer * s.us10 then .next s
    else if 3 ≤ r.expiries then .next (s.finalReply core r 9 r.pkt 7)
    else
      let s' := s.modReq core txid fun r => { r with expiries := r.expiries + 1, timer := s.cycle.toNat }
      if r.pkt.hdr.dmod = s.cfg.modid then .next s'
      else if s.mayInject (clusterOf core) 0 false then .next (s'.resend core r) else .next s

/-- NACK_RESEND (R126). -/
def execNackResend (core : CoreIx) (txid : BitVec 16) (s : State) : Out :=
  match (s.core core).req txid with
  | none => .next s
  | some r =>
    match r.nack with
    | some t => if t ≤ s.cycle.toNat ∧ s.mayInject (clusterOf core) 0 false = true then .next (s.resend core r) else .next s
    | none => .next s

end Sys2Proof.Machine
end

