-- ==== Sys2Proof/Machine/Fabric.lean ====
section
/-! DEFINITION. Routers, gateway switches, arrival rings and Predan links (R111 to R125, R131). -/

namespace Sys2Proof.Machine

/-! ### Headers and buffers -/

/-- Whether a kind may have a number of payload flits (Table 4.2). -/
def plenOk (kind plen : Nat) : Bool :=
  match kind with
  | 0 => decide (plen ≤ 16)
  | 1 | 3 | 4 => decide (plen = 1)
  | 2 | 6 => decide (1 ≤ plen ∧ plen ≤ 16)
  | 5 => decide (plen = 2)
  | 11 => decide (plen ≤ 2)
  | _ => decide (plen = 0)

/-- Whether a header is one that the device never forms (R111). -/
def Header.malformed (h : Header) : Bool :=
  decide (2 ≤ h.vn.toNat) || decide (12 ≤ h.kind.toNat) || !plenOk h.kind.toNat h.plen.toNat || decide (h.rsvd ≠ 0)

/-- A discarded header's machine check (R111, Table 14.4). -/
def State.malformedCheck (s : State) (cl : BitVec 8) (h : Header) : State := s.machineCheck 1 cl 0 0 (Header.lo h, Header.hi h)

/-- Whether a flight is a trump packet: those have a reserve of their own on VN 0 (R118). -/
def Flight.trump (f : Flight) : Bool := Cls.isTrump f.p.hdr.cls && decide (f.p.hdr.vn = 0)

/-! ### Routes (R115, R116) -/

/-- The gateway cluster of an index: (2i, 8). -/
def gatewayCluster (i : Nat) : BitVec 8 := BitVec.ofNat 8 (8 * 16 + 2 * i)

/-- Coordinate d (0 x, 1 y, 2 z) of a module number (R114). -/
def podCoord (m : BitVec 12) (d : Nat) : Nat := fld m.toNat (4 * d) 4

/-- On a ring of n positions, whether the way goes in the + direction (R116). -/
def ringPlus (n src dst : Nat) : Bool :=
  let d := (dst + n - src) % n
  decide (d ≤ n - d)

/-- The direction of the next Predan hop to a module: +X 0, −X 1, +Y 2, −Y 3, +Z 4, −Z 5 (R116). -/
def State.podDir (s : State) (m : BitVec 12) : Option Nat :=
  ((List.range 3).find? fun d => decide (podCoord m d ≠ podCoord s.cfg.modid d)).map fun d =>
    if ringPlus (podCoord s.cfg.podext d + 1) (podCoord s.cfg.modid d) (podCoord m d) then 2 * d else 2 * d + 1

/-- The number of a Predan link: 8 for each direction, by switch index (log 22). -/
def linkNo (dir i : Nat) : Nat := 8 * dir + i
def State.link (s : State) (l : Nat) : Link := SMap.get {} s.links l
def State.setLink (s : State) (l : Nat) (k : Link) : State := { s with links := SMap.set l k s.links }

/-- The gateway of a packet for another module in the band of a cluster: the entry of the band's list at the position of the
source cluster's number, or the next one whose link in the direction is up (R115, R125). -/
def State.gatewayFor (s : State) (src : BitVec 27) (cl : BitVec 8) (dir : Nat) : Option Nat :=
  let gs := s.gatewayList cl
  let from_ := (clusterOf (ixOf src)).toNat
  ((List.range gs.length).map fun k => gs.getD ((from_ + k) % gs.length) 0).find? fun i => (s.link (linkNo dir i)).up

/-- Whether a packet is a memory request. -/
def Packet.isRequest (p : Packet) : Bool := decide (1 ≤ p.hdr.kind.toNat ∧ p.hdr.kind.toNat ≤ 5)

/-- Where a packet in a router wants to go: an output (0 ejection, 1 to 4 the links +x, −x, +y, −y, 5 the switch)
and the place, or nothing when no gateway is up. -/
def State.wants (s : State) (f : Flight) (cl : BitVec 8) : Option (Nat × Loc) :=
  let h := f.p.hdr
  let away := decide (h.dmod ≠ s.cfg.modid)
  let gw : Option Nat := match s.podDir h.dmod with
    | some d => s.gatewayFor h.src cl d
    | none => none
  let target : Option (BitVec 8) := if away then gw.map gatewayCluster else some h.dcl
  match target with
  | none => none
  | some t =>
    if t = cl then
      if away then some (5, .switch (BitVec.ofNat 3 (gw.getD 0)) 3) else some (0, if Packet.isRequest f.p then .home else .dest)
    else
      let w := s.pctl (s.partOf cl)
      let torus := decide (pctlLo w = 0 ∧ pctlHi w = 15)
      let plus (a b : Nat) : Bool := if torus then ringPlus 16 a b else decide (a < b)
      let x := columnOf cl
      let y := rowOf cl
      if columnOf t ≠ x then
        if plus x (columnOf t) then some (1, .router (BitVec.ofNat 8 (16 * y + (x + 1) % 16)) 1)
        else some (2, .router (BitVec.ofNat 8 (16 * y + (x + 15) % 16)) 2)
      else if plus y (rowOf t) then some (3, .router (BitVec.ofNat 8 (16 * ((y + 1) % 16) + x)) 3)
      else some (4, .router (BitVec.ofNat 8 (16 * ((y + 15) % 16) + x)) 4)

/-- What a packet asks for: an output port (0 to 5 of a router, numbered 8·cluster + output; the six directions of a switch,
from 2048 on, and back into its router), the input port at which it waits, its next place, and whether it stays on its ring. -/
structure Bid where
  out : Nat
  inp : Nat
  loc : Loc
  along : Bool
  deriving DecidableEq, Repr

/-- What a packet in a router or a switch asks for; a switch whose link is down gives it back to the router (R116, R125). -/
def State.bid (s : State) (f : Flight) : Option Bid :=
  match f.loc with
  | .router cl port => (s.wants f cl).map fun w => { out := 8 * cl.toNat + w.1, inp := port, loc := w.2, along := decide (port = w.1) }
  | .switch i dim =>
    match s.podDir f.p.hdr.dmod with
    | none => none
    | some d =>
      if (s.link (linkNo d i.toNat)).up then
        some { out := 2048 + 8 * i.toNat + d, inp := dim, loc := .link (BitVec.ofNat 6 (linkNo d i.toNat)), along := decide (dim = d / 2) }
      else some { out := 2048 + 8 * i.toNat + 6, inp := dim, loc := .router (gatewayCluster i.toNat) 5, along := false }
  | _ => none

/-- Packets of a network that have left by a link and are not acknowledged: their credits are used (R118). -/
def State.onLink (s : State) (l : BitVec 6) (vn : BitVec 2) : Nat := (s.net.filter fun g => decide (g.loc = .link l ∧ g.p.hdr.vn = vn)).length

/-- Whether a packet may advance: two spaces to enter a ring, one to go on along it; at its destination a MSG waits for the one
before it of its kind, a reply and a request are taken at once (R118 to R120). -/
def State.mayHop (s : State) (f : Flight) (b : Bid) : Bool :=
  let need := if b.along then 1 else 2
  match b.loc with
  | .home => true
  | .dest => decide (f.p.hdr.vn ≠ 0) || !s.net.any fun g => decide (g.loc = .dest) && !g.supPath
      && decide (g.p.hdr.vn = 0 ∧ Header.dst g.p.hdr = Header.dst f.p.hdr ∧ Cls.isTrump g.p.hdr.cls = Cls.isTrump f.p.hdr.cls)
  | .link l => !(s.link l.toNat).retraining && decide (s.onLink l f.p.hdr.vn + need ≤ 64)
  | loc => s.roomAt loc f.p.hdr.vn f.trump need

/-- The rank of a packet in arbitration: its class; a packet that has waited 4,096 cycles competes as high (R121). -/
def State.rank (s : State) (f : Flight) : Nat :=
  let c := f.p.hdr.cls.code
  if c < 2 ∧ f.since + 4096 ≤ s.cycle.toNat then 2 else c

/-- How far an input port is behind the one served last (R121). -/
def turn (last port : Nat) : Nat := (port + 5 - last) % 6

/-- Whether a flight wins its output port: of the packets that may advance there, the highest class, then the port whose turn
it is, then the one that came first (R121). -/
def State.wins (s : State) (n : Nat) (f : Flight) (b : Bid) : Bool :=
  let last := SMap.get 5 s.rr b.out
  ((List.range s.net.length).zip s.net).all fun e =>
    let g := e.2
    match s.bid g with
    | none => true
    | some c =>
      decide (e.1 = n) || decide (c.out ≠ b.out) || !s.mayHop g c || decide (s.rank g < s.rank f)
        || (decide (s.rank g = s.rank f) && (decide (turn last b.inp < turn last c.inp) || (decide (b.inp = c.inp) && decide (n < e.1))))

/-- A packet lost: its machine check (R125). -/
def State.lostCheck (s : State) (cl : BitVec 8) (l : Nat) (h : Header) : State := s.machineCheck 3 cl l 0 (Header.lo h, Header.hi h)

/-- The n-th packet at its next place. -/
def State.moveFlight (s : State) (n : Nat) (f : Flight) (loc : Loc) : State :=
  { s with net := putAt s.net n { f with loc := loc, since := s.cycle.toNat, arr := s.tick } }

/-- A packet in a router or switch (R116, R118, R121). Where every link of its direction is down it is lost (R125); while one
is up outside its band's list it waits (log 71). -/
def State.hop (s : State) (n : Nat) (f : Flight) (cl : BitVec 8) : State :=
  if Header.malformed f.p.hdr then (s.dropFlight n).malformedCheck cl f.p.hdr
  else match s.bid f with
    | none =>
      match s.podDir f.p.hdr.dmod with
      | some d => if (List.range 8).all (fun i => !(s.link (linkNo d i)).up) then (s.dropFlight n).lostCheck cl (linkNo d 0) f.p.hdr else s
      | none => s
    | some b => if s.mayHop f b && s.wins n f b then { s with rr := SMap.set b.out b.inp s.rr }.moveFlight n f b.loc else s

/-- A packet on a link comes to the other side, which acknowledges it; after 16 failed replays in a row the link must retrain
first (R124). -/
def State.linkHop (s : State) (n : Nat) (f : Flight) (l : BitVec 6) : State :=
  let k := s.link l.toNat
  if k.up && !k.retraining && decide (k.fails < 16) then
    { (s.dropFlight n).setLink l.toNat { k with fails := 0 } with podOut := s.podOut ++ [f.p] }
  else s

/-- ROUTER_FORWARD: the n-th packet in flight takes its next hop if it may; it does not pass one of its pair at the
same place (R117, R118). -/
def execRouterForward (n : Nat) (s : State) : Out :=
  match s.net[n]? with
  | none => .next s
  | some f =>
    if (s.net.take n).any fun g => samePair f g && decide (g.loc = f.loc) then .next s
    else match f.loc with
      | .router cl _ => .next (s.hop n f cl)
      | .switch i _ => .next (s.hop n f (gatewayCluster i.toNat))
      | .link l => .next (s.linkHop n f l)
      | .home | .dest => .next s

/-! ### Arrivals from other modules (R120, R131) -/

/-- The check of the gateway: the destination's band has POD 1 and admits the source module; of a memory request,
the band of the entering gateway (R92, R131). -/
def State.gatewayGuard (s : State) (i : Nat) (p : Packet) : Bool :=
  let q := s.partOf (if Packet.isRequest p then gatewayCluster i else p.hdr.dcl)
  decide (p.hdr.job = 0) || (pctlPod (s.pctl q) && s.modsBit q (modOf p.hdr.src))

/-- A packet as it enters the wafer at gateway i: a request by the translator of the gateway cluster, CTL and the system job's
messages for another band on the supervisor control path, anything else in the gateway cluster's router (R90, R116, R131). -/
def State.entering (s : State) (i : Nat) (p : Packet) : Flight :=
  let gc := gatewayCluster i
  let part := s.partOf gc
  let sup := decide (p.hdr.kind = 11) || (decide (p.hdr.kind = 0 ∧ p.hdr.job = 0) && !s.inBand part p.hdr.dcl)
  let f : Flight := { p := p, since := s.cycle.toNat, part := part, supPath := sup, loc := if sup then .dest else .router gc 5 }
  if Packet.isRequest p then s.aimed { f with ent := s.stage1 p part } gc 5 else f

/-- Whether a packet may enter the wafer now (R118). -/
def State.mayEnter (s : State) (f : Flight) : Bool :=
  match f.loc with
  | .router .. => s.roomAt f.loc f.p.hdr.vn f.trump 2
  | _ => true

/-- The dimension along whose ring a packet came to this module: the last one, in the order X, Y, Z, in which its source has
another coordinate (R116). -/
def State.cameBy (s : State) (src : BitVec 27) : Nat :=
  (([2, 1, 0] : List Nat).find? fun d => decide (podCoord (modOf src) d ≠ podCoord s.cfg.modid d)).getD 0

/-- Flits that an arrival ring holds; it is full when a packet of 17 no longer fits its 2 MiB (R120). -/
def ringFlits (r : List Packet) : Nat := (r.map fun p => 1 + p.hdr.plen.toNat).sum
def ringFull (r : List Packet) : Bool := decide (131072 < ringFlits r + 17)

def State.setSwitch (s : State) (i : Nat) (k : Switch) : State := { s with switches := SMap.set i k s.switches }

/-- A packet failed the gateway check: the report names the partition of the entering gateway (R132, log 72). -/
def State.gatewayViolation (s : State) (i : Nat) (p : Packet) : State :=
  s.report (coreIx (gatewayCluster i) 0) 3
    [wordOf [(p.hdr.src.toNat, 27), (p.hdr.job.toNat, 8), (s.partOf (gatewayCluster i), 4), (p.hdr.kind.toNat, 4)],
     wordOf [(Header.nat p.hdr % 2 ^ 27, 27)]]

/-- GATEWAY_ARRIVAL: a packet from a Predan link (R111, R116, R120, R131). -/
def execGatewayArrival (sw : BitVec 3) (p : Packet) (s : State) : Out :=
  let i := sw.toNat
  let p := { p with tile := none }
  let k := s.sw i
  if p.hdr.vn = 0 ∧ ringFull k.ring = true then .next s
  else if Header.malformed p.hdr then .next (s.malformedCheck (gatewayCluster i) p.hdr)
  else if p.hdr.dmod ≠ s.cfg.modid then
    let f : Flight := { p := p, loc := .switch sw (s.cameBy p.hdr.src), since := s.cycle.toNat }
    if s.roomAt f.loc p.hdr.vn f.trump 1 then .next (s.launch f) else .next s
  else if !s.gatewayGuard i p then .next (s.gatewayViolation i p)
  else
    let f := s.entering i p
    if p.hdr.vn = 0 ∧ (!k.ring.isEmpty ∨ !s.mayEnter f) then
      let ring := k.ring ++ [p]
      .next (s.setSwitch i { k with ring := ring, fullSince := if ringFull ring then some s.cycle.toNat else none })
    else if s.mayEnter f then .next (s.launch f) else .next s

/-- ARRIVAL_RING_REENTRY: in arrival order (R120). -/
def execArrivalRingReentry (sw : BitVec 3) (s : State) : Out :=
  let k := s.sw sw.toNat
  match k.ring with
  | [] => .next s
  | p :: ps =>
    let f := s.entering sw.toNat p
    if s.mayEnter f then .next ((s.setSwitch sw.toNat { k with ring := ps, fullSince := if ringFull ps then k.fullSince else none }).launch f)
    else .next s

/-- ARRIVAL_RING_FULL_REPORT: after 1 ms (R120). -/
def execArrivalRingFullReport (sw : BitVec 3) (s : State) : Out :=
  let k := s.sw sw.toNat
  match k.fullSince with
  | some t =>
    if t + 100 * s.us10 ≤ s.cycle.toNat then
      .next ((s.setSwitch sw.toNat { k with fullSince := none }).machineCheck 6 (gatewayCluster sw.toNat) 0 0)
    else .next s
  | none => .next s

/-! ### Predan links (R122, R124, R125) -/

/-- LINK_CRC_ERROR: one more failed replay in a row. -/
def execLinkCrcError (link : BitVec 6) (s : State) : Out :=
  let k := s.link link.toNat
  if k.up && !k.retraining then .next (s.setLink link.toNat { k with fails := k.fails + 1 }) else .next s

/-- LINK_RETRAIN: after 16 consecutive failed replays. -/
def execLinkRetrain (link : BitVec 6) (s : State) : Out :=
  let k := s.link link.toNat
  if k.up && decide (16 ≤ k.fails) then .next (s.setLink link.toNat { k with retraining := true }) else .next s

/-- LINK_RETRAINED: the link replays. -/
def execLinkRetrained (link : BitVec 6) (s : State) : Out :=
  let k := s.link link.toNat
  if k.retraining then .next (s.setLink link.toNat { k with retraining := false, fails := 0 }) else .next s

/-- LINK_DOWN: the retraining fails; what was not acknowledged is lost, one record for each packet. -/
def execLinkDown (link : BitVec 6) (s : State) : Out :=
  let k := s.link link.toNat
  if k.retraining then
    let lost := s.net.filter fun f => decide (f.loc = .link link)
    let cl := gatewayCluster (link.toNat % 8)
    let s := { s with net := s.net.filter fun f => decide (f.loc ≠ Loc.link link) }.setLink link.toNat { up := false }
    if lost.isEmpty then .next (s.machineCheck 3 cl link.toNat 0)
    else .next (lost.foldl (fun s f => s.lostCheck cl link.toNat f.p.hdr) s)
  else .next s

/-- POD_COUNTER_EXCHANGE: the switch takes over a counter that is ahead of its own (R122, log 23). -/
def execPodCounterExchange (sw : BitVec 3) (value : BitVec 64) (s : State) : Out :=
  let k := s.sw sw.toNat
  if (s.cycle + k.podSkew).toNat < value.toNat then .next (s.setSwitch sw.toNat { k with podSkew := value - s.cycle })
  else .next s

end Sys2Proof.Machine
end

