-- ==== Sys2Proof/Machine/Msg.lean ====
section
/-! DEFINITION. The instructions that send, receive and steer: `send`, `send.r`, `sendv`, `mcast`, `recv`, the
triggers, `tlaunch`, `bar`, `arrive` (R330 to R336, R363). -/

namespace Sys2Proof.Machine

/-- The payload of a send, cut for a trump class or a control send, and whether it was cut (R330, R363). -/
def cutPayload (short : Bool) (ws : List Word) : List Word × Bool :=
  if short && decide (4 < ws.length) then (ws.take 4, true) else (ws, false)

/-- SENDX after its checks: entries are taken for the header and the words; `th` is the thread after the pops,
`keepOut` says that the open message stays (R330). -/
def State.sendEntry (s : State) (th : Thread) (dsts : List (BitVec 27)) (cls : Cls) (lab : Label) (tag : BitVec 4)
    (ws : List Word) (rel ctl keepOut : Bool) : State :=
  let w := cutPayload (Cls.isTrump cls || ctl) ws
  s.withRoom (1 + w.1.length) fun s =>
    let e : Entry := .msg dsts (if ctl then .high else cls) lab tag w.1 rel ctl
    s.setTh ({ th with buf := th.buf ++ [e], out := if keepOut then th.out else [], oov := th.oov || w.2 }.advance 4)

/-- The send forms to one core (R330). -/
def State.sendOne (s : State) (a : SReg) (cls : Cls) (lab : Label) (tag : BitVec 4) (rel : Bool)
    (vec : Option VReg) : State :=
  let r := s.th.rd a
  let dst := s.sendDst r.1
  if s.reaches (modOf dst) then
    match vec with
    | some vb => s.sendEntry r.2 [dst] cls lab tag ((List.range 8).map fun i => lane (s.th.vreg vb) i) rel false true
    | none => s.sendEntry r.2 [dst] cls lab tag s.th.out rel (s.k.sup && decide (tag = 15)) false
  else s.trap .farAddr r.1

/-- `send` (R330). -/
def execSend (cls : Cls) (a : SReg) (lab : Label) (tag : BitVec 4) (s : State) : Out := .next (s.sendOne a cls lab tag false none)
/-- `send.r` (R330, R331). -/
def execSendR (cls : Cls) (a : SReg) (lab : Label) (tag : BitVec 4) (s : State) : Out := .next (s.sendOne a cls lab tag true none)
/-- `sendv`: the lanes of a vector register; the open message stays (R330). -/
def execSendv (cls : Cls) (a : SReg) (lab : Label) (tag : BitVec 4) (vb : VReg) (s : State) : Out :=
  .next (s.sendOne a cls lab tag false (some vb))

/-- A group of the table that a job owns (R325). -/
def State.groupOf (s : State) (g : BitVec 8) (job : BitVec 8) : Option Group :=
  match SMap.find s.groups g.toNat with
  | some gr => if gr.job = job then some gr else none
  | none => none

/-- `mcast`: one copy per member (R330, R331). -/
def execMcast (cls : Cls) (a : SReg) (lab : Label) (tag : BitVec 4) (s : State) : Out :=
  let r := s.th.rd a
  match s.groupOf (r.1.extractLsb' 0 8) s.k.job with
  | none => .next (s.trap .nearBound r.1)
  | some g => .next (s.sendEntry r.2 (g.members.map s.coreName) cls lab tag s.th.out false false false)

/-! ### recv -/

/-- The oldest entry of a label in a queue, and the queue without it. -/
def takeLabel (lab : Label) : List Message → Option (Message × List Message)
  | [] => none
  | m :: ms => if m.hdr.lab = lab then some (m, ms) else (takeLabel lab ms).map fun r => (r.1, m :: r.2)

/-- The oldest queued entry of a label, from the highest class that holds one, dequeued (R332). -/
def Core.dequeue (k : Core) (lab : Label) : Option (Message × Core) :=
  [Cls.trump, .high, .normal, .bulk].firstM fun c =>
    (takeLabel lab (k.queue c)).map fun r => (r.1, k.setQueue c r.2)

/-- The threads of a core that sleep in `recv` of a label: number and since when. -/
def Core.sleepers (k : Core) (lab : Label) : List (Nat × Nat) :=
  ((List.range 8).zip k.threads.toList).filterMap fun p =>
    match p.2.run with
    | .recv l since => if l = lab then some (p.1, since) else none
    | _ => none

/-- A thread takes a message at its `recv`: the PC goes on, or the overflow trap is taken with TEPC at the
`recv` (R178, R332). -/
def State.recvTake (s : State) (c : CoreIx) (t : ThrIx) (m : Message) : State :=
  match m.eff.overflow with
  | some a =>
    let s := s.modTh c t fun th => { (th.take m) with run := .ready }
    (s.dequeueEffects c t m).trapOverflow c t a true
  | none =>
    let s := s.modTh c t fun th => (th.take m).advance 4
    s.dequeueEffects c t m

/-- Whether the taking of a message would be a double trap (R178, R358). -/
def Message.doubles (m : Message) (th : Thread) : Bool := m.eff.overflow.isSome && th.trap

/-- `recv` (R332). -/
def execRecv (lab : Label) (s : State) : Out :=
  let sleep : State := s.setTh { s.th with run := .recv lab s.tick }
  if !(s.k.sleepers lab).isEmpty then .next sleep
  else match s.k.dequeue lab with
    | none => .next sleep
    | some r =>
      if r.1.doubles s.th then .next (s.trap .xpackOvf (r.1.eff.overflow.getD 0))
      else .next ((s.setCore s.cur.core r.2).recvTake s.cur.core s.cur.thr r.1)

/-! ### Triggers (R333, R334) -/

/-- EN of a trigger entry set or cleared. -/
def State.setEn (s : State) (lab : Label) (en : Bool) : State :=
  s.modK fun k =>
    let e := k.trigger lab
    let e' := if en then e ||| (1#64 <<< 38) else e &&& ~~~ (1#64 <<< 38)
    { k with trig := SMap.set lab.toNat e' k.trig }
/-- `arm`. -/
def execArm (lab : Label) (s : State) : Out := .next ((s.setTh (s.th.advance 4)).setEn lab true)
/-- `disarm`. -/
def execDisarm (lab : Label) (s : State) : Out := .next ((s.setTh (s.th.advance 4)).setEn lab false)
/-- What `tcnt` reads. -/
def Core.tcnt (k : Core) (lab : Label) : Word :=
  let e := k.trigger lab
  wordOf [((SMap.get 0 k.cnt lab.toNat).toNat, 16), (trgThold e, 16), ((trgEn e).toNat, 1), ((trgCount e).toNat, 1)]
/-- `tcnt`. -/
def execTcnt (d : SReg) (lab : Label) (s : State) : Out := s.const 4 d (s.k.tcnt lab)
/-- `setf`. -/
def execSetf (mask : Byte) (s : State) : Out :=
  .next ((s.setTh (s.th.advance 4)).modK fun k => { k with cf := k.cf ||| mask })
/-- `clrf`. -/
def execClrf (mask : Byte) (s : State) : Out :=
  .next ((s.setTh (s.th.advance 4)).modK fun k => { k with cf := k.cf &&& ~~~ mask })
/-- The tail-launch record of a job; a handle of 0 cancels it (R329). -/
def State.setTail (s : State) (job : BitVec 8) (h : Word) : State :=
  match SMap.find s.jobs job.toNat with
  | some j => { s with jobs := SMap.set job.toNat { j with tail := if h = 0 then none else some h } s.jobs }
  | none => s
/-- `tlaunch`. -/
def execTlaunch (a : SReg) (s : State) : Out :=
  let r := s.th.rd a
  .next ((s.setTh (r.2.advance 4)).setTail s.k.job r.1)

/-! ### Barriers (R326, R336) -/

/-- The group a core of its job belongs to. -/
def State.memberOf (s : State) (grp : BitVec 8) : Option Group :=
  match s.groupOf grp s.k.job with
  | some g => if g.members.contains s.cur.core then some g else none
  | none => none

/-- The BAR arrival of a core: to the first member, where the arrivals are combined (R326, log 20). -/
def State.barPacket (s : State) (g : Group) (grp : BitVec 8) : State :=
  let dst := s.coreName (g.members.getD 0 s.cur.core)
  let h : Header := { s.msgHeader s.cur.core dst (reqCls (Thread.cls s.th)) 0 0 [] false with
                      kind := 10, aux := grp.setWidth 16 }
  if s.guard s.cur.core h.job false h.dmod h.dcl then
    s.launch { p := { hdr := h }, loc := .router s.clx 0, since := s.cycle.toNat }
  else s.violation s.cur.core h.job 10 dst

/-- The barrier state of a core for a group. -/
def Core.bar (k : Core) (grp : BitVec 8) : BarSt := SMap.get .idle k.bars grp.toNat
def State.setBar (s : State) (grp : BitVec 8) (b : BarSt) : State :=
  s.modK fun k => { k with bars := SMap.set grp.toNat b k.bars }

/-- `bar` (Table 12.4). An arrival is injected with the space of R118. -/
def execBar (grp : BitVec 8) (s : State) : Out :=
  match s.memberOf grp with
  | none => .next (s.trap .nearBound (zextW grp))
  | some g =>
    let asleep := s.setTh { s.th with run := .bar grp }
    match s.k.bar grp with
    | .idle => if s.mayInject s.clx 0 false then .next ((asleep.setBar grp .wait).barPacket g grp) else .next s.stall
    | .wait => .next asleep
    | .done => .next ((s.setTh (s.th.advance 4)).setBar grp .idle)

/-- `arrive` (Table 12.4). -/
def execArrive (grp : BitVec 8) (s : State) : Out :=
  match s.memberOf grp with
  | none => .next (s.trap .nearBound (zextW grp))
  | some g =>
    match s.k.bar grp with
    | .wait => .next s.stall
    | .idle | .done =>
      if s.mayInject s.clx 0 false then .next (((s.setTh (s.th.advance 4)).setBar grp .wait).barPacket g grp) else .next s.stall

end Sys2Proof.Machine
end

