-- ==== Sys2Proof/Machine/Dealer.lean ====
section
/-! DEFINITION. Arrival, the kitty, the dealer's starts, `recv` delivery, spreading, barriers, `wait`, the watchdog
and the injection of commits (R221, R260, R310 to R326, R343, R366, R369). -/

namespace Sys2Proof.Machine

/-- COMMIT_INJECTION: one near instant or one injection of a thread (R343). -/
def execCommitInjection (core : CoreIx) (thr : ThrIx) (s : State) : Out := .next ((s.commitStep core thr).getD s)

/-! ### Arrival (R312, R317, R318, R369) -/

/-- A message just sunk: none of its payload flits has arrived. -/
def messageOf (id : Nat) (p : Packet) : Message := { hdr := p.hdr, words := p.words, poison := p.poison, id := id }

/-- A core sinks a MSG header: job check, then as R312 goes on; a saved team's kitty takes it (R369). -/
def State.sink (s : State) (c : CoreIx) (m : Message) : State :=
  let s := s.countRecv m.hdr.job
  let k := s.core c
  match s.savedOf (clusterOf c) m.hdr.job with
  | some v =>
    if (SMap.find v.cores c.toNat).isSome then
      if Cls.isTrump m.hdr.cls then s.report4 c m.hdr.job m.hdr.lab 3 m.hdr.src
      else s.savedMsg (clusterOf c) m.hdr.job c m
    else (s.dropMsg c m).report4 c m.hdr.job m.hdr.lab 0 m.hdr.src
  | none => if k.member && decide (k.job = m.hdr.job) then s.place c m else (s.dropMsg c m).report4 c m.hdr.job m.hdr.lab 0 m.hdr.src

/-- The core whose kitty a message would meet: of a saved team, the saved core. -/
def State.sinkCore (s : State) (c : CoreIx) (m : Message) : Core :=
  match s.savedOf (clusterOf c) m.hdr.job with
  | some v => match SMap.find v.cores c.toNat with
    | some k => { k with qBulk := [], qNormal := [], qHigh := [], qTrump := [], threads := Vector.replicate 8 {} }
    | none => s.core c
  | none => s.core c

/-- MESSAGE_ARRIVAL: one header in a cycle (R312). A message for the system job comes to it even where its core belongs to another job
(log 30). -/
def execMessageArrival (n : Nat) (s : State) : Out :=
  match s.arrived n 0 with
  | none => .next s
  | some f =>
    let c := Header.dst f.p.hdr
    let m := messageOf s.ids f.p
    if c = 0 ∧ m.hdr.job = 0 ∧ f.supPath = true ∧ !((s.core 0).member && decide ((s.core 0).job = 0)) then
      .next { (s.dropFlight n).fresh.2 with sysIn := s.sysIn ++ [m] }
    else if !passed (s.core c).lastSink s.cycle.toNat then .next s
    else if (s.sinkCore c m).sinks m then
      .next (((s.dropFlight n).fresh.2.sink c m).modCore c fun k => { k with lastSink := s.cycle.toNat + 1 })
    else .next (if Cls.isTrump m.hdr.cls || (s.savedOf (clusterOf c) m.hdr.job).isSome then s else s.noRoom c)

/-- A message with one more payload flit. -/
def Message.flit (id : Nat) (m : Message) : Message :=
  if m.id = id ∧ m.arrived < m.flits then { m with arrived := m.arrived + 1 } else m

/-- A core with one more payload flit of a message, wherever the message stands. -/
def Core.flit (id : Nat) (k : Core) : Core :=
  let f := Message.flit id
  { k with qBulk := k.qBulk.map f, qNormal := k.qNormal.map f, qHigh := k.qHigh.map f, qTrump := k.qTrump.map f,
           kitty := { k.kitty with recs := k.kitty.recs.map f }, drops := (k.drops.map f).filter fun m => decide (m.arrived < m.flits),
           threads := k.threads.map fun th => { th with msg := th.msg.map f } }

/-- Fields of an image word replaced: w bits from lo. -/
def setBits (x : Word) (lo w v : Nat) : Word :=
  BitVec.ofNat 64 (x.toNat % 2 ^ lo + v % 2 ^ w * 2 ^ lo + x.toNat / 2 ^ (lo + w) * 2 ^ (lo + w))

/-- The class queues in the order of a core record: first slot and messages (Table 14.9). -/
def Core.slots (k : Core) : List (Nat × Message) :=
  let at_ (base : Nat) (q : List Message) : List (Nat × Message) := (List.range q.length).map (base + ·) |>.zip q
  at_ 0 k.qTrump ++ at_ 16 k.qHigh ++ at_ 80 k.qNormal ++ at_ 144 k.qBulk

/-- The messages that a core holds in its inbox, in the order in which a save lays them out. -/
def Core.inbox (k : Core) : List Message :=
  k.slots.map (·.2) ++ k.threads.toList.filterMap fun th => th.msg

/-- The first inbox flit of a message in that layout. -/
def firstFlit (id : Nat) : Nat → List Message → Nat
  | n, [] => n
  | n, m :: ms => if m.id = id then n else firstFlit id (n + m.flits) ms

/-- The flits of a message that have arrived, in the inbox image, and the counts that name them (R369). -/
def State.saveArrived (s : State) (rec : Nat → Nat) (k : Core) (m : Message) : State :=
  let first := firstFlit m.id 0 k.inbox
  let bs := ((m.words.take (2 * m.arrived)).flatMap fun w => leBytes 8 w.toNat)
  let s := s.storeAt (fun o => rec (0x18000 + 16 * first + o)) bs (m.poison.filter fun i => decide (i < 2 * m.arrived))
  let s := k.slots.foldl (fun s e =>
    if e.2.id = m.id then
      let p := rec (0x20600 + 32 * e.1 + 16)
      s.put64 p (setBits (s.word p) 10 5 m.arrived)
    else s) s
  ((List.range 8).zip k.threads.toList).foldl (fun s t =>
    if (t.2.msg.map (·.id)) = some m.id then
      let p := rec (0x1C000 + 0x800 * t.1 + 0x568)
      s.put64 p (setBits (s.word p) 28 5 m.arrived)
    else s) s

/-- The record of a message in a kitty with the flit that has just arrived (R316). -/
def State.ringArrived (s : State) (y : Kitty) (id : Nat) : State :=
  match y.recs.find? fun m => decide (m.id = id) with
  | some m => if y.size = 0 then s else s.ringFlit y m m.arrived
  | none => s

/-- PAYLOAD_FLIT_ARRIVAL: at the core, or in its saved image (R221, R369). -/
def execPayloadFlitArrival (core : CoreIx) (id : Nat) (s : State) : Out :=
  let s := s.modCore core (Core.flit id)
  let s := s.ringArrived (s.core core).kitty id
  let cl := clusterOf core
  .next ((s.cluster cl).saved.foldl (fun s v =>
    match SMap.find v.cores core.toNat with
    | none => s
    | some k =>
      let k' := Core.flit id k
      if k' = k then s
      else
        let s := (s.modSaved cl v.job fun v => v.modCore core fun _ => k').ringArrived k'.kitty id
        match k'.inbox.find? fun m => decide (m.id = id) with
        | some m => s.saveArrived (coreRecord v.area k.rank.toNat) k' m
        | none => s) s)

/-! ### The kitty (R316, R317) -/

/-- The oldest kitty record of a class, and the rest. -/
def takeCls (cls : Cls) : List Message → Option (Message × List Message)
  | [] => none
  | m :: ms => if m.hdr.cls = cls then some (m, ms) else (takeCls cls ms).map fun r => (r.1, m :: r.2)

/-- Messages that a core holds are placed while it can take them (R317); n bounds how many. -/
def State.postHeld (s : State) (c : CoreIx) : Nat → State
  | 0 => s
  | n + 1 =>
    let k := s.core c
    match k.owed with
    | [] => s
    | (lab, cls, ws) :: rest =>
      if k.sinks (selfShape cls ws) then State.postHeld ((s.setCore c { k with owed := rest }).selfMsg c lab cls ws) c n
      else s

/-- A core whose kitty may have got room again. -/
def State.kittyRoom (s : State) (c : CoreIx) : State :=
  let k := s.core c
  let s := if k.kitty.full then s else s.setCore c { k with kitty := { k.kitty with reported := false } }
  s.postHeld c k.owed.length

/-- KITTY_RETURN: the oldest record of a class goes to the tail of its queue when it fits (R316). -/
def execKittyReturn (core : CoreIx) (cls : Cls) (s : State) : Out :=
  let k := s.core core
  match takeCls cls k.kitty.recs with
  | none => .next (s.kittyRoom core)
  | some (m, rest) =>
    if (k.queue cls).length < queueCap cls ∧ k.inboxRoom m = true then
      let m := if k.kitty.size = 0 then m else s.ringRead k.kitty m
      .next (((s.setCore core { k with kitty := { k.kitty with recs := rest } }).toQueue core m).kittyRoom core)
    else .next s

/-! ### recv delivery and starts (R319 to R321) -/

/-- The thread of the smallest second component. -/
def earliest : List (Nat × Nat) → Option (Nat × Nat)
  | [] => none
  | x :: xs => match earliest xs with
    | some y => if y.2 < x.2 then some y else some x
    | none => some x

/-- The oldest message of a label in each class queue. -/
def Core.oldest (k : Core) (lab : Label) : List Message :=
  [Cls.trump, .high, .normal, .bulk].filterMap fun c => (k.queue c).find? fun m => decide (m.hdr.lab = lab)

/-- The message of a label that was placed first, when it was placed before a cycle, and the core without it (R321). -/
def Core.dequeueFirst (k : Core) (lab : Label) (now : Nat) : Option (Message × Core) :=
  match (k.oldest lab).filter fun m => (k.oldest lab).all fun o => decide (m.placed ≤ o.placed) with
  | m :: _ => if m.placed ≤ now then (takeLabel lab (k.queue m.hdr.cls)).map fun r => (r.1, k.setQueue m.hdr.cls r.2) else none
  | [] => none

/-- Whether a sleeping `recv` of a core takes a message in a cycle (R321). -/
def Core.recvDue (k : Core) (now : Nat) : Bool :=
  !k.frozen && !k.held && k.threads.toList.any fun th => match th.run with
    | .recv l _ => (k.dequeueFirst l now).isSome
    | _ => false

/-- RECV_DELIVERY: the thread that began to sleep earliest takes the message of the label placed first, in the cycle after that
(R321). -/
def execRecvDelivery (core : CoreIx) (lab : Label) (s : State) : Out :=
  let k := s.core core
  if k.frozen || k.held then .next s
  else match earliest (k.sleepers lab), k.dequeueFirst lab s.cycle.toNat with
    | some t, some r =>
      let t := BitVec.ofNat 3 t.1
      if r.1.doubles (s.getTh core t) then .next (s.trapAt core t .xpackOvf (r.1.eff.overflow.getD 0) (s.getTh core t).pc)
      else .next ((s.setCore core r.2).recvTake core t r.1)
    | _, _ => .next s

/-- The threads that run instances of a label. -/
def Core.running (k : Core) (lab : Label) : Nat :=
  (k.threads.toList.filter fun th => (th.inst.map (·.1)) == some lab).length

/-- The thread that R214 names for an instance of a class, when it is FREE. -/
def Core.freeThread (k : Core) (cls : Cls) : Option ThrIx :=
  let free (t : Nat) : Bool := decide ((k.thread (BitVec.ofNat 3 t)).run = .free)
  if Cls.isTrump cls then (if free 7 then some 7 else none)
  else ((List.range 7).find? free).map (BitVec.ofNat 3)

/-- Whether the oldest entry of a label in a class queue is startable (R319). -/
def Core.startable (k : Core) (lab : Label) : Bool :=
  let e := k.trigger lab
  trgEn e && trgGuard e k.cf && decide (k.running lab < trgLim e) && (k.freeThread (trgCls e)).isSome
    && (k.sleepers lab).isEmpty

/-- The label that the dealer starts from a class queue in a cycle: the first startable one, placed before the cycle, after the
last started there, in ascending order with wrap-around (R319, R320). -/
def Core.nextLabel (k : Core) (cls : Cls) (now : Nat) : Option Label :=
  let from_ := match SMap.find k.lastLab cls.code with
    | some l => l.toNat + 1
    | none => 0
  if (k.queue cls).isEmpty then none
  else ((List.range 128).map fun i => BitVec.ofNat 7 (from_ + i)).find? fun l =>
    ((k.queue cls).find? fun m => decide (m.hdr.lab = l)).any (fun m => decide (m.placed ≤ now)) && k.startable l

/-- Whether a PREEMPT of a core's team is under way (R367). -/
def State.inGrace (s : State) (c : CoreIx) : Bool :=
  (s.cluster (clusterOf c)).grace.any fun g => (s.core c).member && decide (g.job = (s.core c).job)

/-- What the dealer of a core starts in a cycle: the highest eligible class and its label; one start in a cycle, chosen before the
core issues in it, whose effects count from the next one on (R319, R320). -/
def State.startChoice (s : State) (core : CoreIx) (now : Nat) : Option (Cls × Label) :=
  let k := s.core core
  if k.frozen || k.held || s.inGrace core || !passed k.lastStart now || !passed k.lastIssue now then none
  else [Cls.trump, .high, .normal, .bulk].firstM fun c => (k.nextLabel c now).map fun l => (c, l)

/-- HANDLER_START: the highest eligible class, its label, the thread of R214 (R215, R319). -/
def execHandlerStart (core : CoreIx) (s : State) : Out :=
  let k := s.core core
  match s.startChoice core s.cycle.toNat with
    | none => .next s
    | some (c, l) =>
      match takeLabel l (k.queue c), k.freeThread (trgCls (k.trigger l)) with
      | some (m, rest), some t =>
        .next ((s.setCore core { k.setQueue c rest with lastLab := SMap.set c.code l k.lastLab, lastStart := s.cycle.toNat + 1 }).startOn core t m)
      | _, _ => .next s

/-! ### Issue (R320 to R322) -/

/-- Whether a thread of a core is READY in a cycle, as far as is known before its instruction is tried (R213, R320). -/
def Core.ready (k : Core) (now : Nat) (t : ThrIx) : Bool :=
  let th := k.thread t
  decide (th.run = .ready) && passed th.opens now && th.block.isNone

/-- The place of a thread of 0 to 6 in the rotation (R322). -/
def Core.turnOf (k : Core) (t : ThrIx) : Nat := (t.toNat + 6 - k.rot.toNat) % 7

/-- Whether no READY thread comes before a thread: thread 7 comes first, then the rotation (R322). -/
def Core.picks (k : Core) (now : Nat) (t : ThrIx) : Bool :=
  decide (t = 7) || (!k.ready now 7 && (List.range 7).all fun u =>
    !k.ready now (BitVec.ofNat 3 u) || decide (k.turnOf t ≤ k.turnOf (BitVec.ofNat 3 u)))

/-- Whether a thread may issue: bound and awake, its turn, its core neither frozen nor held, with no start and no delivery to a
`recv` due before and no issue in this cycle, no blocking atomic on its way, the watchdog not due (R213, R320 to R322, R365,
R366). -/
def State.mayIssue (s : State) (c : CoreIx) (t : ThrIx) : Bool :=
  let k := s.core c
  let th := k.thread t
  let now := s.cycle.toNat
  !k.frozen && !k.held && (decide (th.run = .ready) || decide (th.run = .stalled)) && th.block.all (fun b => b.err.isSome)
    && passed th.opens now && passed k.lastIssue now && k.picks now t
    && (s.startChoice c now).isNone && !k.recvDue now
    && !(decide (Thread.cls th = .trump) && decide (4096 ≤ th.wdog))

/-- Whether something of a core takes place in a cycle and no later: a start, a delivery to a `recv`, the first issue of a trump
instance (R319 to R322). -/
def State.dueAt (s : State) (now : Nat) (c : CoreIx) : Bool :=
  let k := s.core c
  (s.startChoice c now).isSome || k.recvDue now
    || (k.ready now 7 && decide ((k.thread 7).opens = now) && passed k.lastIssue now && !k.frozen && !k.held)

/-- The cycle that the clock does not pass before a dealer has acted: of this one and the next two, the first in which something
is due (R320). -/
def State.nextDue (s : State) : Option Nat :=
  ([0, 1, 2].map (s.cycle.toNat + ·)).find? fun now => s.cores.any fun e => s.dueAt now (BitVec.ofNat 15 e.1)

/-! ### Spreading (R323) -/

/-- Whether a label spreads from a core. -/
def Core.spreads (k : Core) (l : Label) : Bool :=
  let e := k.trigger l
  trgSpread e && !trgCount e && !Cls.isTrump (trgCls e)

/-- Entries of a label in its own class queue: that of its trigger entry. -/
def Core.labCount (k : Core) (l : Label) : Nat :=
  ((k.queue (trgCls (k.trigger l))).filter fun m => decide (m.hdr.lab = l)).length

/-- Up to n moves of the oldest entries of a label from one core to another, while they fit there. -/
def State.moveEntries (s : State) (a b : CoreIx) (l : Label) : Nat → State
  | 0 => s
  | n + 1 =>
    let k := s.core a
    let o := s.core b
    let c := trgCls (k.trigger l)
    match takeLabel l (k.queue c) with
    | none => s
    | some (m, rest) =>
      if (o.queue c).length < queueCap c ∧ o.inboxRoom m = true then
        State.moveEntries ((s.setCore a (k.setQueue c rest)).toQueue b m) a b l n
      else s

/-- The moves of one core of a team in a window, from the snapshot taken of all of them. -/
def State.spreadFrom (s snap : State) (a b : CoreIx) : State :=
  (List.range 128).foldl (fun s i =>
    let l : Label := BitVec.ofNat 7 i
    let ka := snap.core a
    let kb := snap.core b
    if ka.spreads l && trgSpread (kb.trigger l) then
      s.moveEntries a b l (Nat.min 8 ((ka.labCount l - kb.labCount l) / 4))
    else s) s

/-- SPREAD_MOVE: the team of a core spreads once in each window of 256 cycles (R323). -/
def execSpreadMove (core : CoreIx) (s : State) : Out :=
  let k := s.core core
  let w := s.cycle.toNat / 256
  let team := s.team (clusterOf core) k.job
  if k.member = false ∨ w < k.spread ∨ team.length < 2 then .next s
  else
    let n := team.length
    let pairs := (List.range n).map fun i => (team.getD i core, team.getD (if w % 2 = 0 then (i + 1) % n else (i + n - 1) % n) core)
    let s' := pairs.foldl (fun t p => t.spreadFrom s p.1 p.2) s
    .next (team.foldl (fun t c => t.modCore c fun k => { k with spread := w + 1 }) s')

/-! ### Barriers (R326) -/

/-- The release of a phase, to every member (R112, R326). -/
def State.releasePhase (s : State) (h : Header) (g : Group) (grp : Nat) : State :=
  let first := g.members.getD 0 (Header.dst h)
  g.members.foldl (fun s m => s.launch {
    p := { hdr := { dcore := coreOf m, dcl := clusterOf m, dmod := s.cfg.modid, cls := h.cls, kind := 10,
                    src := s.coreName first, job := h.job, aux := BitVec.ofNat 16 (grp + 256) } },
    loc := .router (clusterOf first) 0, since := s.cycle.toNat }) s

/-- BAR_ARRIVAL: the arrival of a member is combined with those before it (R326, log 20). -/
def execBarArrival (n : Nat) (s : State) : Out :=
  match s.arrived n 10 with
  | none => .next s
  | some f =>
    let grp := fld f.p.hdr.aux.toNat 0 8
    if f.p.hdr.aux.getLsbD 8 then .next s
    else
      let s := s.dropFlight n
      match s.groupOf (BitVec.ofNat 8 grp) f.p.hdr.job with
      | none => .next s
      | some g =>
        let src := ixOf f.p.hdr.src
        let arr := if g.arrived.contains src then g.arrived else g.arrived ++ [src]
        if g.members.all arr.contains then
          .next ({ s with groups := SMap.set grp { g with arrived := [] } s.groups }.releasePhase f.p.hdr g grp)
        else .next { s with groups := SMap.set grp { g with arrived := arr } s.groups }

/-- A core with the release of a phase applied (Table 12.4). -/
def Core.release (k : Core) (grp : BitVec 8) : Core :=
  if k.bar grp = .wait then
    let slept := k.threads.toList.any fun th => decide (th.run = .bar grp)
    { k with bars := SMap.set grp.toNat (if slept then BarSt.idle else .done) k.bars
             threads := k.threads.map fun th => if th.run = .bar grp then th.advance 4 else th }
  else k

/-- The image of a saved core's barrier slots and of its threads' PC, THS, INSTRET and RUN after a release (R369). -/
def State.saveBars (s : State) (rec : Nat → Nat) (k : Core) (grp : BitVec 8) : State :=
  let i := k.bars.findIdx fun b => decide (b.1 = grp.toNat)
  let code := match k.bar grp with
    | .idle => 0 | .wait => 1 | .done => 2
  let s := if i < 4 then s.put64 (rec 0x20558) (setBits (s.word (rec 0x20558)) (16 * i) 16 (grp.toNat + 256 * code)) else s
  ((List.range 8).zip k.threads.toList).foldl (fun s (t : Nat × Thread) =>
    let p (o : Nat) : Nat := rec (0x1C000 + 0x800 * t.1 + o)
    if (s.word (p 0x558)).getLsbD 11 ∧ fld (s.word (p 0x558)).toNat 12 8 = grp.toNat ∧ t.2.run = .ready then
      (((s.put64 (p 0x508) t.2.pc).put64 (p 0x520) (t.2.ths k.sup (BitVec.ofNat 3 t.1))).put64 (p 0x550) t.2.instret).put64 (p 0x558)
        (setBits (setBits (s.word (p 0x558)) 11 9 0) 0 3 1)
    else s) s

/-- BARRIER_RELEASE: each member applies the release as it arrives, a saved one in its image (R326, R369). -/
def execBarrierRelease (n : Nat) (s : State) : Out :=
  match s.arrived n 10 with
  | none => .next s
  | some f =>
    let grp : BitVec 8 := f.p.hdr.aux.extractLsb' 0 8
    let c := Header.dst f.p.hdr
    if !f.p.hdr.aux.getLsbD 8 then .next s
    else
      let s := s.dropFlight n
      match s.savedOf (clusterOf c) f.p.hdr.job with
      | some v =>
        match SMap.find v.cores c.toNat with
        | some k => .next ((s.modSaved (clusterOf c) v.job fun v => v.modCore c fun _ => k.release grp).saveBars
            (coreRecord v.area k.rank.toNat) (k.release grp) grp)
        | none => .next s
      | none => if (s.core c).member && decide ((s.core c).job = f.p.hdr.job) then .next (s.modCore c fun k => k.release grp) else .next s

/-! ### wait and the watchdog -/

/-- WAIT_DEADLINE: a thread in `wait` goes on once CYCLE has reached the deadline (R260). -/
def execWaitDeadline (core : CoreIx) (thr : ThrIx) (s : State) : Out :=
  let th := s.getTh core thr
  match th.run with
  | .wait d => if d.toNat ≤ s.cycle.toNat ∧ (s.core core).frozen = false ∧ (s.core core).held = false then .next (s.putTh core thr (th.advance 4)) else .next s
  | _ => .next s

/-- The end of an instance without its commit: uncommitted entries, the open message and the pending reads are
gone (R365, R366). -/
def Thread.kill (th : Thread) : Thread := { th.finish with buf := [], reads := [], block := none }

/-- WATCHDOG_STOP: a trump instance that has retired 4,096 instructions is stopped and reported (R366); on a core that is frozen
or held nothing retires (R132, R367). -/
def execWatchdogStop (core : CoreIx) (s : State) : Out :=
  let th := s.getTh core 7
  if Thread.cls th = .trump ∧ 4096 ≤ th.wdog ∧ th.run ≠ .free ∧ (s.core core).frozen = false ∧ (s.core core).held = false then
    .next (((s.putTh core 7 th.kill).modCore core fun k => { k with lastStart := s.cycle.toNat + 1 }).report5 core 7 0 2 0 th.pc)
  else .next s

end Sys2Proof.Machine
end

