-- ==== Sys2Proof/Machine/Engine.lean ====
section
/-! DEFINITION. The copy engine: the issue of its commands, their operands, start checks, landing ranges and
completion (R155 to R167, R210). The work of each command is in EngineWork.lean. -/

namespace Sys2Proof.Machine

/-! ### Issue (R155, R156) -/

/-- The copy-engine commands that a core has in the queue. -/
def State.engCount (s : State) (c : CoreIx) : Nat := ((s.cluster (clusterOf c)).eng.filter fun k => decide (k.core = c)).length

/-- Whether a core that is listed as waiting still waits at a command: a stalled thread of it has begun its commit. -/
def State.waits (s : State) (c : CoreIx) : Bool :=
  let k := s.core c
  !k.frozen && !k.held && k.threads.toList.any fun th => decide (th.run = .stalled) && th.begun

/-- Whether a core is the next among those that wait, round-robin by core number from the one admitted last (R155,
R281). -/
def nextInTurn (last : BitVec 7) (ws : List CoreIx) (c : CoreIx) : Bool :=
  let dist (x : CoreIx) : Nat := (coreOf x - last - 1).toNat
  ws.all fun w => decide (dist c ≤ dist w)

/-- A copy-engine command issues: a commit point; it then takes a queue entry, or waits for one in turn. `vals` are
the values of d, a, b, c, and `th` the thread after the pops. -/
def State.engIssue (s : State) (i : Instr) (vals : Word × Word × Word × Word) (cls : Cls) (lab : Label) (th : Thread → Thread) : State :=
  s.atNearCommit fun s =>
    let c := s.cur.core
    let x := s.cluster s.clx
    let others := x.wait.filter fun w => decide (w ≠ c) && s.waits w && decide (s.engCount w < 4)
    if 4 ≤ s.engCount c ∨ 64 ≤ x.eng.length ∨ nextInTurn x.last others c = false then
      (s.modCluster s.clx fun x => { x with wait := if x.wait.contains c then x.wait else x.wait ++ [c] }).stall
    else
      let n := s.fresh
      let k : EngCmd := { id := n.1, insn := i, core := c, thr := s.cur.thr, dv := vals.1, av := vals.2.1, bv := vals.2.2.1,
                          cv := vals.2.2.2, cls := cls, lab := lab, reqCls := reqCls s.th.cls, job := s.k.job, commit := s.th.commits }
      let s := n.2.modCluster s.clx fun x => { x with eng := x.eng ++ [k], wait := x.wait.filter (fun w => decide (w ≠ c)), last := coreOf c }
      s.setTh ((th s.th).advance 8)

/-- The values of a, b, c, d, popped in that order (R159), as (d, a, b, c), and the pops. -/
def Thread.rdCmd (th : Thread) (d a b c : SReg) : (Word × Word × Word × Word) × (Thread → Thread) :=
  let r := th.rd3 a b c
  let x := r.2.2.2.rd d
  ((x.1, r.1, r.2.1, r.2.2.1), fun th => (((th.rd a).2.rd b).2.rd c).2.rd d |>.2)

/-- Any command of the engine. -/
def State.command (s : State) (i : Instr) (d a b c : SReg) (cls : Cls) (lab : Label) : Out :=
  let r := s.th.rdCmd d a b c
  .next (s.engIssue i r.1 cls lab r.2)

/-- `tzero` (R210, R211). -/
def execTzero (a c : SReg) (lab : Label) (s : State) : Out := s.command (.tzero a c lab) 0 a 0 c .normal lab
/-- `tfill` (R210, R211). -/
def execTfill (f : Tag) (a b c : SReg) (lab : Label) (s : State) : Out := s.command (.tfill f a b c lab) 0 a b c .normal lab
/-- `tident` (R210, R211). -/
def execTident (f : Tag) (diag : BitVec 7) (a c : SReg) (lab : Label) (s : State) : Out :=
  s.command (.tident f diag a c lab) 0 a 0 c .normal lab
/-- `xcopy` (R156, R169). -/
def execXcopy (dir : Dir2) (f : Tag) (cls : Cls) (d a b : SReg) (lab : Label) (s : State) : Out :=
  s.command (.xcopy dir f cls d a b lab) d a b 0 cls lab
/-- `xmap.ld` (R156, R172). -/
def execXmapLd (cls : Cls) (d a b c : SReg) (lab : Label) (s : State) : Out := s.command (.xmapLd cls d a b c lab) d a b c cls lab
/-- `xmap.st` (R156, R172). -/
def execXmapSt (cls : Cls) (d a b c : SReg) (lab : Label) (s : State) : Out := s.command (.xmapSt cls d a b c lab) d a b c cls lab
/-- `xgather` (R156, R174). -/
def execXgather (x64 : Bool) (cls : Cls) (d a b c : SReg) (lab : Label) (s : State) : Out :=
  s.command (.xgather x64 cls d a b c lab) d a b c cls lab
/-- `xscatter` (R156, R174). -/
def execXscatter (x64 acc : Bool) (f : Tag) (cls : Cls) (d a b c : SReg) (lab : Label) (s : State) : Out :=
  s.command (.xscatter x64 acc f cls d a b c lab) d a b c cls lab
/-- `xpack` (R156, R177). -/
def execXpack (dstNear : Bool) (f : Tag) (cls : Cls) (d a b : SReg) (lab : Label) (s : State) : Out :=
  s.command (.xpack dstNear f cls d a b lab) d a b 0 cls lab
/-- `xunpack` (R156, R179). -/
def execXunpack (srcNear : Bool) (f : Tag) (cls : Cls) (d a b : SReg) (lab : Label) (s : State) : Out :=
  s.command (.xunpack srcNear f cls d a b lab) d a b 0 cls lab
/-- `xembed` (R156, R183). -/
def execXembed (f : Tag) (cls : Cls) (d a b c : SReg) (lab : Label) (s : State) : Out := s.command (.xembed f cls d a b c lab) d a b c cls lab
/-- `xstream` (R156, R184). -/
def execXstream (toHost near : Bool) (cls : Cls) (d a b c : SReg) (lab : Label) (s : State) : Out :=
  s.command (.xstream toHost near cls d a b c lab) d a b c cls lab

/-- The lop of a command (Table 2.14). -/
def Instr.lop : Instr → Nat
  | .tzero .. => 0x09 | .tfill .. => 0x0A | .tident .. => 0x0B
  | .xcopy .. => 0x10 | .xmapLd .. | .xmapSt .. => 0x11 | .xgather .. => 0x12 | .xscatter .. => 0x13
  | .xpack .. => 0x14 | .xunpack .. => 0x15 | .xembed .. => 0x16 | .xstream .. => 0x17
  | .mop .. => 0x01 | .mopsZc .. | .mopsS24 .. => 0x02 | .mzero .. => 0x03 | .mload .. => 0x04
  | .mdrain .. => 0x05 | .mseed .. => 0x06
  | _ => 0

/-! ### Operands -/

/-- Statuses of Table 6.5. -/
def stFar : Nat := 1
def stNear : Nat := 3
def stAlign : Nat := 4
def stAddr : Nat := 5
def stLimit : Nat := 6
def stDesc : Nat := 7
def stIndex : Nat := 8
def stFormat : Nat := 9
def stOverflow : Nat := 10
def stStream : Nat := 11

/-- A near offset with the alias of the own TCM replaced by its window (R85). -/
def normNear (c : CoreIx) (o : Nat) : Nat :=
  if 0x1F00000 ≤ o ∧ o < 0x1F18000 then 0x1000000 + (coreOf c).toNat * 0x18000 + (o - 0x1F00000) else o

/-- A near range of an engine command: its place, where R85 and R158 allow it; `code` for the destination of
`xcopy`. -/
def State.engNear (s : State) (c : CoreIx) (e : Word) (n : Nat) (code : Bool) : Option Nat :=
  match s.nearPlace c e n with
  | some p => some p
  | none =>
    let o := normNear c e.toNat
    let lo := 0x1000000 + (coreOf c).toNat * 0x18000
    if code ∧ lo ≤ o ∧ o + n ≤ lo + 0x18000 then some (tcmPlace c (o - lo)) else none

/-- What the first round of R161 checks: alignments in register order, limits, GVAs, near ranges. -/
structure Round1 where
  align : List (Word × Nat) := []
  limit : Bool := true
  addrs : List Word := []
  nears : List (Word × Nat × Bool) := []

/-- Whether two ranges of equal length overlap. -/
def overlaps (a b n : Nat) : Bool := decide (a < b + n) && decide (b < a + n)

/-- The count, row and stride fields of `xgather` and `xscatter`. -/
def rowN (c : Word) : Nat := fld c.toNat 0 13
def row8 (c : Word) : Nat := fld c.toNat 16 13
def rowS (c : Word) : Nat := fld c.toNat 32 32
def rowOk (c : Word) : Bool :=
  decide (1 ≤ rowN c) && decide (rowN c ≤ 4096) && decide (1 ≤ row8 c) && decide (fld c.toNat 13 3 = 0) && decide (fld c.toNat 29 3 = 0)

/-- The tile count and slot bytes of `xpack` and `xunpack` (R176). -/
def packN (b : Word) : Nat := fld b.toNat 0 13
def packSlot (b : Word) : Nat := 16 * fld b.toNat 16 9
def packOk (b : Word) : Bool :=
  decide (1 ≤ packN b ∧ packN b ≤ 4096) && decide (16 ≤ packSlot b ∧ packSlot b ≤ 4112)
    && decide (fld b.toNat 13 3 = 0) && decide (b.toNat < 2 ^ 25)

/-- The tile count of the tile commands (R210). -/
def tileN (c : Word) : Nat := fld c.toNat 0 13

/-- Index entry bytes. -/
def idxBytes (x64 : Bool) : Nat := if x64 then 8 else 4

/-- The first round of a command. -/
def EngCmd.round1 (k : EngCmd) (gva : Word → Word) : Round1 :=
  let d := k.dv
  let a := k.av
  let b := k.bv
  let c := k.cv
  match k.insn with
  | .xcopy dir _ _ _ _ _ _ =>
    let n := b.toNat
    let clash := if dir.srcNear && dir.dstNear then overlaps (normNear k.core a.toNat) (normNear k.core d.toNat) n
      else if !dir.srcNear && !dir.dstNear then overlaps (gva a).toNat (gva d).toNat n else false
    { align := [(a, 16), (d, 16)]
      limit := decide (n % 16 = 0) && decide (16 ≤ n) && decide (n ≤ 2 ^ 31) && !clash
      addrs := (if dir.srcNear then [] else [a]) ++ (if dir.dstNear then [] else [d])
      nears := (if dir.srcNear then [(a, n, false)] else []) ++ (if dir.dstNear then [(d, n, true)] else []) }
  | .xmapLd .. | .xmapSt .. => { align := [(a, 64), (d, 16)], limit := decide (c.toNat < 2 ^ 16), nears := [(a, 64, false)] }
  | .xgather x64 _ _ _ _ _ _ =>
    { align := [(a, 8), (b, idxBytes x64), (d, 16)], limit := rowOk c, addrs := [a],
      nears := [(b, rowN c * idxBytes x64, false), (d, rowN c * 8 * row8 c, false)] }
  | .xscatter x64 _ _ _ _ _ _ _ _ =>
    { align := [(a, 16), (b, idxBytes x64), (d, 8)], limit := rowOk c, addrs := [d],
      nears := [(a, rowN c * 8 * row8 c, false), (b, rowN c * idxBytes x64, false)] }
  | .xpack near _ _ _ _ _ _ =>
    { align := [(a, 4096), (d, 16)], limit := packOk b, addrs := if near then [] else [d],
      nears := (a, 4096 * packN b, false) :: (if near then [(d, packN b * packSlot b, false)] else []) }
  | .xunpack near _ _ _ _ _ _ =>
    { align := [(a, 16), (d, 4096)], limit := packOk b, addrs := if near then [] else [a],
      nears := (if near then [(a, packN b * packSlot b, false)] else []) ++ [(d, 4096 * packN b, false)] }
  | .xembed .. =>
    { align := [(a, 8), (b, 8), (d, 16)], limit := decide (1 ≤ c.toNat) && decide (c.toNat ≤ 4096), addrs := [a],
      nears := [(b, 8 * c.toNat, false)] }
  | .xstream _ near _ _ _ _ _ _ =>
    { align := [(b, 64), (d, 64)],
      limit := decide (a.toNat < 256) && decide (c.toNat % 64 = 0) && decide (64 ≤ c.toNat) && decide (c.toNat ≤ 2 ^ 30),
      addrs := if near then [] else [d], nears := if near then [(d, c.toNat, false)] else [] }
  | .tident .. => { align := [(a, 4096)], limit := decide (tileN c ≠ 0) && decide (c.toNat - fld c.toNat 16 1 * 2 ^ 16 < 2 ^ 13) }
  | _ => { align := [(a, 4096)], limit := decide (tileN c ≠ 0) && decide (c.toNat < 2 ^ 13) }

/-- Whether a command sets tiles (R210). -/
def EngCmd.isTile (k : EngCmd) : Bool :=
  match k.insn with
  | .tzero .. | .tfill .. | .tident .. => true
  | _ => false

/-- The near range of a tile command, in the scratchpad area (R210). -/
def State.tileRange (s : State) (k : EngCmd) : Option Nat :=
  if k.av.toNat + 4096 * tileN k.cv ≤ 0x1000000 then s.nearPlace k.core k.av (4096 * tileN k.cv) else none

/-- The first check of the first round that fails: status and WHERE. -/
def State.check1 (s : State) (k : EngCmd) : Option (Nat × Word) :=
  let r := k.round1 s.gva
  match r.align.find? fun x => decide (x.1.toNat % x.2 ≠ 0) with
  | some x => some (stAlign, x.1)
  | none =>
    if !r.limit then some (stLimit, 0)
    else match (r.addrs.map s.gva).find? fun g => !s.gvaOk g with
      | some g => some (stAddr, g)
      | none =>
        if k.isTile then (if (s.tileRange k).isNone then some (stNear, k.av) else none)
        else match r.nears.find? fun x => (s.engNear k.core x.1 x.2.1 x.2.2).isNone with
          | some x => some (stNear, x.1)
          | none => none

/-! ### The tensor map (R170, R171) -/

/-- Fields of the 64 bytes of a tensor map. -/
def mapBits (bs : List Byte) (lo w : Nat) : Nat := fld (leVal bs) lo w
def mapExt (bs : List Byte) (i : Nat) : Nat := mapBits bs (64 + 24 * i) 24
def mapStr (bs : List Byte) (i : Nat) : Nat := mapBits bs (184 + 32 * i) 32
def mapCnt (bs : List Byte) (i : Nat) : Nat := mapBits bs (344 + 8 * i) 8
def mapStep (bs : List Byte) (i : Nat) : Nat := mapBits bs (384 + 8 * i) 8
def mapBias (bs : List Byte) (i : Nat) : Int := toSigned 4 (mapBits bs (424 + 4 * i) 4)
def mapFmt (bs : List Byte) : Nat := mapBits bs 444 4
def mapRank (bs : List Byte) : Nat := mapBits bs 448 3
def mapOrder (bs : List Byte) (s : Nat) : Nat := mapBits bs (451 + 3 * s) 3
def mapFill (bs : List Byte) : Nat := mapBits bs 480 32
def mapBase (bs : List Byte) : Word := BitVec.ofNat 64 (mapBits bs 0 64)
/-- Bytes of an element. -/
def mapSize (bs : List Byte) : Nat := tagWidth ((Tag.ofCode (mapFmt bs)).getD .raw) / 8
/-- Elements of the walk. -/
def mapCount (bs : List Byte) : Nat := (List.range 5).foldl (fun n i => n * (mapCnt bs i + 1)) 1

/-- DESC of a tensor map. -/
def mapOk (bs : List Byte) : Bool :=
  let rank := mapRank bs
  let axes := List.range (rank + 1)
  let above := (List.range 5).filter fun i => decide (rank < i)
  decide (mapBits bs 466 14 = 0) && [0, 1, 2, 3, 4, 5, 6, 7, 8, 10, 11].contains (mapFmt bs) && decide (rank ≤ 4)
    && axes.all (fun i => decide (mapExt bs i ≠ 0) && decide (mapStep bs i ≠ 0))
    && above.all (fun i => decide (mapExt bs i = 1 ∧ mapStr bs i = 0 ∧ mapCnt bs i = 0 ∧ mapStep bs i = 1) && decide (mapBias bs i = 0))
    && axes.all (fun i => axes.any fun s => decide (mapOrder bs s = i))
    && above.all (fun s => decide (mapOrder bs s = s))
    && decide ((mapBase bs).toNat % mapSize bs = 0) && axes.all (fun i => decide (mapStr bs i % mapSize bs = 0))

/-! ### The table descriptor and the entry list (R180 to R182) -/

/-- Fields of the 32 bytes of a descriptor. -/
def descBase (bs : List Byte) : Word := BitVec.ofNat 64 (mapBits bs 0 64)
def descRows (bs : List Byte) : Nat := mapBits bs 64 32
def descStride (bs : List Byte) : Nat := mapBits bs 96 32
def descE (bs : List Byte) : Nat := mapBits bs 128 16
def descFmt (bs : List Byte) : Tag := (Tag.ofCode (mapBits bs 144 4)).getD .raw
def descVersion (bs : List Byte) : Word := BitVec.ofNat 64 (mapBits bs 192 64)
/-- Bytes of a row. -/
def descRow (bs : List Byte) : Nat := descE bs * (tagWidth (descFmt bs) / 8)

/-- DESC of a descriptor; a BASE that fails R86 is one of its faults (R181). -/
def descOk (bs : List Byte) : Bool :=
  [1, 4, 5, 6, 7, 8].contains (mapBits bs 144 4) && decide (mapBits bs 148 44 = 0)
    && decide ((descBase bs).toNat % 16 = 0) && decide (mapBits bs 48 4 = 0)
    && decide (1 ≤ descRows bs ∧ descRows bs < 2 ^ 31) && decide (1 ≤ descE bs ∧ descE bs ≤ 1024)
    && decide (descStride bs % 16 = 0) && decide (descRow bs ≤ descStride bs)

/-- Entry i of the list that follows the descriptor's 32 bytes. -/
def entryWord (bs : List Byte) (i : Nat) : Nat := leVal ((bs.drop (32 + 8 * i)).take 8)
def entryIdx (bs : List Byte) (i : Nat) : Nat := fld (entryWord bs i) 0 31
def entryEnd (bs : List Byte) (i : Nat) : Bool := decide (fld (entryWord bs i) 31 1 = 1)
def entryW (bs : List Byte) (i : Nat) : Nat := fld (entryWord bs i) 32 32

/-- The output format of `xembed`, and the stride of its output rows (R182). -/
def EngCmd.outFmt (k : EngCmd) : Tag :=
  match k.insn with
  | .xembed f _ _ _ _ _ _ => f
  | _ => .raw
def EngCmd.outRow (k : EngCmd) : Nat := descE k.desc * (tagWidth k.outFmt / 8)
def EngCmd.outStride (k : EngCmd) : Nat := (k.outRow + 15) / 16 * 16

/-! ### The second round (R161) -/

/-- The endpoint slot of a command as the job's gate took it (R396), and its direction. -/
def State.endpoint (s : State) (k : EngCmd) : Option (Nat × Nat × Nat) :=
  match SMap.find s.jobs k.job.toNat with
  | some j =>
    match SMap.find j.dirs k.av.toNat with
    | some dir =>
      let w := (SMap.get 0 j.slots k.av.toNat).toNat
      some (fld w 0 64, fld w 64 64, dir)
    | none => none
  | none => none

/-- The endpoint checks of `xstream` (R184). -/
def State.streamOk (s : State) (k : EngCmd) (toHost : Bool) : Bool :=
  match s.endpoint k with
  | some (_, ext, dir) =>
    decide (ext ≠ 0) && decide (fld dir (if toHost then 1 else 0) 1 = 1) && decide (k.bv.toNat + k.cv.toNat ≤ ext)
  | none => false

/-- The first check of the second round that fails, on the operands read: status and WHERE. -/
def State.check2 (s : State) (k : EngCmd) : Option (Nat × Word) :=
  match k.insn with
  | .xmapLd .. | .xmapSt .. =>
    let total := mapCount k.desc * mapSize k.desc
    if !mapOk k.desc then some (stDesc, k.av)
    else if 2 ^ 20 < total then some (stLimit, 0)
    else if !s.gvaOk (s.gva (mapBase k.desc)) then some (stAddr, s.gva (mapBase k.desc))
    else if (s.engNear k.core k.dv total false).isNone then some (stNear, k.dv)
    else none
  | .xembed .. =>
    let n := k.cv.toNat
    let bags := ((List.range n).filter (entryEnd k.desc)).length
    if !descOk k.desc then some (stDesc, k.tdesc)
    else if !entryEnd k.desc (n - 1) then some (stLimit, 0)
    else if !s.gvaOk (s.gva (descBase k.desc)) then some (stAddr, s.gva (descBase k.desc))
    else if (s.engNear k.core k.dv (bags * k.outStride) false).isNone then some (stNear, k.dv)
    else match (List.range n).find? fun i => decide (descRows k.desc ≤ entryIdx k.desc i) with
      | some i => some (stIndex, k.bv + BitVec.ofNat 64 (8 * i))
      | none => none
  | .xstream toHost _ _ _ _ _ _ _ => if s.streamOk k toHost then none else some (stStream, k.av)
  | _ => none

/-! ### Landing ranges (R165, R166) -/

/-- The near bytes that a command may write: first place and length. -/
def State.target (s : State) (k : EngCmd) : Option (Nat × Nat) :=
  let at_ (n : Nat) (code : Bool := false) : Option (Nat × Nat) := (s.engNear k.core k.dv n code).map fun p => (p, n)
  match k.insn with
  | .xcopy dir _ _ _ _ _ _ => if dir.dstNear then at_ k.bv.toNat true else none
  | .xmapLd .. => at_ (mapCount k.desc * mapSize k.desc)
  | .xgather .. => at_ (rowN k.cv * 8 * row8 k.cv)
  | .xpack near _ _ _ _ _ _ => if near then at_ (packN k.bv * packSlot k.bv) else none
  | .xunpack .. => at_ (4096 * packN k.bv)
  | .xembed .. => at_ (((List.range k.cv.toNat).filter (entryEnd k.desc)).length * k.outStride)
  | .xstream toHost near _ _ _ _ _ _ => if near && !toHost then at_ k.cv.toNat else none
  | .tzero .. | .tfill .. | .tident .. => (s.tileRange k).map fun p => (p, 4096 * tileN k.cv)
  | _ => none

/-- A range of places rounded out to 16 bytes. -/
def landingOf (p n owner : Nat) : Landing := { lo := p / 16 * 16, hi := (p + n + 15) / 16 * 16, owner := owner }

/-- Whether a range of places overlaps a registered one. -/
def Landing.hits (l : Landing) (p n : Nat) : Bool := decide (l.lo < p + n) && decide (p < l.hi)

/-- Whether an active command whose destination is near, and whose describing operands are not all read, may write to a range of
places: its own range, not registered yet, begins at or before them in the same memory (R166, log 73). -/
def State.mayLand (s : State) (e : EngCmd) (p n : Nat) : Bool :=
  (decide (e.phase = .slot) || decide (e.phase = .desc)) && (match e.insn with
    | .xmapLd .. | .xembed .. => true
    | .xstream toHost near .. => near && !toHost
    | _ => false)
  && (s.engNear e.core e.dv 1 false).any fun q =>
    decide (q / 16 * 16 < p + n) && decide (if placeKind q = 1 then p / 2 ^ 24 = q / 2 ^ 24 else p / 2 ^ 17 = q / 2 ^ 17)

/-- Whether a near access of an engine command waits: an earlier command of the queue holds an overlapping range, or may come
to (R166). -/
def State.landWait (s : State) (k : EngCmd) (p n : Nat) : Bool :=
  let x := s.cluster (clusterOf k.core)
  x.land.any (fun l => decide (l.owner < k.id) && l.hits p n && x.eng.any fun e => decide (e.id = l.owner))
    || x.eng.any fun e => decide (e.id < k.id) && s.mayLand e p n

/-- A landing range registered in a cluster. -/
def State.landAdd (s : State) (cl : BitVec 8) (l : Landing) : State := s.modCluster cl fun x => { x with land := x.land ++ [l] }
/-- The landing ranges of a command released. -/
def State.landDrop (s : State) (cl : BitVec 8) (id : Nat) : State :=
  s.modCluster cl fun x => { x with land := x.land.filter fun l => decide (l.owner ≠ id) }

/-! ### Far requests (R157, R185) -/

/-- The command of an engine. -/
def State.eng? (s : State) (cl : BitVec 8) (id : Nat) : Option EngCmd := (s.cluster cl).eng.find? fun k => decide (k.id = id)

/-- Whether a request of a core is a far write that an engine command made for a thread, or an abandoned one (R157, R186). -/
def State.engWrite (s : State) (c : CoreIx) (t : ThrIx) (r : Req) : Bool :=
  Packet.isWrite r.pkt && match r.owner with
    | .engine id => (s.cluster (clusterOf c)).eng.any fun e => decide (e.id = id ∧ e.thr = t)
    | .gone => true
    | _ => false

/-- Whether a far request of a command to a range must wait: an earlier far write of the issuing thread, by itself or by the
engine for it, to a same word is not injected or has no final reply, or the request cannot be made (R119, R157, R175, R350). -/
def State.engWaits (s : State) (k : EngCmd) (g : Word) (n flits : Nat) : Bool :=
  let th := s.getTh k.core k.thr
  th.wrs.any (fun w => sameWords g n w.gva w.bytes)
    || th.held.any (fun h => decide (h.commit < k.commit) && Entry.writes h.e g n)
    || (s.core k.core).reqs.any (fun r => s.engWrite k.core k.thr r && sameWords g n (r.pkt.words.getD 0 0) (Packet.reqBytes r.pkt))
    || !s.mayRequest k.core true flits

/-- The number that orders an act of a command: its block and its place in it. -/
def EngCmd.order (k : EngCmd) : Nat := k.pos * 2 ^ 33 + k.sub

/-- A far request of a command: nothing when it must wait; a bad GVA stops the command with ADDR; a packet that the
guard drops freezes the core and holds the command (R163, R185). A failure names the address `off` bytes on. -/
def State.engRequest (s : State) (k : EngCmd) (kind : Nat) (g : Word) (n flits : Nat) (words : List Word) (aux : Nat)
    (stage : Option Nat) (tile : Option Word := none) (psn : List Nat := []) (off : Nat := 0) : Option State :=
  let g := s.gva g
  let at_ := g + BitVec.ofNat 64 off
  let cl := clusterOf k.core
  if !s.gvaOk g then some (s.modEng cl k.id fun k => k.failure k.order stAddr 0 at_)
  else if s.engWaits k g n flits then none
  else if !s.guard k.core k.job true (homeOf g) 0 then
    some ((s.modEng cl k.id fun k => { k with hold := true }).violation k.core k.job kind ((homeOf g ++ (0 : BitVec 15)).cast (by decide)))
  else
    let r := s.request k.core (.engine k.id) k.job k.reqCls kind (g :: words) aux tile psn
    some (r.1.modEng cl k.id fun k => { k with
      reqs := k.reqs ++ [{ txid := r.2.1, gva := at_, bytes := n - off, order := k.order, stage := stage }]
      sub := k.sub + 1, psn := k.psn || !psn.isEmpty })

/-! ### Completion (R162, R164) -/

/-- DONE of a command: the units before the failing one (Table 6.4). -/
def EngCmd.doneCount (k : EngCmd) : Nat :=
  match k.insn, k.fail with
  | .xembed .., _ => k.doneUnits
  | _, some _ => Nat.min k.doneUnits (k.failAt / 2 ^ 33)
  | _, none => k.doneUnits

/-- The payload of a completion (Table 6.4). -/
def EngCmd.payload (k : EngCmd) : List Word :=
  let f := k.fail.getD (0, 0, 0)
  let aux : Word × Word := match k.insn with
    | .xpack .. => if f.1 = stOverflow then (k.aux0, k.aux1) else (0, 0)
    | _ => (k.aux0, k.aux1)
  [wordOf [(f.1, 4), (f.2.1, 4), (k.psn.toNat, 1), (0, 7), (Instr.lop k.insn, 5), (0, 11), (k.doneCount, 32)], f.2.2, aux.1, aux.2]

/-- What takes place at the dequeue of a completion. -/
def EngCmd.effects (k : EngCmd) : Effects :=
  { flags := k.flags, cmds := [k.id],
    overflow := match k.fail with
      | some (10, _, w) => some w
      | _ => none }

/-- ENGINE_COMPLETION: a command that has ended registers its completion, unless the core's kitty is full (R162,
R317). -/
def execEngineCompletion (cl : BitVec 8) (k : Nat) (s : State) : Out :=
  match (s.cluster cl).eng[k]? with
  | none => .next s
  | some e =>
    if e.phase ≠ .ended then .next s
    else if (s.core e.core).sinks (selfShape e.cls e.payload) then
      .next ((s.modCluster cl fun x => { x with eng := dropAt x.eng k }).selfMsg e.core e.lab e.cls e.payload e.effects)
    else .next (s.noRoom e.core)

end Sys2Proof.Machine
end

