-- ==== Sys2Proof/Machine/EngineWork.lean ====
section
/-! DEFINITION. The work of the copy engine, one act at a time: every command is a row of blocks (the units of
Table 6.8), every block reads, computes and writes (R168 to R184, R211). Sizes of requests are those of log 8. -/

namespace Sys2Proof.Machine

/-- One act of a command's work. Positions are those of the staged bytes of the block. -/
inductive Act where
  | rdFar (g : Word) (n pos : Nat)
  /-- The first bytes of a whole tile of this module, or its entry (R168). -/
  | rdTile (g : Word)
  | rdNear (p n pos : Nat)
  /-- The entry of a whole near tile (R168). -/
  | rdEnt (p : Nat)
  | rdHost (a n pos : Nat)
  | put (pos : Nat) (bs : List Byte) (bad : Bool)
  | wrFar (g : Word) (n pos : Nat)
  /-- Packet i of a whole tile of this module (R167, log 8). -/
  | wrFarTile (g : Word) (f : Tag) (i : Nat)
  | amop (g : Word) (op : AmoOp) (pos : Nat)
  | wrNear (p n pos : Nat)
  | wrNearTile (p : Nat) (f : Tag)
  | setNear (p : Nat) (e : Word)
  | wrHost (a n pos : Nat)
  | skip
  | fail (status : Nat) (wher : Word)
  deriving DecidableEq, Repr

/-! ### Staged bytes -/

def EngCmd.staged (k : EngCmd) (pos n : Nat) : List Byte := getRun k.stage pos (pos + n)
/-- The words of a run of staged bytes that hold poison. -/
def EngCmd.stagedPsn (k : EngCmd) (pos n : Nat) : List Nat :=
  (List.range ((n + 7) / 8)).filter fun w => k.spsn.any fun p => decide (pos + 8 * w ≤ p) && decide (p < pos + Nat.min (8 * w + 8) n)
def EngCmd.stagePut (k : EngCmd) (pos : Nat) (bs : List Byte) (bad : List Nat := []) : EngCmd :=
  { k with stage := putRun pos bs k.stage, spsn := k.spsn ++ bad }

/-- Where the index entry of a block is staged. -/
def idxPos : Nat := 2 ^ 20

/-- A far address at an offset from a GVA. -/
def gplus (g : Word) (n : Nat) : Word := g + BitVec.ofNat 64 n

/-! ### xcopy (R167 to R169) -/

/-- Bytes of unit u of a byte count. -/
def unitBytes (b u : Nat) : Nat := Nat.min 4096 (b - 4096 * u)

/-- Whether a far tile is one of this module, aligned (R167). -/
def State.ownTile (s : State) (g : Word) : Bool := decide (homeOf (s.gva g) = s.cfg.modid) && decide (g.toNat % 4096 = 0)

/-- Whether a near tile is one of the scratchpad, aligned. -/
def spadTile (p : Nat) : Bool := decide (placeKind p = 1) && decide (p % 4096 = 0)

/-- The bytes that a whole-tile write of a command writes: those of a source entry, or the staged ones. -/
def EngCmd.tileBytes (k : EngCmd) : List Byte :=
  match k.ent with
  | some e => if entM e then k.staged 0 4096 else synthBytes e
  | none => k.staged 0 4096

/-- The source entry that a whole-tile write copies as it is (R168). -/
def EngCmd.copied (k : EngCmd) (f : Tag) : Option Word :=
  match k.ent with
  | some e => if entM e = false ∧ entState e = 3 ∧ entFmt e = f then some e else none
  | none => none

/-- Whether unit u of an `xcopy` writes a whole tile. -/
def State.wholeUnit (s : State) (k : EngCmd) (dir : Dir2) (u : Nat) : Bool :=
  decide (unitBytes k.bv.toNat u = 4096) &&
    (if dir.dstNear then ((s.engNear k.core k.dv k.bv.toNat true).map fun p => spadTile (p + 4096 * u)).getD false
     else s.ownTile (gplus k.dv (4096 * u)))

/-- Chunk i of z bytes of a run of n, as an act. -/
def chunkOf (z n i : Nat) (act : Nat → Nat → Act) : Option Act := if z * i < n then some (act (Nat.min z (n - z * i)) (z * i)) else none
/-- Near bytes are read and written word by word (R352, R353). -/
def nearChunk (n i : Nat) (act : Nat → Nat → Act) : Option Act := chunkOf 8 n i act
/-- Far bytes are requested 16 at a time (log 8). -/
def farChunk (n i : Nat) (act : Nat → Nat → Act) : Option Act := chunkOf 16 n i act

def State.xcopyRead (s : State) (k : EngCmd) (dir : Dir2) (i : Nat) : Option Act :=
  let u := k.pos
  let n := unitBytes k.bv.toNat u
  if dir.srcNear then
    let p := (s.engNear k.core k.av k.bv.toNat false).getD 0 + 4096 * u
    if s.wholeUnit k dir u && spadTile p then
      if i = 0 then some (.rdEnt p) else if k.ent.isSome then none else nearChunk n (i - 1) fun m o => .rdNear (p + o) m o
    else nearChunk n i fun m o => .rdNear (p + o) m o
  else
    let g := gplus k.av (4096 * u)
    if s.wholeUnit k dir u && s.ownTile g && decide (i = 0) then some (.rdTile g)
    else if k.ent.isSome then none
    else farChunk n i fun m o => .rdFar (gplus g o) m o

def State.xcopyWrite (s : State) (k : EngCmd) (dir : Dir2) (f : Tag) (i : Nat) : Option Act :=
  let u := k.pos
  let n := unitBytes k.bv.toNat u
  let p := (s.engNear k.core k.dv k.bv.toNat true).getD 0 + 4096 * u
  let g := gplus k.dv (4096 * u)
  if s.wholeUnit k dir u then
    if dir.dstNear then (if i = 0 then some (.wrNearTile p f) else none)
    else if i = 0 ∨ ((k.copied f).isNone = true ∧ i < 32) then some (.wrFarTile g f i) else none
  else if dir.dstNear then nearChunk n i fun m o => .wrNear (p + o) m o
  else farChunk n i fun m o => .wrFar (gplus g o) m o

/-! ### xmap (R172, R173) -/

/-- The near range of block j of a range [d, d + total): from and to, by tile boundaries. -/
def segment (d total j : Nat) : Nat × Nat :=
  let b := d / 4096 + j
  (Nat.max d (b * 4096), Nat.min (d + total) ((b + 1) * 4096))

/-- Blocks of such a range. -/
def segments (d total : Nat) : Nat := (d + total + 4095) / 4096 - d / 4096

/-- The position along axis ax of element n of the walk, in the nesting of ORDER. -/
def walkPos (m : List Byte) (n ax : Nat) : List Nat → Nat → Nat
  | [], _ => 0
  | lv :: lvs, span =>
    let o := mapOrder m lv
    let c := mapCnt m o + 1
    if o = ax then n / span % c else walkPos m n ax lvs (span * c)

/-- Start coordinate i of an `xmap`. -/
def EngCmd.start (k : EngCmd) (i : Nat) : Int :=
  toSigned 16 (if i < 4 then fld k.bv.toNat (16 * i) 16 else fld k.cv.toNat 0 16)

/-- The far address of element n of the walk, when it lies inside the tensor. -/
def EngCmd.element (k : EngCmd) (n : Nat) : Option Word :=
  let m := k.desc
  let x (i : Nat) : Int := k.start i + (walkPos m n i [0, 1, 2, 3, 4] 1 * mapStep m i : Nat) + mapBias m i
  if (List.range 5).all fun i => decide (0 ≤ x i) && decide (x i < mapExt m i) then
    some (gplus (mapBase m) ((List.range 5).map fun i => (x i).toNat * mapStr m i).sum)
  else none

def EngCmd.mapTotal (k : EngCmd) : Nat := mapCount k.desc * mapSize k.desc
def EngCmd.mapTag (k : EngCmd) : Tag := (Tag.ofCode (mapFmt k.desc)).getD .raw
/-- The block's near range and its first element. -/
def EngCmd.mapSeg (k : EngCmd) : Nat × Nat := segment k.dv.toNat k.mapTotal k.pos
def EngCmd.mapFirst (k : EngCmd) : Nat := (k.mapSeg.1 - k.dv.toNat) / mapSize k.desc
def EngCmd.mapElems (k : EngCmd) : Nat := (k.mapSeg.2 - k.mapSeg.1) / mapSize k.desc
/-- The bytes of the fill element. -/
def EngCmd.fill (k : EngCmd) : List Byte := leBytes (mapSize k.desc) (mapFill k.desc % 2 ^ (8 * mapSize k.desc))
/-- Whether the word of the map that holds the fill element is poisoned. -/
def EngCmd.fillBad (k : EngCmd) : Bool := k.descPsn.contains 7
/-- The entry of a tile of fill elements only (R173). -/
def EngCmd.fillEntry (k : EngCmd) : Word :=
  let x := mapFill k.desc % 2 ^ tagWidth k.mapTag
  mkEnt (if x = 0 then 1 else 2) (tagSpecial k.mapTag x) false k.mapTag 0 x

def EngCmd.mapLoadRead (k : EngCmd) (i : Nat) : Option Act :=
  if i < k.mapElems then
    let z := mapSize k.desc
    some (match k.element (k.mapFirst + i) with
      | some g => .rdFar g z (z * i)
      | none => .put (z * i) k.fill k.fillBad)
  else none

def State.mapLoadWrite (s : State) (k : EngCmd) (i : Nat) : Option Act :=
  let p := (s.engNear k.core k.dv k.mapTotal false).getD 0 + (k.mapSeg.1 - k.dv.toNat)
  let n := k.mapSeg.2 - k.mapSeg.1
  if n = 4096 && spadTile p then
    if i = 0 then
      some (if !k.fillBad && (List.range k.mapElems).all fun e => (k.element (k.mapFirst + e)).isNone then .setNear p k.fillEntry
        else .wrNearTile p k.mapTag)
    else none
  else nearChunk n i fun m o => .wrNear (p + o) m o

def State.mapStoreRead (s : State) (k : EngCmd) (i : Nat) : Option Act :=
  let p := (s.engNear k.core k.dv k.mapTotal false).getD 0 + (k.mapSeg.1 - k.dv.toNat)
  nearChunk (k.mapSeg.2 - k.mapSeg.1) i fun m o => .rdNear (p + o) m o

def EngCmd.mapStoreWrite (k : EngCmd) (i : Nat) : Option Act :=
  if i < k.mapElems then
    let z := mapSize k.desc
    some (match k.element (k.mapFirst + i) with
      | some g => .wrFar g z (z * i)
      | none => .skip)
  else none

/-! ### xgather, xscatter (R174, R175) -/

/-- The far row of the block's index entry. -/
def EngCmd.row (k : EngCmd) (row0 : Word) (es : Nat) : Word :=
  gplus row0 (leVal (k.staged idxPos es) * 8 * rowS k.cv)

def State.idxRead (s : State) (k : EngCmd) (es : Nat) : Act :=
  .rdNear ((s.engNear k.core k.bv (rowN k.cv * es) false).getD 0 + es * k.pos) es idxPos

def State.gatherRead (s : State) (k : EngCmd) (x64 : Bool) (i : Nat) : Option Act :=
  if i = 0 then some (s.idxRead k (idxBytes x64))
  else if i ≤ row8 k.cv then some (.rdFar (gplus (k.row k.av (idxBytes x64)) (8 * (i - 1))) 8 (8 * (i - 1))) else none

def State.gatherWrite (s : State) (k : EngCmd) (i : Nat) : Option Act :=
  let n := 8 * row8 k.cv
  let p := (s.engNear k.core k.dv (rowN k.cv * n) false).getD 0 + n * k.pos
  if i < row8 k.cv then some (.wrNear (p + 8 * i) 8 (8 * i)) else none

def State.scatterRead (s : State) (k : EngCmd) (x64 : Bool) (i : Nat) : Option Act :=
  let n := 8 * row8 k.cv
  let p := (s.engNear k.core k.av (rowN k.cv * n) false).getD 0 + n * k.pos
  if i = 0 then some (s.idxRead k (idxBytes x64)) else nearChunk n (i - 1) fun m o => .rdNear (p + o) m o

/-- The operation of `xscatter.add` by its format. -/
def scatterOp : Tag → AmoOp
  | .bf16 => .faddBf16 | .f16 => .faddF16 | .f32 => .faddF32 | _ => .add

def EngCmd.scatterWrite (k : EngCmd) (x64 acc : Bool) (f : Tag) (i : Nat) : Option Act :=
  let g := gplus (k.row k.dv (idxBytes x64)) (8 * i)
  if i < row8 k.cv then some (if acc then .amop g (scatterOp f) (8 * i) else .wrFar g 8 (8 * i)) else none

/-! ### xpack, xunpack (R176 to R179) -/

/-- k-steps of a tile of a format (R176). -/
def zcSteps (f : Tag) : Nat := 512 / tagWidth f
/-- Bytes of a k-step. -/
def zcStep (f : Tag) : Nat := 4096 / zcSteps f

/-- The record of a dense tile: MAP and the steps present, with the places of its poisoned bytes. A step with a
poisoned byte counts as present (log 24). -/
def zcRecord (f : Tag) (bs : List Byte) (bad : List Nat) : List Byte × List Nat :=
  let z := zcStep f
  let present := (List.range (zcSteps f)).filter fun j =>
    ((bs.drop (z * j)).take z).any (fun b => decide (b ≠ 0)) || bad.any fun p => decide (p / z = j)
  let map := leBytes 16 (present.map fun j => 2 ^ j).sum
  (map ++ present.flatMap fun j => (bs.drop (z * j)).take z,
   ((List.range present.length).zip present).flatMap fun e => (bad.filter fun p => decide (p / z = e.2)).map fun p => 16 + z * e.1 + p % z)

/-- The dense tile of a record, and the places of its poisoned bytes. -/
def zcDense (f : Tag) (rec_ : List Byte) (bad : List Nat) : List Byte × List Nat :=
  let z := zcStep f
  let map := leVal (rec_.take 16)
  let data := rec_.drop 16
  let nth (j : Nat) : Nat := popc j map
  ((List.range (zcSteps f)).flatMap fun j => if map.testBit j then (data.drop (z * nth j)).take z else List.replicate z 0,
   (List.range (zcSteps f)).flatMap fun j => if map.testBit j then
      (bad.filter fun p => decide (16 + z * nth j ≤ p) && decide (p < 16 + z * (nth j + 1))).map fun p => z * j + (p - 16 - z * nth j)
    else [])

/-- The address of the block's slot, and its place when near. -/
def EngCmd.slotAddr (k : EngCmd) (base : Word) : Word := gplus base (k.pos * packSlot k.bv)

def State.packRead (s : State) (k : EngCmd) (i : Nat) : Option Act :=
  let p := (s.engNear k.core k.av (4096 * packN k.bv) false).getD 0 + 4096 * k.pos
  nearChunk 4096 i fun m o => .rdNear (p + o) m o

def State.packWrite (s : State) (k : EngCmd) (near : Bool) (i : Nat) : Option Act :=
  let g := k.slotAddr k.dv
  let p := (s.engNear k.core k.dv (packN k.bv * packSlot k.bv) false).getD 0 + k.pos * packSlot k.bv
  let n := k.stage.length
  if near then nearChunk n i fun m o => .wrNear (p + o) m o else farChunk n i fun m o => .wrFar (gplus g o) m o

def State.unpackRead (s : State) (k : EngCmd) (near : Bool) (f : Tag) (i : Nat) : Option Act :=
  let g := k.slotAddr k.av
  let p := (s.engNear k.core k.av (packN k.bv * packSlot k.bv) false).getD 0 + k.pos * packSlot k.bv
  let acts (n i o : Nat) : Option Act :=
    if near then nearChunk n i fun m x => .rdNear (p + (o + x)) m (o + x) else farChunk n i fun m x => .rdFar (gplus g (o + x)) m (o + x)
  let z := if near then 2 else 1
  if i < z then acts 16 i 0
  else
    let map := leVal (k.staged 0 16)
    let n := popc 128 map * zcStep f
    if 2 ^ zcSteps f ≤ map ∨ packSlot k.bv < 16 + n then some (.fail stFormat (if near then g else s.gva g))
    else acts n (i - z) 16

def State.unpackWrite (s : State) (k : EngCmd) (f : Tag) (i : Nat) : Option Act :=
  let p := (s.engNear k.core k.dv (4096 * packN k.bv) false).getD 0 + 4096 * k.pos
  if i = 0 then
    some (if k.ent.isSome && hasDir p then .setNear p (mkEnt 1 false false f 0 0) else .wrNearTile p f)
  else none

/-! ### xembed (R183) -/

/-- The far row of the block's entry. -/
def EngCmd.embedRow (k : EngCmd) : Word := gplus (descBase k.desc) (entryIdx k.desc k.pos * descStride k.desc)

def EngCmd.embedRead (k : EngCmd) (i : Nat) : Option Act := farChunk (descRow k.desc) i fun m o => .rdFar (gplus k.embedRow o) m o

/-- Element x of a row as an FP32 pattern, exactly (R183). -/
def widenTag (f : Tag) (x : Nat) : Nat × Flags :=
  match f with
  | .i8 => (intF32 (toSigned 8 x), 0)
  | .bf16 => toFF false .rne .fp32 (FF.read .bf16 x)
  | .f16 => toFF false .rne .fp32 (FF.read .f16 x)
  | .e4m3 => toFF false .rne .fp32 (FF.read .e4m3 x)
  | .e5m2 => toFF false .rne .fp32 (FF.read .e5m2 x)
  | _ => (x, 0)

/-- The format of an output element. -/
def tagFF : Tag → FF
  | .bf16 => .bf16 | .f16 => .f16 | _ => .fp32

/-- One entry added to the sums of its bag; the first entry of a bag starts them. -/
def EngCmd.accumulate (k : EngCmd) : EngCmd :=
  let w := entryW k.desc k.pos
  let f := descFmt k.desc
  let z := tagWidth f / 8
  let xs := elements f (k.staged 0 (descRow k.desc))
  let first := decide (k.pos = k.bagEntry)
  let rs := ((List.range xs.length).zip xs).map fun e =>
    let t := widenTag f e.2
    let r := if first then FF.mul .fp32 .rne w t.1 else FF.fma .fp32 .rne w t.1 (k.sums.getD e.1 0)
    (r.1, t.2 ||| r.2)
  let bad := if k.descPsn.contains (4 + k.pos) then List.range xs.length else k.spsn.map (· / z)
  { k with sums := rs.map (·.1), flags := rs.foldl (fun a r => a ||| r.2) k.flags,
           sumPsn := (if first then [] else k.sumPsn) ++ bad }

/-- The output row of a bag, rounded to the output format, into the staged bytes (R183). -/
def EngCmd.bagOut (k : EngCmd) : EngCmd :=
  let f := k.outFmt
  let z := tagWidth f / 8
  let rs := k.sums.map fun x => toFF false .rne (tagFF f) (FF.read .fp32 x)
  { k with stage := putRun 0 (rs.flatMap fun r => leBytes z r.1) [], spsn := k.sumPsn.map (· * z),
           flags := rs.foldl (fun a r => a ||| r.2) k.flags }

def State.embedWrite (s : State) (k : EngCmd) (i : Nat) : Option Act :=
  if entryEnd k.desc k.pos then
    let bags := ((List.range k.cv.toNat).filter (entryEnd k.desc)).length
    let p := (s.engNear k.core k.dv (bags * k.outStride) false).getD 0 + k.bag * k.outStride
    nearChunk k.outRow i fun m o => .wrNear (p + o) m o
  else none

/-! ### xstream (R184) and the tile commands (R211) -/

def State.streamRead (s : State) (k : EngCmd) (toHost near : Bool) (i : Nat) : Option Act :=
  let n := unitBytes k.cv.toNat k.pos
  let p := (s.engNear k.core k.dv k.cv.toNat false).getD 0 + 4096 * k.pos
  let host := ((s.endpoint k).map (·.1)).getD 0 + k.bv.toNat + 4096 * k.pos
  if toHost then
    if near then nearChunk n i fun m o => .rdNear (p + o) m o else farChunk n i fun m o => .rdFar (gplus k.dv (4096 * k.pos + o)) m o
  else if i = 0 then some (.rdHost host n 0) else none

def State.streamWrite (s : State) (k : EngCmd) (toHost near : Bool) (i : Nat) : Option Act :=
  let n := unitBytes k.cv.toNat k.pos
  let p := (s.engNear k.core k.dv k.cv.toNat false).getD 0 + 4096 * k.pos
  let host := ((s.endpoint k).map (·.1)).getD 0 + k.bv.toNat + 4096 * k.pos
  if toHost then (if i = 0 then some (.wrHost host n 0) else none)
  else if near then nearChunk n i fun m o => .wrNear (p + o) m o
  else farChunk n i fun m o => .wrFar (gplus k.dv (4096 * k.pos + o)) m o

/-- The entry that a tile command gives a tile (R211). -/
def EngCmd.tileEntry (k : EngCmd) (old : Word) : Word :=
  match k.insn with
  | .tfill f _ _ _ _ =>
    let x := k.bv.toNat % 2 ^ tagWidth f
    if x = 0 then mkEnt 1 false false f 0 0 else mkEnt 2 (tagSpecial f x) false f 0 x
  | .tident f diag _ _ _ => mkEnt 3 false false f diag.toNat (fld k.cv.toNat 16 1)
  | _ => mkEnt 1 false false (entFmt old) 0 0

def State.tileWrite (s : State) (k : EngCmd) (i : Nat) : Option Act :=
  if i = 0 then
    let p := (s.tileRange k).getD 0 + 4096 * k.pos
    some (.setNear p (k.tileEntry (s.entry p)))
  else none

/-! ### The blocks -/

/-- Blocks of a command. -/
def EngCmd.blocks (k : EngCmd) : Nat :=
  match k.insn with
  | .xcopy .. => (k.bv.toNat + 4095) / 4096
  | .xmapLd .. | .xmapSt .. => segments k.dv.toNat k.mapTotal
  | .xgather .. | .xscatter .. => rowN k.cv
  | .xpack .. | .xunpack .. => packN k.bv
  | .xembed .. => k.cv.toNat
  | .xstream .. => (k.cv.toNat + 4095) / 4096
  | _ => tileN k.cv

/-- Read i of the block. -/
def State.readAct (s : State) (k : EngCmd) (i : Nat) : Option Act :=
  match k.insn with
  | .xcopy dir _ _ _ _ _ _ => s.xcopyRead k dir i
  | .xmapLd .. => k.mapLoadRead i
  | .xmapSt .. => s.mapStoreRead k i
  | .xgather x64 _ _ _ _ _ _ => s.gatherRead k x64 i
  | .xscatter x64 _ _ _ _ _ _ _ _ => s.scatterRead k x64 i
  | .xpack .. => s.packRead k i
  | .xunpack near f _ _ _ _ _ => s.unpackRead k near f i
  | .xembed .. => k.embedRead i
  | .xstream toHost near _ _ _ _ _ _ => s.streamRead k toHost near i
  | _ => none

/-- Write i of the block. -/
def State.writeAct (s : State) (k : EngCmd) (i : Nat) : Option Act :=
  match k.insn with
  | .xcopy dir f _ _ _ _ _ => s.xcopyWrite k dir f i
  | .xmapLd .. => s.mapLoadWrite k i
  | .xmapSt .. => k.mapStoreWrite i
  | .xgather .. => s.gatherWrite k i
  | .xscatter x64 acc f _ _ _ _ _ _ => k.scatterWrite x64 acc f i
  | .xpack near _ _ _ _ _ _ => s.packWrite k near i
  | .xunpack _ f _ _ _ _ _ => s.unpackWrite k f i
  | .xembed .. => s.embedWrite k i
  | .xstream toHost near _ _ _ _ _ _ => s.streamWrite k toHost near i
  | _ => s.tileWrite k i

/-- Whether read i needs every earlier one of the block: what comes first says where or whether the others read. -/
def State.needsFirst (s : State) (k : EngCmd) (i : Nat) : Bool :=
  decide (i = 1) && match k.insn with
    | .xgather .. | .xunpack .. => true
    | .xcopy dir .. => !dir.srcNear && s.wholeUnit k dir k.pos && s.ownTile (gplus k.av (4096 * k.pos))
    | _ => false

/-- Between the reads and the writes of a block: the record of `xpack` (or its overflow), the dense tile of
`xunpack`, the sums of `xembed`. -/
def State.between (s : State) (k : EngCmd) : EngCmd :=
  match k.insn with
  | .xpack near f _ _ _ _ _ =>
    let r := zcRecord f (k.staged 0 4096) k.spsn
    if packSlot k.bv < r.1.length then
      let slot := k.slotAddr k.dv
      { k.failure k.order stOverflow 0 (if near then slot else s.gva slot) with aux0 := BitVec.ofNat 64 k.pos, aux1 := BitVec.ofNat 64 r.1.length }
    else { k with stage := putRun 0 r.1 [], spsn := r.2 }
  | .xunpack _ f _ _ _ _ _ =>
    let rec_ := k.staged 0 (16 + popc 128 (leVal (k.staged 0 16)) * zcStep f)
    let r := zcDense f rec_ k.spsn
    { k with stage := putRun 0 r.1 [], spsn := r.2, ent := if leVal (rec_.take 16) = 0 then some 0 else none }
  | .xembed .. =>
    let k := k.accumulate
    if entryEnd k.desc k.pos then k.bagOut else k
  | _ => k

/-- The block is done: the next one begins. -/
def EngCmd.nextBlock (k : EngCmd) : EngCmd :=
  let k' := { k with pos := k.pos + 1, sub := 0, stage := [], spsn := [], ent := none }
  match k.insn with
  | .xembed .. => if entryEnd k.desc k.pos then { k' with bag := k.bag + 1, bagEntry := k.pos + 1, doneUnits := k.doneUnits + 1 } else k'
  | _ => { k' with doneUnits := k.doneUnits + 1 }

/-! ### Performing an act -/

/-- A command goes on to the next act of its block. -/
def State.nextSub (s : State) (k : EngCmd) (f : EngCmd → EngCmd := id) : State :=
  s.modEng (clusterOf k.core) k.id fun k => { f k with sub := k.sub + 1 }

/-- A core whose fetch sees a byte at a TCM offset as it was, until the completion of the command that writes it is dequeued
(R158). -/
def Core.hide (k : Core) (id o : Nat) (old new : Byte) : Core :=
  { k with veil := SMap.set o ((SMap.get [(none, old)] k.veil o) ++ [(some id, new)]) k.veil }

/-- A near write of a command; bytes below the XB of the issuing core are not fetched yet (R158). -/
def State.engStore (s : State) (k : EngCmd) (p : Nat) (bs : List Byte) (bad : List Nat) : State :=
  let s' := s.storeBytes p bs bad
  if ownTcm k.core p && decide (p % 2 ^ 17 < (s.core k.core).xbBytes) then
    ((List.range bs.length).zip bs).foldl (fun s' b => s'.modCore k.core fun c => c.hide k.id (p % 2 ^ 17 + b.1) (s.memByte (p + b.1)) b.2) s'
  else s'

/-- The words of a run of staged bytes. -/
def EngCmd.words (k : EngCmd) (pos n : Nat) : List Word :=
  (Sys2Proof.Machine.groups 8 (n / 8 + 1) (k.staged pos n)).map fun b => BitVec.ofNat 64 (leVal b)

/-- One act; nothing when it must wait. -/
def State.act (s : State) (k : EngCmd) (a : Act) : Option State :=
  match a with
  | .rdFar g n pos => s.engRequest k 1 g n ((n + 15) / 16 + 1) [BitVec.ofNat 64 n] 0 (some pos)
  | .rdTile g => s.engRequest k 1 g 16 2 [16] 0 (some 0) (some 0)
  | .rdNear p n pos =>
    if s.landWait k p n then none
    else
      let bad := (List.range n).filter fun i => s.poisoned (p + i)
      some (s.nextSub k fun k => k.stagePut pos (s.bytes p n) (bad.map (pos + ·)))
  | .rdEnt p =>
    if s.landWait k p 4096 then none
    else if entM (s.entry p) || !(s.poisonIn p 4096).isEmpty then some (s.nextSub k)
    else some (s.nextSub k fun k => { k with ent := some (s.entry p) })
  | .rdHost a n pos =>
    if Config.hostError s.tick then some (s.modEng (clusterOf k.core) k.id fun k => k.failure k.order stFar 5 (gplus k.dv (4096 * k.pos)))
    else some (s.nextSub k fun k => k.stagePut pos (s.bytes (hostPlace a) n)
      (((List.range n).filter fun i => s.poisoned (hostPlace a + i)).map (pos + ·)))
  | .put pos bs bad => some (s.nextSub k fun k => k.stagePut pos bs (if bad then (List.range bs.length).map (pos + ·) else []))
  | .wrFar g n pos =>
    if n = 16 then
      s.engRequest k 2 g n 1 (k.words pos n) n none none ((k.stagedPsn pos n).map (· + 1))
    else
      let o := (s.gva g).toNat % 8
      s.engRequest k 2 (g - BitVec.ofNat 64 o) 8 1 [BitVec.ofNat 64 (leVal (k.staged pos n) * 2 ^ (8 * o))] (byteMask o n).toNat none none
        (if (k.stagedPsn pos n).isEmpty then [] else [1]) o
  | .wrFarTile g f i =>
    match k.copied f with
    | some e => s.engRequest k 2 g 4096 1 [e] 0 none (some e)
    | none =>
      let ws := (Sys2Proof.Machine.groups 8 17 ((k.tileBytes.drop (128 * i)).take 128)).map fun b => BitVec.ofNat 64 (leVal b)
      s.engRequest k 2 (gplus g (128 * i)) 128 1 ws 128 none (some (mkEnt 0 false true f 0 k.id)) ((k.stagedPsn (128 * i) 128).map (· + 1))
  | .amop g op pos => s.engRequest k 4 g 8 1 (k.words pos 8) (op.code + 32 * 3) none none ((k.stagedPsn pos 8).map (· + 1))
  | .wrNear p n pos =>
    if s.landWait k p n then none
    else some ((s.engStore k p (k.staged pos n) (k.stagedPsn pos n)).nextSub k fun c => { c with psn := c.psn || !(k.stagedPsn pos n).isEmpty })
  | .wrNearTile p f =>
    if s.landWait k p 4096 then none
    else match k.copied f with
      | some e => some ((if hasDir p then s.setTile p e else s.storeBytes p k.tileBytes).nextSub k)
      | none =>
        let bad := k.stagedPsn 0 4096
        some ((if hasDir p then s.wholeTile p k.tileBytes f false bad else s.storeBytes p k.tileBytes bad).nextSub k fun c =>
          { c with psn := c.psn || !bad.isEmpty })
  | .setNear p e => if s.landWait k p 4096 then none else some ((s.setTile p e).nextSub k)
  | .wrHost a n pos =>
    if Config.hostError s.tick then some (s.modEng (clusterOf k.core) k.id fun k => k.failure k.order stFar 5 (gplus k.dv (4096 * k.pos)))
    else some ((s.storeBytes (hostPlace a) (k.staged pos n) (k.stagedPsn pos n)).nextSub k fun c =>
      { c with psn := c.psn || !(k.stagedPsn pos n).isEmpty })
  | .skip => some (s.nextSub k)
  | .fail st w => some (s.modEng (clusterOf k.core) k.id fun k => k.failure k.order st 0 w)

/-- The acts of a block that are writes are numbered from here. -/
def wrBase : Nat := 2 ^ 32

/-- One step of a command's work; nothing when it must wait. -/
def State.work (s : State) (k : EngCmd) : Option State :=
  let cl := clusterOf k.core
  if k.fail.isSome || decide (k.blocks ≤ k.pos) then
    if k.reqs.isEmpty then some ((s.landDrop cl k.id).modEng cl k.id fun k => { k with phase := .ended }) else none
  else if k.sub < wrBase then
    match s.readAct k k.sub with
    | some a => if s.needsFirst k k.sub && k.reqs.any (fun r => r.stage.isSome) then none else s.act k a
    | none =>
      if k.reqs.any fun r => r.stage.isSome then none
      else some (s.modEng cl k.id fun k => { s.between k with sub := wrBase })
  else match s.writeAct k (k.sub - wrBase) with
    | some a => s.act k a
    | none => some (s.modEng cl k.id EngCmd.nextBlock)

/-! ### Activation and the describing operands (R155, R161, R165, R181) -/

/-- A command ends with the status of a start check. -/
def State.endStart (s : State) (k : EngCmd) (st fst : Nat) (w : Word) : State :=
  s.modEng (clusterOf k.core) k.id fun k => { k with phase := .ended, fail := some (st, fst, w), failAt := 0 }

/-- The work begins: a near destination takes its landing range, or waits for a free one (R165). -/
def State.beginWork (s : State) (k : EngCmd) : Option State :=
  let cl := clusterOf k.core
  let go (s : State) : State := s.modEng cl k.id fun k => { k with phase := .work, stage := [], spsn := [], pos := 0, sub := 0 }
  match s.target k with
  | some (p, n) =>
    if 64 ≤ (s.cluster cl).land.length then none else some (go (s.landAdd cl (landingOf p n k.id)))
  | none => some (go s)

/-- Whether a command has operands that describe its work. -/
def EngCmd.described (k : EngCmd) : Bool :=
  match k.insn with
  | .xmapLd .. | .xmapSt .. | .xembed .. | .xstream .. => true
  | _ => false

/-- Whether a command may become active: in queue order, 16 at most (R155). -/
def State.mayActivate (s : State) (k : EngCmd) : Bool :=
  let q := (s.cluster (clusterOf k.core)).eng
  (match q.find? fun e => decide (e.phase = .queued) with
    | some e => decide (e.id = k.id)
    | none => false)
  && decide ((q.filter fun e => decide (e.phase ≠ .queued)).length < 16)

/-- The second round, when the operands are read: near ones now. -/
def State.secondRound (s : State) (k : EngCmd) : Option State :=
  let cl := clusterOf k.core
  let near (e : Word) (n : Nat) : Nat := (s.engNear k.core e n false).getD 0
  let finish (k' : EngCmd) : Option State :=
    match s.check2 k' with
    | some x => some ((s.modEng cl k.id fun _ => k').endStart k' x.1 0 x.2)
    | none => (s.modEng cl k.id fun _ => k').beginWork k'
  match k.insn with
  | .xmapLd .. | .xmapSt .. =>
    let p := near k.av 64
    if s.landWait k p 64 then none
    else finish { k with desc := s.bytes p 64, descPsn := s.poisonIn p 64 }
  | .xembed .. =>
    let p := near k.bv (8 * k.cv.toNat)
    if s.landWait k p (8 * k.cv.toNat) then none
    else finish { k with desc := k.desc.take 32 ++ s.bytes p (8 * k.cv.toNat), aux0 := descVersion k.desc
                         descPsn := (s.poisonIn p (8 * k.cv.toNat)).map (4 + ·) }
  | _ => finish k

/-- The reads of the slot and of the descriptor of `xembed` (R181). -/
def State.slotStep (s : State) (k : EngCmd) : Option State :=
  let cl := clusterOf k.core
  match k.fail with
  | some f => some (s.endStart k f.1 f.2.1 f.2.2)
  | none =>
    if k.sub = 0 then s.act k (.rdFar k.av 8 0)
    else if !k.reqs.isEmpty then none
    else if k.sub = 1 then
      let g := BitVec.ofNat 64 (leVal (k.staged 0 8))
      if !s.gvaOk (s.gva g) then some (s.endStart k stAddr 0 (s.gva g))
      else if g.toNat % 32 ≠ 0 then some (s.endStart k stDesc 0 (s.gva g))
      else some (s.modEng cl k.id fun k => { k with tdesc := s.gva g, stage := [], spsn := [], sub := 2 })
    else if k.sub = 2 then s.act k (.rdFar k.tdesc 32 0)
    else some (s.modEng cl k.id fun k => { k with desc := k.staged 0 32, stage := [], spsn := [], phase := .desc, sub := 0 })

/-- One step of a command; nothing when it must wait; a restored one becomes active again in its phase (R187). Its core is held while its team is saved, and from a RESTORE to the RESUME
(R186, R377). -/
def State.engStep (s : State) (cl : BitVec 8) (id : Nat) : Option State :=
  match s.eng? cl id with
  | none => none
  | some k =>
    if k.hold || (s.core k.core).held then none
    else match k.phase with
      | .queued =>
        if !s.mayActivate k then none
        else match k.was with
          | some ph => some (s.modEng cl id fun k => { k with phase := ph, was := none })
          | none =>
            match s.check1 k with
            | some x => some (s.endStart k x.1 0 x.2)
            | none =>
              match k.insn with
              | .xembed .. => some (s.modEng cl id fun k => { k with phase := .slot })
              | _ => if k.described then some (s.modEng cl id fun k => { k with phase := .desc }) else s.beginWork k
      | .slot => s.slotStep k
      | .desc => s.secondRound k
      | .work => s.work k
      | .ended => none

/-- Up to n steps of a command. -/
def State.engSteps (s : State) (cl : BitVec 8) (id : Nat) : Nat → State
  | 0 => s
  | n + 1 => match s.engStep cl id with
    | some s' => State.engSteps s' cl id n
    | none => s

/-- ENGINE_COMMAND_START: command k of a cluster's engine becomes active and goes on, by n steps at most (R161). -/
def execEngineCommandStart (cl : BitVec 8) (k : Nat) (n : Nat) (s : State) : Out :=
  match (s.cluster cl).eng[k]? with
  | some e => .next (s.engSteps cl e.id n)
  | none => .next s

end Sys2Proof.Machine
end

