-- ==== Sys2Proof/Machine/Matrix.lean ====
section
/-! DEFINITION. The matrix arrays: issue, queue order, start checks, snapshot, grid cycles, transfers and
completions (R279 to R307). -/

namespace Sys2Proof.Machine

/-! ### Arrays and ownership (R279, R280) -/

/-- The job field of array i in an AOWN word, and whether the array is assigned (Table 15.7). -/
def aownJob (w : Word) (i : Nat) : BitVec 8 := BitVec.ofNat 8 (fld w.toNat (8 * i) 8)
def aownSet (w : Word) (i : Nat) : Bool := w.getLsbD (32 + i)

/-- Whether a job owns an array of a cluster. -/
def State.ownsArray (s : State) (cl : BitVec 8) (arr : BitVec 2) (job : BitVec 8) : Bool :=
  let w := (s.cluster cl).aown
  aownSet w arr.toNat && decide (aownJob w arr.toNat = job)

def State.mat (s : State) (cl : BitVec 8) (arr : BitVec 2) : MatArray := (s.cluster cl).arrays[arr.toNat]'(arr.isLt)
def State.modMat (s : State) (cl : BitVec 8) (arr : BitVec 2) (f : MatArray → MatArray) : State :=
  s.modCluster cl fun x => { x with arrays := x.arrays.set arr.toNat (f (x.arrays[arr.toNat]'(arr.isLt))) (arr.isLt) }
/-- A command of an array changed. -/
def State.modCmd (s : State) (cl : BitVec 8) (arr : BitVec 2) (id : Nat) (f : MatCmd → MatCmd) : State :=
  s.modMat cl arr fun a => { a with cmds := a.cmds.map fun k => if k.id = id then f k else k }

def MatArray.acc (a : MatArray) (m : Bool) : SMap (BitVec 32) := if m then a.acc1 else a.acc0
def MatArray.psn (a : MatArray) (m : Bool) : List Nat := if m then a.psn1 else a.psn0
def MatArray.isInt (a : MatArray) (m : Bool) : Bool := if m then a.int1 else a.int0
/-- A bank with new cells and poison bits. -/
def MatArray.setBank (a : MatArray) (m : Bool) (acc : SMap (BitVec 32)) (psn : List Nat) : MatArray :=
  if m then { a with acc1 := acc, psn1 := psn } else { a with acc0 := acc, psn0 := psn }
/-- The tag T of a bank set. -/
def MatArray.setInt (a : MatArray) (m int : Bool) : MatArray := if m then { a with int1 := int } else { a with int0 := int }

/-- Bits as an FP accumulator cell holds them: never −0, a NaN in its canonical pattern (R5, R42, R289, log 66). -/
def fpCell (x : BitVec 32) : BitVec 32 :=
  if x = 0x80000000 then 0 else if (FF.read .fp32 x.toNat).isNan then 0x7FC00000 else x
/-- The listed cells of a bank as FP cells. -/
def fpBank (acc : SMap (BitVec 32)) : SMap (BitVec 32) :=
  (acc.map fun e => (e.1, fpCell e.2)).filter fun e => decide (e.2 ≠ 0)
/-- The tag T of a bank at the start of a grid command: cells that were INT32 values become FP cells (R301, log 66). -/
def MatArray.retag (a : MatArray) (m int : Bool) : MatArray :=
  (if a.isInt m && !int then a.setBank m (fpBank (a.acc m)) (a.psn m) else a).setInt m int

/-- The cells p to e − 1 of a bank; a cell not listed holds +0. -/
def denseRun : SMap (BitVec 32) → Nat → Nat → List (BitVec 32)
  | [], p, e => List.replicate (e - p) 0
  | (k, b) :: r, p, e =>
    if k < p then denseRun r p e
    else if e ≤ k then List.replicate (e - p) 0
    else List.replicate (k - p) 0 ++ b :: denseRun r (k + 1) e
/-- The listed form of the cells from a number on. -/
def sparseRun (p : Nat) (xs : List (BitVec 32)) : SMap (BitVec 32) :=
  (((List.range xs.length).map (p + ·)).zip xs).filter fun e => decide (e.2 ≠ 0)

/-! ### Issue (R280, R281) -/

/-- The array and the bank that a matrix command names; `mseed` names no bank. -/
def matArr : Instr → BitVec 2
  | .mop n .. | .mopsZc n .. | .mopsS24 n .. | .mzero n .. | .mload n .. | .mdrain n .. | .mseed n .. => n
  | _ => 0
def matBank : Instr → Option Bool
  | .mop _ m .. | .mopsZc _ m .. | .mopsS24 _ m .. | .mzero _ m .. | .mload _ m .. | .mdrain _ m .. => some m
  | _ => none

/-- The payload of a completion (Table 11.1). -/
def matWords (i : Instr) (status done : Nat) (psn : Bool) (flags : BitVec 6) (wher : Word) : List Word :=
  [wordOf [(status, 4), (0, 4), (psn.toNat, 1), (0, 7), (Instr.lop i, 5), ((matArr i).toNat, 2),
    (((matBank i).getD false).toNat, 1), (flags.toNat, 6), (0, 2), (done, 32)], wher]

/-- A matrix command issues: a commit point; an array that the job does not own answers NEAR at once; else it takes
a queue entry, or waits for one in turn. -/
def State.matIssue (s : State) (i : Instr) (vals : Word × Word × Word × Word) (dyn : Bool) (lab : Label)
    (th : Thread → Thread) : State :=
  s.atNearCommit fun s =>
    let c := s.cur.core
    let cl := s.clx
    let arr := matArr i
    let a := s.mat cl arr
    let count (x : CoreIx) : Nat := (a.cmds.filter fun k => decide (k.core = x)).length
    if s.ownsArray cl arr s.k.job then
      let others := a.wait.filter fun w => decide (w ≠ c) && s.waits w && decide (count w < 4)
      if 4 ≤ count c ∨ 16 ≤ a.cmds.length ∨ nextInTurn a.last others c = false then
        (s.modMat cl arr fun a => { a with wait := if a.wait.contains c then a.wait else a.wait ++ [c] }).stall
      else
        let n := s.fresh
        let k : MatCmd := { id := n.1, insn := i, core := c, thr := s.cur.thr, dv := vals.1, av := vals.2.1, bv := vals.2.2.1,
                            cv := vals.2.2.2, frm := if dyn then s.th.frm else 0, lab := lab }
        let s := n.2.modMat cl arr fun a => { a with cmds := a.cmds ++ [k], wait := a.wait.filter (fun w => decide (w ≠ c)), last := coreOf c }
        s.setTh ((th s.th).advance 8)
    else
      match matBank i with
      | none => s.setTh ((th s.th).advance 8)
      | some _ =>
        if s.k.sinks (selfShape .normal [0, 0]) then
          (s.setTh ((th s.th).advance 8)).selfMsg c lab .normal (matWords i stNear 0 false 0 (zextW arr))
        else s.stall.noRoom c

/-- Any command of the arrays. -/
def State.matrix (s : State) (i : Instr) (d a b c : SReg) (dyn : Bool) (lab : Label) : Out :=
  let r := s.th.rdCmd d a b c
  .next (s.matIssue i r.1 dyn lab r.2)

/-- `mop` (R281, R301). -/
def execMop (n : BitVec 2) (m : Bool) (fA fB : Tag) (a b c : SReg) (lab : Label) (s : State) : Out :=
  s.matrix (.mop n m fA fB a b c lab) 0 a b c false lab
/-- `mops.zc` (R281, R302). -/
def execMopsZc (n : BitVec 2) (m : Bool) (fA fB : Tag) (d a b c : SReg) (lab : Label) (s : State) : Out :=
  s.matrix (.mopsZc n m fA fB d a b c lab) d a b c false lab
/-- `mops.s24` (R281, R303). -/
def execMopsS24 (n : BitVec 2) (m : Bool) (fA fB : Tag) (d a b c : SReg) (lab : Label) (s : State) : Out :=
  s.matrix (.mopsS24 n m fA fB d a b c lab) d a b c false lab
/-- `mzero` (R281, R304). -/
def execMzero (n : BitVec 2) (m : Bool) (lab : Label) (s : State) : Out := s.matrix (.mzero n m lab) 0 0 0 0 false lab
/-- `mload` (R281, R305). -/
def execMload (n : BitVec 2) (m : Bool) (fA : Tag) (a : SReg) (lab : Label) (s : State) : Out :=
  s.matrix (.mload n m fA a lab) 0 a 0 0 false lab
/-- `mdrain` (R281, R307). -/
def execMdrain (n : BitVec 2) (m : Bool) (fA : Tag) (rm : Rm) (relu : Bool) (scale : BitVec 8) (a : SReg) (lab : Label) (s : State) : Out :=
  s.matrix (.mdrain n m fA rm relu scale a lab) 0 a 0 0 (decide (rm = .dyn)) lab
/-- `mseed` (R281, R306). -/
def execMseed (n : BitVec 2) (a : SReg) (s : State) : Out := s.matrix (.mseed n a) 0 a 0 0 false 0

/-! ### Operands (R284 to R286, R302, R303, R305, R307) -/

/-- Formats of the two sides. -/
def matFmts : Instr → Tag × Tag
  | .mop _ _ fA fB .. | .mopsZc _ _ fA fB .. | .mopsS24 _ _ fA fB .. => (fA, fB)
  | .mload _ _ fA .. | .mdrain _ _ fA .. => (fA, fA)
  | _ => (.raw, .raw)

/-- The rate r of a format: k-steps per cycle (Table 11.2). -/
def rateOf : Tag → Nat
  | .bf16 | .f16 => 1 | .e2m1 => 4 | _ => 2
/-- Formats with block scales. -/
def scaledTag : Tag → Bool
  | .e4m3 | .e5m2 | .e2m1 => true
  | _ => false
/-- Integer formats of the grid. -/
def intTag : Tag → Bool
  | .i8 | .n8 | .i16 | .i32 => true
  | _ => false

/-- K of a command, and kA. -/
def MatCmd.depth (k : MatCmd) : Nat := fld k.cv.toNat 0 13
def MatCmd.kA (k : MatCmd) : Nat := zcSteps (matFmts k.insn).1
/-- SZ·16: the slot bytes of `mops.zc`. -/
def MatCmd.slot (k : MatCmd) : Nat := 16 * fld k.dv.toNat 0 9

/-- Bytes of the west operand. -/
def MatCmd.westBytes (k : MatCmd) : Nat :=
  match k.insn with
  | .mopsZc .. => k.slot * (k.depth / k.kA)
  | .mopsS24 .. => 4096 * (k.depth / (2 * k.kA))
  | _ => 4096 * (k.depth / k.kA)
/-- The west and the north scale regions: near offsets. -/
def MatCmd.westScale (k : MatCmd) : Word := BitVec.ofNat 64 ((k.av.toNat + k.westBytes + 4095) / 4096 * 4096)
def MatCmd.northScale (k : MatCmd) : Word := k.bv + BitVec.ofNat 64 (8192 * (k.depth / k.kA))

/-- Bytes of a transfer. -/
def MatCmd.moved (k : MatCmd) : Nat := 1024 * tagWidth (matFmts k.insn).1

/-- The ranges that a command reads or writes, in the order in which R287 takes them. -/
def MatCmd.ranges (k : MatCmd) : List (Word × Nat) :=
  let scales := if scaledTag (matFmts k.insn).1 then [(k.westScale, 2 * k.depth), (k.northScale, 4 * k.depth)] else []
  let ab := [(k.av, k.westBytes), (k.bv, 8192 * (k.depth / k.kA))]
  match k.insn with
  | .mop .. | .mopsZc .. => ab ++ scales
  | .mopsS24 .. => ab ++ [(k.dv, 8 * k.depth)] ++ scales
  | .mload .. | .mdrain .. => [(k.av, k.moved)]
  | _ => []

/-- Alignments. -/
def MatCmd.aligns (k : MatCmd) : List (Word × Nat) :=
  match k.insn with
  | .mop .. => [(k.av, 4096), (k.bv, 4096)]
  | .mopsZc .. => [(k.av, 16), (k.bv, 4096)]
  | .mopsS24 .. => [(k.av, 4096), (k.bv, 4096), (k.dv, 16)]
  | .mload .. | .mdrain .. => [(k.av, 4096)]
  | _ => []

/-- Limits. -/
def MatCmd.limitsOk (k : MatCmd) : Bool :=
  let kOk (u : Nat) : Bool := decide (k.cv.toNat < 2 ^ 13) && decide (k.depth % u = 0) && decide (k.kA ≤ k.depth ∧ k.depth ≤ 4096)
  match k.insn with
  | .mop .. => kOk k.kA
  | .mopsZc .. => kOk k.kA && decide (k.dv.toNat < 2 ^ 9) && decide (16 ≤ k.slot ∧ k.slot ≤ 4112)
  | .mopsS24 .. => kOk (2 * k.kA)
  | _ => true

/-- A range wholly in the scratchpad area and in the job's window: its place. -/
def State.matPlace (s : State) (k : MatCmd) (o : Word) (n : Nat) : Option Nat :=
  if o.toNat + n ≤ 0x1000000 then s.nearPlace k.core o n else none

/-- The first start check that fails: status and WHERE (R287). -/
def State.matCheck (s : State) (k : MatCmd) : Option (Nat × Word) :=
  match k.aligns.find? fun x => decide (x.1.toNat % x.2 ≠ 0) with
  | some x => some (stAlign, x.1)
  | none =>
    if !k.limitsOk then some (stLimit, 0)
    else match k.ranges.find? fun x => (s.matPlace k x.1 x.2).isNone with
      | some x => some (stNear, x.1)
      | none => none

/-! ### Order (R282) -/

/-- Units of an array. -/
inductive MatUnit where
  | grid | transfer | none
  deriving DecidableEq, Repr

def matUnit : Instr → MatUnit
  | .mop .. | .mopsZc .. | .mopsS24 .. => .grid
  | .mload .. | .mdrain .. | .mseed .. => .transfer
  | _ => .none

/-- Whether a command reads tiles. -/
def matReads : Instr → Bool
  | .mop .. | .mopsZc .. | .mopsS24 .. | .mload .. => true
  | _ => false

/-- Whether a command of an array may start: its place in the order, its bank, its unit, and for `mdrain` the
operand fetches of those before it. -/
def MatArray.mayStart (a : MatArray) (k : MatCmd) : Bool :=
  let before := a.cmds.takeWhile fun e => decide (e.id ≠ k.id)
  before.all (fun e => e.started)
    && before.all (fun e => e.ended || decide (matBank e.insn = none) || decide (matBank e.insn ≠ matBank k.insn))
    && (decide (matUnit k.insn = .none) || before.all fun e => e.ended || decide (matUnit e.insn ≠ matUnit k.insn))
    && (match k.insn with
        | .mdrain .. => before.all fun e => e.ended || !matReads e.insn
        | _ => true)

/-! ### Blocks (R292 to R294) -/

/-- What the snapshot decides of a block. -/
inductive Block where
  | skip | pass | full
  deriving DecidableEq, Repr

/-- The entry of the tile of a place in the snapshot. -/
def MatCmd.entAt (k : MatCmd) (p : Nat) : Word := SMap.get 1 k.snap (p / 4096)
/-- The place of an offset of the command's cluster. -/
def MatCmd.at (k : MatCmd) (o : Nat) : Nat := spadPlace (clusterOf k.core) o

def isZero (e : Word) : Bool := decide (entState e = 1)
def isClean (f : Tag) (e : Word) : Bool := intTag f || (!entS e && decide (entFmt e = f))
def isIdent (f : Tag) (north : Bool) (e : Word) : Bool :=
  decide (entState e = 3) && decide (entConst e % 2 = north.toNat) && decide (entFmt e = f)

/-- The tiles of n bytes from an offset on: a place in each. -/
def tilesOf (o n : Nat) : List Nat := if n = 0 then [] else (List.range ((o + n - 1) / 4096 - o / 4096 + 1)).map fun i => (o / 4096 + i) * 4096

/-- The places of W, N₀ and N₁ of a block, and of its scale tiles. -/
def MatCmd.tileW (k : MatCmd) (b : Nat) : Nat := k.at (k.av.toNat + 4096 * b)
def MatCmd.tileN0 (k : MatCmd) (b : Nat) : Nat := k.at (k.bv.toNat + 8192 * b)
def MatCmd.tileN1 (k : MatCmd) (b : Nat) : Nat := k.at (k.bv.toNat + 8192 * b + 4096)
def MatCmd.scaleTiles (k : MatCmd) (b : Nat) : List Nat :=
  if scaledTag (matFmts k.insn).1 then
    (tilesOf (k.westScale.toNat + 2 * k.kA * b) (2 * k.kA) ++ tilesOf (k.northScale.toNat + 4 * k.kA * b) (4 * k.kA)).map k.at
  else []

/-- Whether a block is scale-clean. -/
def MatCmd.scaleClean (k : MatCmd) (b : Nat) : Bool :=
  (k.scaleTiles b).all fun p => !entS (k.entAt p) && decide (entFmt (k.entAt p) = .e8m0)

/-- Whether the north tile of k-step q is clean. -/
def MatCmd.northClean (k : MatCmd) (q : Nat) : Bool :=
  isClean (matFmts k.insn).2 (k.entAt (k.at (k.bv.toNat + 4096 * (q / (k.kA / 2)))))

/-- A block of a `mop` under the snapshot. -/
def MatCmd.block (k : MatCmd) (b : Nat) : Block :=
  let f := matFmts k.insn
  let w := k.entAt (k.tileW b)
  let n0 := k.entAt (k.tileN0 b)
  let n1 := k.entAt (k.tileN1 b)
  let nClean := isClean f.2 n0 && isClean f.2 n1
  if !k.scaleClean b then .full
  else if (isZero w && nClean) || (isZero n0 && isZero n1 && isClean f.1 w) then .skip
  else if (isIdent f.1 false w && nClean) || (isIdent f.2 true n0 && isIdent f.2 true n1 && isClean f.1 w) then .pass
  else .full

/-- What the snapshot decides of cycle c: `mop` by its block, `mops.zc` by its k-steps (R302), `mops.s24` nothing. -/
def MatCmd.cycleKind (k : MatCmd) (c : Nat) : Block :=
  let r := rateOf (matFmts k.insn).1
  match k.insn with
  | .mop .. => k.block (r * c / k.kA)
  | .mopsZc .. =>
    let ks := (List.range r).map (r * c + ·)
    if ks.all (fun q => !(k.maps.getD (q / k.kA) 0).testBit (q % k.kA) && k.northClean q) && k.scaleClean (r * c / k.kA)
    then .skip else .full
  | _ => .full

/-- Grid cycles of a command, the skipped ones included. -/
def MatCmd.cycles (k : MatCmd) : Nat :=
  let r := rateOf (matFmts k.insn).1
  match k.insn with
  | .mopsS24 .. => k.depth / (2 * r)
  | _ => k.depth / r

/-! ### Fetching (R287, R288) -/

/-- The 8-byte word at a place as a command takes it: from the snapshot where the tile had M = 0 or the block is
decided, else as it was when it was fetched, or as it stands now (R288). -/
def State.matWord (s : State) (k : MatCmd) (p : Nat) : Word :=
  if !entM (k.entAt p) then synthWord (k.entAt p) (p % 4096) else (SMap.find k.kept (p / 8)).getD (s.word p)

/-- Whether that word is poisoned. -/
def State.matPoisoned (s : State) (k : MatCmd) (p : Nat) : Bool :=
  if !entM (k.entAt p) || (SMap.find k.kept (p / 8)).isSome then k.keptPsn.contains (p / 8) else s.poisoned p

/-- A command with a word of its operands fetched now, once at most (R288, log 50). -/
def State.fetchWord (s : State) (k : MatCmd) (w : Nat) : MatCmd :=
  let p := 8 * w
  let mine := k.ranges.any fun x => decide (k.at x.1.toNat ≤ p) && decide (p < k.at x.1.toNat + x.2)
  if mine && entM (k.entAt p) && (SMap.find k.kept w).isNone then
    let rest := k.keptPsn.filter fun q => decide (q ≠ w)
    { k with kept := SMap.set w (s.word p) k.kept, keptPsn := if s.poisoned p then w :: rest else rest }
  else k

/-- n bytes from an 8-byte-aligned place on, as a command takes them. -/
def State.matBytes (s : State) (k : MatCmd) (p n : Nat) : List Byte :=
  ((List.range ((n + 7) / 8)).flatMap fun i => leBytes 8 (s.matWord k (p + 8 * i)).toNat).take n

/-- The words of n bytes from a place on that are poisoned. -/
def State.matBad (s : State) (k : MatCmd) (p n : Nat) : List Nat :=
  (List.range ((n + 7) / 8)).filter fun i => s.matPoisoned k (p + 8 * i)

/-- The floating format of a tag. -/
def tagFloat : Tag → FF
  | .bf16 => .bf16 | .f16 => .f16 | .e4m3 => .e4m3 | .e5m2 => .e5m2 | .e2m1 => .e2m1 | _ => .fp32

/-- The scaled value of an operand element (R286, R290). -/
def operand (f : Tag) (x scale : Nat) : FVal :=
  match f with
  | .i8 => let z := toSigned 8 x; .fin (decide (z < 0)) z.natAbs 0
  | .n8 => .fin false x 0
  | f =>
    let v := (tagFloat f).read x
    if scaledTag f then
      match e8m0Exp scale with
      | none => .nan false
      | some sc => match v with
        | .fin n m e => .fin n m (e + sc)
        | v => v
    else v

/-- What one grid cycle takes in: per row its terms (a k-step of the cycle and a value), per column its values by
k-step; rows and columns that poison reaches (R291). -/
structure Feed where
  rows : List (List (Nat × FVal))
  cols : List (List FVal)
  rowPsn : List Nat
  colPsn : List Nat

/-- Rows that poisoned words of a row-group of elements of width w reach. -/
def rowsOfWords (w : Nat) (bad : List Nat) : List Nat := bad.flatMap fun i => (List.range (64 / w)).map fun e => i * (64 / w) + e

/-- The scale bytes of k-step q: n of them from a region. -/
def State.matScale (s : State) (k : MatCmd) (region : Word) (n q : Nat) : List Byte :=
  if scaledTag (matFmts k.insn).1 then s.matBytes k (k.at (region.toNat + n * (q / 32))) n else []
def State.matScaleBad (s : State) (k : MatCmd) (region : Word) (n q : Nat) : List Nat :=
  if scaledTag (matFmts k.insn).1 then rowsOfWords 8 (s.matBad k (k.at (region.toNat + n * (q / 32))) n) else []

/-- Where row-group g of the west operand lies: its place, or nothing when it is an absent k-step. -/
def MatCmd.westGroup (k : MatCmd) (g : Nat) : Option Nat :=
  let w := tagWidth (matFmts k.insn).1
  match k.insn with
  | .mopsZc .. =>
    let map := k.maps.getD (g / k.kA) 0
    if map.testBit (g % k.kA) then some (k.at (k.av.toNat + k.slot * (g / k.kA) + 16 + 8 * w * popc (g % k.kA) map)) else none
  | _ => some (k.at (k.av.toNat + 8 * w * g))

/-- A row-group: its 64 elements, and the rows that poison reaches. -/
def State.matGroup (s : State) (k : MatCmd) (g : Nat) : List Nat × List Nat :=
  let f := (matFmts k.insn).1
  match k.westGroup g with
  | some p => (elements f (s.matBytes k p (8 * tagWidth f)), rowsOfWords (tagWidth f) (s.matBad k p (8 * tagWidth f)))
  | none => (List.replicate 64 0, [])

/-- A k-step of the north operand: its 128 elements, and the columns that poison reaches. -/
def State.matNorth (s : State) (k : MatCmd) (q : Nat) : List Nat × List Nat :=
  let f := (matFmts k.insn).2
  let p := k.at (k.bv.toNat + 16 * tagWidth f * q)
  (elements f (s.matBytes k p (16 * tagWidth f)), rowsOfWords (tagWidth f) (s.matBad k p (16 * tagWidth f)))

/-- The byte at an index of a list, as a number. -/
def byteAt (bs : List Byte) (i : Nat) : Nat := (bs.getD i 0).toNat

/-- The index that the metadata of slot t gives row i (R303). -/
def metaIndex (md : List Byte) (t i : Nat) : Nat := byteAt md (i / 2) / 2 ^ (4 * (i % 2) + 2 * (t % 2)) % 4

/-- The columns of a cycle: the k-steps q0 to q0 + span − 1 of the north operand, scaled, and the poison. -/
def State.feedNorth (s : State) (k : MatCmd) (q0 span : Nat) : List (List FVal) × List Nat :=
  let f := (matFmts k.insn).2
  let north := (List.range span).map fun x => (s.matNorth k (q0 + x), s.matScale k k.northScale 128 (q0 + x))
  ((List.range 128).map fun j => north.map fun n => operand f (n.1.1.getD j 0) (byteAt n.2 j),
   north.flatMap (fun n => n.1.2) ++ (List.range span).flatMap fun x => s.matScaleBad k k.northScale 128 (q0 + x))

/-- The row of a `mop` or `mops.zc` cycle from its row-groups and their scales. -/
def denseRow (f : Tag) (groups : List (List Nat × List Byte)) (i : Nat) : List (Nat × FVal) :=
  ((List.range groups.length).zip groups).map fun g => (g.1, operand f (g.2.1.getD i 0) (byteAt g.2.2 i))

/-- The feed of cycle c of dense k-steps. -/
def State.feedDense (s : State) (k : MatCmd) (c : Nat) : Feed :=
  let f := (matFmts k.insn).1
  let r := rateOf f
  let n := s.feedNorth k (r * c) r
  let ks := (List.range r).map (r * c + ·)
  let west := ks.map fun q => (s.matGroup k q, s.matScale k k.westScale 64 q)
  { rows := (List.range 64).map (denseRow f (west.map fun w => (w.1.1, w.2)))
    cols := n.1
    rowPsn := west.flatMap (fun w => w.1.2) ++ ks.flatMap fun q => s.matScaleBad k k.westScale 64 q
    colPsn := n.2 }

/-- The row of a `mops.s24` cycle: each slot t with its elements and its metadata names a k-step of its group (R303). -/
def sparseRow (f : Tag) (g0 : Nat) (slots : List (Nat × List Nat × List Byte)) (scales : List (List Byte)) (i : Nat) : List (Nat × FVal) :=
  slots.map fun t =>
    let rel := 4 * (t.1 / 2 - g0) + metaIndex t.2.2 t.1 i
    (rel, operand f (t.2.1.getD i 0) (byteAt (scales.getD rel []) i))

/-- The feed of cycle c of `mops.s24`: r slots, and the k-steps of their groups. -/
def State.feedSparse (s : State) (k : MatCmd) (c : Nat) : Feed :=
  let f := (matFmts k.insn).1
  let r := rateOf f
  let g0 := r * c / 2
  let span := Nat.max 4 (2 * r)
  let n := s.feedNorth k (4 * g0) span
  let ts := (List.range r).map (r * c + ·)
  let md (t : Nat) : Nat := k.at (k.dv.toNat + 32 * (t / 2))
  let west := ts.map fun t => (t, s.matGroup k t)
  let scales := (List.range span).map fun x => s.matScale k k.westScale 64 (4 * g0 + x)
  { rows := (List.range 64).map (sparseRow f g0 (west.map fun w => (w.1, w.2.1, s.matBytes k (md w.1) 32)) scales)
    cols := n.1
    rowPsn := west.flatMap (fun w => w.2.2 ++ rowsOfWords 4 (s.matBad k (md w.1) 32))
      ++ (List.range span).flatMap fun x => s.matScaleBad k k.westScale 64 (4 * g0 + x)
    colPsn := n.2 }

/-- The feed of cycle c. -/
def State.feed (s : State) (k : MatCmd) (c : Nat) : Feed :=
  match k.insn with
  | .mopsS24 .. => s.feedSparse k c
  | _ => s.feedDense k c

/-! ### Cells (R289 to R291) -/

/-- The exact product of two values, and whether it is 0·∞. -/
def FVal.mul : FVal → FVal → FVal × Bool
  | .nan s, _ => (.nan s, false)
  | _, .nan s => (.nan s, false)
  | .inf n, .inf n' => (.inf (n != n'), false)
  | .inf n, .fin n' m _ => if m = 0 then (.nan false, true) else (.inf (n != n'), false)
  | .fin n m _, .inf n' => if m = 0 then (.nan false, true) else (.inf (n != n'), false)
  | .fin n m e, .fin n' m' e' => (.fin (n != n') (m * m') (e + e'), false)

/-- The exact sum of finite values. -/
def sumDy : List FVal → Dy
  | [] => (0, 0)
  | .fin n m e :: r => dyAdd (dyOf n m e) (sumDy r)
  | _ :: r => sumDy r

/-- STEP_FP (R289): the whole sum rounded once. -/
def stepFp (acc : Nat) (ts : List (FVal × FVal)) : Nat × Flags :=
  let ps := ts.map fun t => FVal.mul t.1 t.2
  let all := FF.read .fp32 acc :: ps.map (·.1)
  let sig := ts.any fun t => t.1.isSig || t.2.isSig
  let invalid := ps.any (·.2) || (all.contains (.inf true) && all.contains (.inf false))
  if invalid || all.any FVal.isNan then (0x7FC00000, if sig || invalid then fNV else 0)
  else if all.contains (.inf true) then (0xFF800000, 0)
  else if all.contains (.inf false) then (0x7F800000, 0)
  else
    let r := FF.roundDy .fp32 .rne false (sumDy all)
    (if r.1 = 0x80000000 then 0 else r.1, r.2)

/-- STEP_INT (R290): the exact sum, clamped. -/
def stepInt (acc : Nat) (ts : List (FVal × FVal)) : Nat × Flags :=
  IFmt.clamp ⟨true, 32⟩ (toSigned 32 acc + (sumDy (ts.map fun t => (FVal.mul t.1 t.2).1)).1)

/-- The cells of a bank after a cycle, row by row, and the flags. -/
def gridCells (int : Bool) (acc : List (BitVec 32)) (fd : Feed) : List (BitVec 32) × Flags :=
  let pairs := fd.rows.flatMap fun row => fd.cols.map fun col => row.map fun t => (t.2, col.getD t.1 (.fin false 0 0))
  let rs := (acc.zip pairs).map fun e => if int then stepInt e.1.toNat e.2 else stepFp e.1.toNat e.2
  (rs.map fun r => BitVec.ofNat 32 r.1, rs.foldl (fun f r => f ||| r.2) 0)

/-- Poisoned cells with whole rows and columns added. -/
def addPoison (old rows cols : List Nat) : List Nat :=
  if rows.isEmpty && cols.isEmpty then old
  else (List.range 8192).filter fun i => old.contains i || rows.contains (i / 128) || cols.contains (i % 128)

/-! ### The work of a command -/

/-- A command ends. -/
def State.matEnd (s : State) (cl : BitVec 8) (arr : BitVec 2) (id : Nat) : State :=
  (s.landDrop cl id).modCmd cl arr id fun k => { k with ended := true }

/-- A command ends with the status of a start check. -/
def State.matFail (s : State) (cl : BitVec 8) (arr : BitVec 2) (id st : Nat) (w : Word) : State :=
  s.modCmd cl arr id fun k => { k with started := true, ended := true, status := st, wher := w }

/-- The range of places of an offset range. -/
def MatCmd.places (k : MatCmd) : List (Nat × Nat) := k.ranges.map fun x => (k.at x.1.toNat, x.2)

/-- A command with the words of the tiles of a block that runs in pass mode fetched at the snapshot (R288). -/
def State.keepBlock (s : State) (k : MatCmd) (b : Nat) : MatCmd :=
  match k.insn with
  | .mop .. =>
    if k.block b = .pass then
      ([k.tileW b, k.tileN0 b, k.tileN1 b] ++ k.scaleTiles b).foldl (fun k p => (List.range 512).foldl (fun k i => s.fetchWord k (p / 8 + i)) k) k
    else k
  | _ => k

/-- The snapshot (R287): entries of all tiles of the ranges, words of decided blocks, poisoned words. -/
def State.snapshot (s : State) (k : MatCmd) : MatCmd :=
  let tiles := k.ranges.flatMap fun x => (tilesOf x.1.toNat x.2).map k.at
  let k := { k with
    ready := true
    snap := tiles.foldl (fun m p => SMap.set (p / 4096) (s.entry p) m) []
    keptPsn := tiles.flatMap fun p => (s.poisonIn p 4096).map (p / 8 + ·) }
  (List.range (k.depth / k.kA)).foldl (s.keepBlock) k

/-- The MAPs of the records of `mops.zc`, and the first that is rejected: its slot (R302). -/
def State.readMaps (s : State) (k : MatCmd) : List Nat × Option Nat :=
  let slots := (List.range (k.depth / k.kA)).map fun q => k.at (k.av.toNat + k.slot * q)
  let maps := slots.map fun p => leVal (s.matBytes k p 16)
  (maps, ((List.range maps.length).zip maps).findSome? fun e =>
    if 2 ^ k.kA ≤ e.2 ∨ k.slot < 16 + popc 128 e.2 * (4096 / k.kA) then some e.1 else none)

/-- Whether a MAP of a record of `mops.zc` is poisoned: then every row is (R291, log 25). -/
def State.mapsPoisoned (s : State) (k : MatCmd) : Bool :=
  (List.range (k.depth / k.kA)).any fun q => !(s.matBad k (k.at (k.av.toNat + k.slot * q)) 16).isEmpty

/-- A grid command begins: the tag of the bank, and of `mops.zc` the MAPs. -/
def State.gridStart (s : State) (cl : BitVec 8) (arr : BitVec 2) (k : MatCmd) (m : Bool) : State :=
  let k := s.snapshot k
  let go (s : State) (k : MatCmd) : State :=
    (s.modCmd cl arr k.id fun _ => k).modMat cl arr fun a => a.retag m (intTag (matFmts k.insn).1)
  match k.insn with
  | .mopsZc .. =>
    let r := s.readMaps k
    match r.2 with
    | some q => (s.modCmd cl arr k.id fun _ => { k with psn := s.mapsPoisoned k }).matFail cl arr k.id stFormat (k.av + BitVec.ofNat 64 (k.slot * q))
    | none =>
      if s.mapsPoisoned k then
        (go s { k with maps := r.1, psn := true }).modMat cl arr fun a => a.setBank m (a.acc m) (addPoison (a.psn m) (List.range 64) [])
      else go s { k with maps := r.1 }
  | _ => go s k

/-- G of a cluster as the throttle leaves it (R404). -/
def State.govLimit (s : State) (cl : BitVec 8) : Nat :=
  if s.care.throttled then Nat.max 64 ((s.cluster cl).gov / 2) else (s.cluster cl).gov

/-- The governor's window brought up to the current one (R297). -/
def State.govRefresh (s : State) (cl : BitVec 8) : State :=
  if (s.cluster cl).govWin < s.cycle.toNat / 1024 then
    s.modCluster cl fun x => { x with govUsed := 0, govWin := s.cycle.toNat / 1024, govNow := s.govLimit cl }
  else s

/-- One grid cycle, or one that is skipped; nothing while the governor holds (R289 to R297). -/
def State.gridCycle (s : State) (cl : BitVec 8) (arr : BitVec 2) (k : MatCmd) (m : Bool) : Option State :=
  let a := s.mat cl arr
  let fd := s.feed k k.pos
  let bad := !(fd.rowPsn.isEmpty && fd.colPsn.isEmpty)
  let psn := addPoison (a.psn m) fd.rowPsn fd.colPsn
  if k.cycleKind k.pos = .skip then
    some ((s.modMat cl arr fun a => a.setBank m (a.acc m) psn).modCmd cl arr k.id fun k => { k with pos := k.pos + 1, psn := k.psn || bad })
  else
    let s := s.govRefresh cl
    if (s.cluster cl).govNow ≤ (s.cluster cl).govUsed then none
    else
    let s := s.modCluster cl fun x => { x with govUsed := x.govUsed + 1 }
    let r := gridCells (a.isInt m) (denseRun (a.acc m) 0 8192) fd
    some ((s.modMat cl arr fun a => a.setBank m (sparseRun 0 r.1) psn).modCmd cl arr k.id fun k =>
      { k with pos := k.pos + 1, psn := k.psn || bad, flags := k.flags ||| r.2 })

/-- Elements of a tile of a transfer. -/
def MatCmd.perTile (k : MatCmd) : Nat := 32768 / tagWidth (matFmts k.insn).1

/-- A source element as a cell (R305). -/
def loadCell (f : Tag) (x : Nat) : BitVec 32 :=
  match f with
  | .f32 | .bf16 | .f16 =>
    let y := (toFF false .rne .fp32 ((tagFloat f).read x)).1
    if y = 0x80000000 then 0 else BitVec.ofNat 32 y
  | _ => BitVec.ofNat 32 x

/-- `mload` of one tile (R305). -/
def State.loadTile (s : State) (cl : BitVec 8) (arr : BitVec 2) (k : MatCmd) (m : Bool) : State :=
  let f := (matFmts k.insn).1
  let p := k.at (k.av.toNat + 4096 * k.pos)
  let n := k.perTile
  let c0 := n * k.pos
  let cells := (elements f (s.matBytes k p 4096)).map (loadCell f)
  let bad := (s.matBad k p 4096).flatMap fun i => (List.range (64 / tagWidth f)).map fun e => c0 + i * (64 / tagWidth f) + e
  let outside (i : Nat) : Bool := decide (i < c0) || decide (c0 + n ≤ i)
  (s.modMat cl arr fun a => a.setBank m
      ((a.acc m).filter (fun e => decide (e.1 < c0)) ++ sparseRun c0 cells ++ (a.acc m).filter fun e => decide (c0 + n ≤ e.1))
      ((a.psn m).filter outside ++ bad)).modCmd cl arr k.id fun k => { k with pos := k.pos + 1, psn := k.psn || !bad.isEmpty }

/-! ### mdrain (R299, R307) -/

/-- One step of the stochastic-rounding state. -/
def xorshift (x : BitVec 32) : BitVec 32 :=
  let x := x ^^^ (x <<< 13)
  let x := x ^^^ (x >>> 17)
  x ^^^ (x <<< 5)

/-- The integer format of an integer tag. -/
def tagInt : Tag → IFmt
  | .i8 => ⟨true, 8⟩ | .i16 => ⟨true, 16⟩ | .n8 => ⟨false, 8⟩ | _ => ⟨true, 32⟩

/-- The conversion of one cell (R307). -/
def drainCell (int : Bool) (f : Tag) (relu : Bool) (scale : Int) (mode : RMode) (x : BitVec 32) : Nat × Flags :=
  let z := toSigned 32 x.toNat
  let v : FVal := if int then .fin (decide (z < 0)) z.natAbs 0 else FF.read .fp32 x.toNat
  let v : FVal := match v with
    | .inf true => if relu then .fin false 0 0 else .inf true
    | .fin true m e => if relu && decide (m ≠ 0) then .fin false 0 0 else .fin true m (e + scale)
    | .fin false m e => .fin false m (e + scale)
    | v => v
  if intTag f then
    if int then
      match v with
      | .fin n m e =>
        let r := roundMag mode n m e false 0
        (tagInt f).clamp (if n then -(r.1 : Int) else r.1)
      | _ => (0, 0)
    else toIntFmt mode (tagInt f) v
  else
    let r := toFF false mode (tagFloat f) v
    (if r.1 = 2 ^ (tagWidth f - 1) then 0 else r.1, r.2)

/-- Cells converted in ascending order; under SR each takes the next value of X (R299). -/
def drainCells (conv : RMode → BitVec 32 → Nat × Flags) (rm : Rm) (frm : BitVec 2) :
    BitVec 32 → List (BitVec 32) → List Nat × Flags × BitVec 32
  | x, [] => ([], 0, x)
  | x, c :: cs =>
    let x := if rm = .sr then xorshift x else x
    let r := conv (Rm.mode frm (x.extractLsb' 16 16) rm) c
    let rest := drainCells conv rm frm x cs
    (r.1 :: rest.1, r.2 ||| rest.2.1, rest.2.2)

/-- `mdrain` of one tile (R307). -/
def State.drainTile (s : State) (cl : BitVec 8) (arr : BitVec 2) (k : MatCmd) (m : Bool) (rm : Rm) (relu : Bool) (scale : BitVec 8) : State :=
  let f := (matFmts k.insn).1
  let a := s.mat cl arr
  let n := k.perTile
  let c0 := n * k.pos
  let r := drainCells (drainCell (a.isInt m) f relu scale.toInt) rm k.frm a.x (denseRun (a.acc m) c0 (c0 + n))
  let bad := (List.range 512).filter fun i => (a.psn m).any fun c => decide (c0 ≤ c ∧ c < c0 + n) && decide ((c - c0) * tagWidth f / 64 = i)
  let s := s.wholeTile (k.at (k.av.toNat + 4096 * k.pos)) (r.1.flatMap (leBytes (tagWidth f / 8))) f true bad
  (s.modMat cl arr fun a => { a with x := r.2.2 }).modCmd cl arr k.id fun k =>
    { k with pos := k.pos + 1, psn := k.psn || !bad.isEmpty, flags := k.flags ||| r.2.1 }

/-! ### Steps of a command -/

/-- Whether a registered range overlaps one that the command reads (R166, R287). -/
def State.matLanding (s : State) (cl : BitVec 8) (k : MatCmd) : Bool :=
  (s.cluster cl).land.any fun l => k.places.any fun r => l.hits r.1 r.2

/-- A command that may start does: its checks; `mzero` and `mseed` act at once (R287, R304, R306). -/
def State.matBegin (s : State) (cl : BitVec 8) (arr : BitVec 2) (k : MatCmd) : State :=
  match s.matCheck k with
  | some x => s.matFail cl arr k.id x.1 x.2
  | none =>
    let s := s.modCmd cl arr k.id fun k => { k with started := true }
    match k.insn with
    | .mzero _ m _ => (s.modMat cl arr fun a => a.setBank m [] []).matEnd cl arr k.id
    | .mseed .. =>
      let x : BitVec 32 := k.av.extractLsb' 0 32
      s.modMat cl arr fun a => { a with x := if x = 0 then 1 else x, cmds := a.cmds.filter fun e => decide (e.id ≠ k.id) }
    | _ => s

/-- A started command gets ready: the landing wait and the snapshot, or the landing range of `mdrain`. -/
def State.matReady (s : State) (cl : BitVec 8) (arr : BitVec 2) (k : MatCmd) (m : Bool) : Option State :=
  match k.insn with
  | .mdrain .. =>
    if 64 ≤ (s.cluster cl).land.length then none
    else some ((s.landAdd cl (landingOf (k.at k.av.toNat) k.moved k.id)).modCmd cl arr k.id fun k => { k with ready := true })
  | .mload .. =>
    if s.matLanding cl k then none
    else
      let k := s.snapshot k
      some ((s.modCmd cl arr k.id fun _ => k).modMat cl arr fun a => a.setInt m (intTag (matFmts k.insn).1))
  | _ => if s.matLanding cl k then none else some (s.gridStart cl arr k m)

/-- A ready command goes on by one grid cycle or tile, or ends. -/
def State.matWork (s : State) (cl : BitVec 8) (arr : BitVec 2) (k : MatCmd) (m : Bool) : Option State :=
  match k.insn with
  | .mload .. => if k.moved ≤ 4096 * k.pos then some (s.matEnd cl arr k.id) else some (s.loadTile cl arr k m)
  | .mdrain _ _ _ rm relu scale _ _ =>
    if k.moved ≤ 4096 * k.pos then some (s.matEnd cl arr k.id) else some (s.drainTile cl arr k m rm relu scale)
  | _ => if k.cycles ≤ k.pos then some (s.matEnd cl arr k.id) else s.gridCycle cl arr k m

/-- Words of the operands of command k of an array, which has taken its snapshot, are fetched now (R288). -/
def State.fetchEarly (s : State) (cl : BitVec 8) (arr : BitVec 2) (k : Nat) (ws : List Nat) : State :=
  match (s.mat cl arr).cmds[k]? with
  | some c => if c.ready && !c.ended && matReads c.insn then s.modCmd cl arr c.id fun _ => ws.foldl s.fetchWord c else s
  | none => s

/-- One step of a command of an array; nothing when it must wait. -/
def State.matStep (s : State) (cl : BitVec 8) (arr : BitVec 2) (id : Nat) : Option State :=
  match (s.mat cl arr).cmds.find? fun k => decide (k.id = id) with
  | none => none
  | some k =>
    if k.ended then none
    else if !k.started then (if (s.mat cl arr).mayStart k && !s.isStopping k.core then some (s.matBegin cl arr k) else none)
    else
      let m := (matBank k.insn).getD false
      if !k.ready then s.matReady cl arr k m else s.matWork cl arr k m

/-- Up to n steps of a command. -/
def State.matSteps (s : State) (cl : BitVec 8) (arr : BitVec 2) (id : Nat) : Nat → State
  | 0 => s
  | n + 1 => match s.matStep cl arr id with
    | some s' => State.matSteps s' cl arr id n
    | none => s

/-- MATRIX_COMMAND_START: command k of an array starts and goes on, by n steps at most (R282, R287). -/
def execMatrixCommandStart (cl : BitVec 8) (arr : BitVec 2) (k : Nat) (n : Nat) (s : State) : Out :=
  match (s.mat cl arr).cmds[k]? with
  | some c => .next (s.matSteps cl arr c.id n)
  | none => .next s

/-! ### Completion (R283) -/

/-- DONE of a command (Table 11.1). -/
def MatCmd.done (k : MatCmd) : Nat :=
  if k.status ≠ 0 then 0
  else match k.insn with
    | .mload .. | .mdrain .. => k.moved / 4096
    | .mzero .. => 0
    | _ => k.depth

/-- The payload of a command's completion. -/
def MatCmd.payload (k : MatCmd) : List Word := matWords k.insn k.status k.done k.psn k.flags k.wher

/-- MATRIX_COMPLETION: the oldest command of an array, ended, registers its completion, unless the core's kitty is
full (R283, R317). -/
def execMatrixCompletion (cl : BitVec 8) (arr : BitVec 2) (s : State) : Out :=
  match (s.mat cl arr).cmds with
  | [] => .next s
  | k :: rest =>
    if !k.ended then .next s
    else if (s.core k.core).sinks (selfShape .normal k.payload) then
      .next ((s.modMat cl arr fun a => { a with cmds := rest }).selfMsg k.core k.lab .normal k.payload { flags := k.flags })
    else .next (s.noRoom k.core)

/-- GOVERNOR_WINDOW: a new window of 1,024 cycles begins (R297). -/
def execGovernorWindow (cl : BitVec 8) (s : State) : Out := .next (s.govRefresh cl)

end Sys2Proof.Machine
end

