-- ==== Sys2Proof/Machine/Super.lean ====
section
/-! DEFINITION. The range and page instructions of the supervisor (R379 to R381). Every replica of the range
table holds the same entries, so there is one (log 10). -/

namespace Sys2Proof.Machine

/-- A supervisor instruction goes on in supervisor mode only (R69). -/
def State.supervised (s : State) (i : Instr) (go : State) : Out := if s.k.sup then .next go else .next (s.trapIllegal i)

/-- A long form of the supervisor retires. -/
def State.done8 (s : State) : State := s.setTh (s.th.advance 8)

/-- The range entry at an index: its two words. -/
def State.range (s : State) (i : Nat) : Word × Word := SMap.get (0, 0) s.ranges i

/-- `rngw`: the RO bits stay zero (R380). -/
def execRngw (a b c : SReg) (s : State) : Out :=
  let i := (s.th.reg a).toNat
  s.supervised (.rngw a b c)
    (if 4095 < i then s.trap .farAddr (s.th.reg a)
     else ({ s with ranges := SMap.set i (s.th.reg b &&& rngLowMask, s.th.reg c &&& rngHighMask) s.ranges }).done8)

/-- `rngr` (R380). -/
def execRngr (d a : SReg) (half : Bool) (s : State) : Out :=
  let i := (s.th.reg a).toNat
  s.supervised (.rngr d a half)
    (if 4095 < i then s.trap .farAddr (s.th.reg a)
     else s.setTh ((s.th.advance 8).wr d (if half then (s.range i).2 else (s.range i).1)))

/-- The V bit of a range entry cleared. -/
def State.clearRange (s : State) (i : Nat) : State :=
  match SMap.find s.ranges i with
  | some e => { s with ranges := SMap.set i (e.1 &&& ~~~ 1#64, e.2) s.ranges }
  | none => s

/-- Whether a request that matched a range entry is still to be performed or answered: on its way to the home, or
parked. -/
def State.entryBusy (s : State) (i : Nat) : Bool :=
  (s.park.any fun k => decide (k.entry = i)) || s.net.any fun f => decide (f.ent.map (·.1) = some i)

/-- `rngclr`: retires when no request that matched the entry is left (R105, R380). -/
def execRngclr (a : SReg) (s : State) : Out :=
  let i := (s.th.reg a).toNat
  s.supervised (.rngclr a)
    (if 4095 < i then s.trap .farAddr (s.th.reg a)
     else
       let s := s.clearRange i
       if s.entryBusy i then s.stall else s.done8)

/-- The page entry of the VA in s[a], as the system job looks it up: the place, or the trap (R381). -/
def State.pageOf (s : State) (va : Word) : Except (Cause × Nat) Nat :=
  if 2 ^ 48 ≤ va.toNat then .error (.farAddr, 0)
  else match s.rangeOf 0 (s.partOf s.clx) va.toNat with
    | none => .error (.farError, 1)
    | some (_, l, h) => if rngP l then .ok (pagePlace (pageEntryAddr l h va.toNat)) else .error (.farError, 1)

/-- Whether a page entry may be written: no reserved bit, and a VALID frame within its tier (R381). -/
def pageOk (e : Word) : Bool :=
  decide (e &&& peReserved = 0) &&
    (decide (peState e ≠ 0) ||
      let pa := peFrame e * 65536
      if peTier e = 0 then decide (pa / 2 ^ 36 < 24) && decide (pa % 2 ^ 36 < 0xC00000000) else decide (pa < 2 ^ 43))

/-- Parked requests of a page are released (R102). -/
def State.releasePage (s : State) (pl : Nat) : State :=
  { s with park := s.park.map fun k => if k.page = pl then { k with released := true } else k }

/-- Whether a request of a page that was translated is still to be performed (R104). -/
def State.pageBusy (s : State) (pl : Nat) : Bool := s.net.any fun f => decide (f.page = some pl) && f.place.isSome

/-- `pgw`: one that withdraws the page retires when every request of it translated before has been performed (R104, R105,
R381). -/
def execPgw (a b : SReg) (s : State) : Out :=
  let va := s.th.reg a
  let e := s.th.reg b
  s.supervised (.pgw a b)
    (match s.pageOf va with
     | .error x => s.trap x.1 va x.2
     | .ok pl =>
       if pageOk e then
         let s := s.setPage pl e
         let s := if peState e = 0 ∨ peState e = 3 then s.releasePage pl else s
         if peState e ≠ 0 ∧ s.pageBusy pl = true then s.stall else s.done8
       else s.trap .farError va 5)

/-- `pgr` (R381). -/
def execPgr (d a : SReg) (s : State) : Out :=
  let va := s.th.reg a
  s.supervised (.pgr d a)
    (match s.pageOf va with
     | .error x => s.trap x.1 va x.2
     | .ok pl => s.setTh ((s.th.advance 8).wr d (s.word pl)))

/-- `pginv`: the controller's copy is dropped (R97, R381). -/
def execPginv (a : SReg) (s : State) : Out :=
  let va := s.th.reg a
  s.supervised (.pginv a)
    (match s.pageOf va with
     | .error x => s.trap x.1 va x.2
     | .ok pl => ({ s with pcache := SMap.del pl s.pcache }).done8)

end Sys2Proof.Machine
end

