-- ==== Sys2Proof/Machine/Load.lean ====
section
/-! DEFINITION. Job images and their records (R80 to R83, R311), the image table (R388), the loader (R194, R280, R309,
R389, R390), the launch gate, the initial messages and retirement (R309, R310, R327 to R329, R397). -/

namespace Sys2Proof.Machine

/-! ### Module events and vectors (R382, R383) -/

/-- An MSI-X vector is raised. -/
def State.vector (s : State) (v : Nat) : State := { s with care := { s.care with vectors := s.care.vectors ++ [v] } }
/-- A bit of MEVENT is set: vector 1 (R383). -/
def State.mevent (s : State) (b : Nat) : State :=
  State.vector { s with care := { s.care with mevent := s.care.mevent ||| BitVec.ofNat 6 (2 ^ b) } } 1

/-! ### Image bytes (R80 to R83) -/

/-- A little-endian field of n bytes. -/
def bytesAt (bs : List Byte) (o n : Nat) : Nat := leVal ((bs.drop o).take n)

/-- Whether bytes are all zero. -/
def allZero (bs : List Byte) : Bool := bs.all fun b => decide (b = 0)

/-- Whether bytes are zero from the first zero byte on. -/
def zeroPadded (bs : List Byte) : Bool := allZero (bs.dropWhile fun b => decide (b ≠ 0))

/-- Whether bytes are a name: ASCII, zero-padded (Tables 2.18, 2.20). -/
def isName (bs : List Byte) : Bool := zeroPadded bs && bs.all fun b => decide (b.toNat < 128)

/-- A section of an image (R81). -/
structure Section where
  ty : Nat
  role : Nat
  fmt : Nat
  org : Nat
  body : List Byte

/-- The sections that follow the header: so many, and nothing after them. -/
def sectionsOf : Nat → List Byte → Option (List Section)
  | 0, bs => if bs.isEmpty then some [] else none
  | n + 1, bs =>
    let len := bytesAt bs 8 4
    let pad := (len + 7) / 8 * 8
    if bs.length < 16 + pad ∨ allZero ((bs.drop (16 + len)).take (pad - len)) = false then none
    else (sectionsOf n (bs.drop (16 + pad))).map fun r =>
      { ty := bytesAt bs 0 2, role := bytesAt bs 2 2, fmt := bytesAt bs 4 1, org := bytesAt bs 12 4,
        body := (bs.drop 16).take len } :: r

/-- A role record: its clusters, its cores and its XB in units of 64 bytes. -/
structure Role where
  clusters : List Nat
  cores : List Nat
  xb : Nat

/-- A far region record with its initial bytes. -/
structure Region where
  va : Nat
  units : Nat
  tier : Nat
  perm : Nat
  paged : Bool
  body : List Byte

/-- A trigger record. -/
structure Trig where
  lab : Label
  role : Nat
  entry : Word

/-- What an image holds. -/
structure Image where
  roles : List Role := []
  /-- Text and TCM data: role, origin, bytes. -/
  tcm : List (Nat × Nat × List Byte) := []
  /-- Scratchpad sections in image order: role, format, origin, bytes. -/
  spad : List (Nat × Tag × Nat × List Byte) := []
  regions : List Region := []
  trigs : List Trig := []
  groups : List (Nat × List CoreIx) := []
  inits : List InitMsg := []
  targets : List HostTarget := []
  dirs : SMap Nat := []

/-- The 1 bits of a bitmap. -/
def bitsOf (bs : List Byte) : List Nat := (List.range (8 * bs.length)).filter fun i => ((bs.getD (i / 8) 0)).getLsbD (i % 8)

def roleOf (r : List Byte) : Option Role :=
  let xb := bytesAt r 48 4
  if xb = (bytesAt r 52 4 + 63) / 64 * 64 ∧ xb ≤ 0x18000 ∧ allZero (r.drop 56) = true then
    some { clusters := bitsOf (r.take 32), cores := bitsOf ((r.drop 32).take 16), xb := xb / 64 }
  else none

/-- A far region record (R82). DESIGN CHOICE (log 67): a paged region of tier 2 breaks the image. -/
def regionOf (b : List Byte) : Option Region :=
  let va := bytesAt b 0 8
  let units := bytesAt b 8 4
  let tier := bytesAt b 12 1
  let paged := decide (bytesAt b 14 1 = 1)
  if 16 ≤ b.length ∧ va % 2 ^ 21 = 0 ∧ va < 2 ^ 48 ∧ 1 ≤ units ∧ va / 2 ^ 21 + units ≤ 2 ^ 27 ∧ tier ≤ 2 ∧ bytesAt b 13 1 < 8
      ∧ bytesAt b 14 1 < 2 ∧ bytesAt b 15 1 = 0 ∧ (paged = true → tier ≤ 1) ∧ b.length - 16 ≤ units * 2 ^ 21 then
    some { va := va, units := units, tier := tier, perm := bytesAt b 13 1, paged := paged, body := b.drop 16 }
  else none

/-- A trigger record, under R82 and R311. -/
def trigOf (roles : Nat) (r : List Byte) : Option Trig :=
  let e : Word := BitVec.ofNat 64 (bytesAt r 8 8)
  let th := trgThold e
  if bytesAt r 0 1 < 128 ∧ bytesAt r 1 1 = 0 ∧ bytesAt r 2 2 < roles ∧ bytesAt r 6 2 = 0 ∧ bytesAt r 4 2 = th
      ∧ e.getLsbD 39 = false ∧ fld e.toNat 56 8 = 0 ∧ (trgCount e = true ↔ th ≠ 0) then
    some { lab := BitVec.ofNat 7 (bytesAt r 0 1), role := bytesAt r 2 2, entry := e }
  else none

/-- A module-local target of two bytes (R83). -/
def targetOf (x : Nat) : Option CoreIx := if x < 2 ^ 15 then some (BitVec.ofNat 15 x) else none

def hostTargetOf (r : List Byte) : Option HostTarget :=
  match targetOf (bytesAt r 0 2), Cls.ofCode (bytesAt r 3 1) with
  | some c, some k => if bytesAt r 2 1 < 128 ∧ allZero (r.drop 4) = true then some { core := c, lab := BitVec.ofNat 7 (bytesAt r 2 1), cls := k } else none
  | _, _ => none

def endpointOf (r : List Byte) : Option (Nat × Nat) :=
  if 1 ≤ bytesAt r 1 1 ∧ bytesAt r 1 1 ≤ 3 ∧ allZero ((r.drop 2).take 6) = true ∧ isName ((r.drop 8).take 32) = true then
    some (bytesAt r 0 1, bytesAt r 1 1) else none

/-- Group records one after another, each padded to a multiple of 8 bytes; the fuel bounds their number. The value of
the pad bytes is free (log 67). -/
def groupsOf : Nat → List Byte → Option (List (Nat × List CoreIx))
  | 0, bs => if bs.isEmpty then some [] else none
  | n + 1, bs =>
    if bs.isEmpty then some []
    else
      let k := bytesAt bs 2 2
      let size := (8 + 2 * k + 7) / 8 * 8
      if bs.length < size ∨ bytesAt bs 1 1 ≠ 0 ∨ bytesAt bs 4 4 ≠ 0 then none
      else match (List.range k).mapM (fun i => targetOf (bytesAt bs (8 + 2 * i) 2)), groupsOf n (bs.drop size) with
        | some m, some r => some ((bytesAt bs 0 1, m) :: r)
        | _, _ => none

/-- Initial-message records one after another (R83). DESIGN CHOICE (log 67): a label above 127, a tag above 15, a
target with bit 15 set or a nonzero reserved byte breaks the image. -/
def initsOf : Nat → List Byte → Option (List InitMsg)
  | 0, bs => if bs.isEmpty then some [] else none
  | n + 1, bs =>
    if bs.isEmpty then some []
    else
      let w := bytesAt bs 7 1
      match targetOf (bytesAt bs 0 2), Cls.ofCode (bytesAt bs 5 1), initsOf n (bs.drop (8 + 8 * w)) with
      | some c, some k, some r =>
        if bs.length < 8 + 8 * w ∨ bytesAt bs 2 2 ≠ 0 ∨ 128 ≤ bytesAt bs 4 1 ∨ 16 ≤ bytesAt bs 6 1 ∨ 32 < w
            ∨ (Cls.isTrump k = true ∧ 4 < w) then none
        else some ({ core := c, lab := BitVec.ofNat 7 (bytesAt bs 4 1), cls := k, tag := BitVec.ofNat 4 (bytesAt bs 6 1),
                     words := (List.range w).map fun i => BitVec.ofNat 64 (bytesAt bs (8 + 8 * i) 8) } :: r)
      | _, _, _ => none

/-- Records of a fixed size. -/
def recordsOf {α : Type} (size : Nat) (f : List Byte → Option α) (bs : List Byte) : Option (List α) :=
  if bs.length % size = 0 then (Sys2Proof.Machine.groups size (bs.length / size) bs).mapM f else none

/-- An entry of the tensor-map index (Table 2.19): the loader reads only its form. -/
def mapOf (r : List Byte) : Option Unit := if zeroPadded (r.drop 8) then some () else none

/-- One section added to what an image holds; nothing when it breaks R81 to R83 or R311. DESIGN CHOICE (log 67): of two
endpoint records with one id the last stands, and the initial messages of several sections follow in image order. -/
def addSection (roles : Nat) (m : Image) (x : Section) : Option Image :=
  if (x.ty ≠ 4 ∧ x.fmt ≠ 0) ∨ (x.role ≠ 0xFFFF ∧ roles ≤ x.role) ∨ ((x.ty < 2 ∨ 4 < x.ty) ∧ x.org ≠ 0) then none
  else match x.ty with
    | 1 => (recordsOf 64 roleOf x.body).map fun r => { m with roles := m.roles ++ r }
    | 2 | 3 => if x.role < roles ∧ x.org + x.body.length ≤ 0x18000 then some { m with tcm := m.tcm ++ [(x.role, x.org, x.body)] } else none
    | 4 =>
      match Tag.ofCode x.fmt with
      | some f => if x.role < roles ∧ x.org + x.body.length ≤ 2 ^ 24 then some { m with spad := m.spad ++ [(x.role, f, x.org, x.body)] } else none
      | none => none
    | 5 => (regionOf x.body).map fun r => { m with regions := m.regions ++ [r] }
    | 6 => (recordsOf 16 (trigOf roles) x.body).map fun r => { m with trigs := m.trigs ++ r }
    | 7 => (groupsOf x.body.length x.body).map fun r => { m with groups := m.groups ++ r }
    | 8 => (initsOf x.body.length x.body).map fun r => { m with inits := m.inits ++ r }
    | 9 => (recordsOf 8 hostTargetOf x.body).map fun r => { m with targets := m.targets ++ r }
    | 10 => (recordsOf 40 endpointOf x.body).map fun r => { m with dirs := r.foldl (fun d e => SMap.set e.1 e.2 d) m.dirs }
    | 11 => (recordsOf 32 mapOf x.body).map fun _ => m
    | 12 => some m
    | _ => none

/-- The cores of a role. -/
def Role.ixs (r : Role) : List CoreIx := r.clusters.flatMap fun cl => r.cores.map fun c => coreIx (BitVec.ofNat 8 cl) (BitVec.ofNat 7 c)

/-- The cores of an image, each with its role. -/
def Image.cores (m : Image) : List (CoreIx × Nat) :=
  ((List.range m.roles.length).zip m.roles).flatMap fun r => r.2.ixs.map fun c => (c, r.1)

/-- The rules over a whole image: as many roles as the header says, no core in two of them (R308), at most four groups
for a core (R325). -/
def Image.sound (m : Image) (roles : Nat) : Bool :=
  decide (m.roles.length = roles) && decide ((m.cores.map (·.1)).Nodup)
    && m.groups.all fun g => g.2.all fun c => decide ((m.groups.filter fun h => h.2.contains c).length ≤ 4)

/-- The image in the bytes of an image (R80 to R83, R311); nothing when it breaks them. -/
def parseImage (bs : List Byte) : Option Image :=
  let roles := bytesAt bs 8 2
  if bs.length < 64 ∨ bytesAt bs 0 4 ≠ 0x4A424947 ∨ bytesAt bs 4 2 ≠ 1 ∨ bytesAt bs 12 4 ≠ bs.length
      ∨ isName ((bs.drop 16).take 32) = false then none
  else match sectionsOf (bytesAt bs 6 2) (bs.drop 64) with
    | none => none
    | some xs => match xs.foldlM (addSection roles) {} with
      | some m => if m.sound roles then some m else none
      | none => none

/-! ### The image table (Table 15.4) -/

def ieHandle (e : BitVec 512) : BitVec 32 := e.extractLsb' 0 32
def ieBytes (e : BitVec 512) : Nat := fld e.toNat 32 32
def ieAddr (e : BitVec 512) : Nat := fld e.toNat 64 64
def ieJob (e : BitVec 512) : BitVec 8 := e.extractLsb' 128 8
def ieCoord (e : BitVec 512) : BitVec 12 := e.extractLsb' 136 12
def ieNmod (e : BitVec 512) : Nat := fld e.toNat 148 12
def ieBase (e : BitVec 512) : Nat := if fld e.toNat 172 13 = 0 then 0 else fld e.toNat 160 12
def ieSize (e : BitVec 512) : Nat := if fld e.toNat 172 13 = 0 then 4096 else fld e.toNat 172 13
def ieArrs (e : BitVec 512) : Nat := fld e.toNat 185 4
def ieKitty (e : BitVec 512) : Nat := fld e.toNat 189 4

/-- The used entry of a handle: the lowest-numbered (R388). -/
def State.lookup (s : State) (h : BitVec 32) : Option (Nat × BitVec 512) :=
  if h = 0 then none else s.images.find? fun e => decide (ieHandle e.2 = h) && decide (ieBytes e.2 ≠ 0)

/-- Whether a resident job uses the copy of a handle. -/
def State.copyUsed (s : State) (h : Nat) : Bool := s.jobs.any fun j => decide (j.2.handle.toNat = h)

/-- The copies still there at a load of a handle: where the handle's own was evicted, so was every one that no job uses and
that was used less recently (R389, log 26). -/
def State.evictFor (s : State) (h : Nat) : State :=
  match SMap.find s.store h with
  | some c =>
    if s.copyUsed h || Config.usesImageCopy s.tick then s
    else { s with store := s.store.filter fun e => s.copyUsed e.1 || decide (c.used < e.2.used) }
  | none => s

/-- Copies that were withdrawn go once no job uses them (R389). -/
def State.dropWithdrawn (s : State) : State :=
  { s with store := s.store.filter fun e => !e.2.withdrawn || s.copyUsed e.1 }

/-- The bytes of the image of an entry: those in host memory, or the copy that the loader keeps (R389). -/
def State.fetchImage (s : State) (e : BitVec 512) : List Byte :=
  match (SMap.find s.store (ieHandle e).toNat).filter fun c => !c.withdrawn with
  | some c => c.bytes
  | none => (List.range (ieBytes e)).map fun i => s.memByte (hostPlace (ieAddr e + i))

/-- The bits of an endpoint slot that the host writes (Table 3.12). -/
def slotMask : BitVec 256 := BitVec.ofNat 256 (2 ^ 128 - 1)

/-- The endpoint slots of an image-table entry with the directions of the image in DIR (Table 3.12). -/
def setDirs (ent : Nat) (dirs : SMap Nat) (slots : SMap (BitVec 256)) : SMap (BitVec 256) :=
  dirs.foldl (fun m d => SMap.set (256 * ent + d.1) (SMap.get 0 m (256 * ent + d.1) ||| BitVec.ofNat 256 (d.2 * 2 ^ 128)) m)
    (slots.map fun e => if e.1 / 256 = ent then (e.1, e.2 &&& slotMask) else e)

/-! ### Ingress queues (Table 15.5, R391 to R394) -/

def State.queue (s : State) (q : BitVec 14) : IQueue := SMap.get {} s.queues q.toNat
def State.modQueue (s : State) (q : BitVec 14) (f : IQueue → IQueue) : State :=
  { s with queues := SMap.set q.toNat (f (s.queue q)) s.queues }

/-- Accepted tokens of a queue discarded for a cause; with cause 4, vector 2 (R394). -/
def State.discard (s : State) (q : BitVec 14) (n cause : Nat) : State :=
  let s := s.modQueue q fun x => { x with out := x.out + BitVec.ofNat 16 n, drop := x.drop + BitVec.ofNat 8 n,
                                          cause := if n = 0 then x.cause else BitVec.ofNat 4 cause, tokens := x.tokens.drop n }
  if cause = 4 ∧ n ≠ 0 then s.vector 2 else s

/-- A queue becomes ERROR: all its tokens are discarded (R394). -/
def State.queueError (s : State) (q : BitVec 14) : State :=
  let s := s.modQueue q fun x => { x with state := .error, cause := 4, load := none, tail := false, job := 0 }
  s.discard q (s.queue q).tokens.length 4

/-- The handle of a token. -/
def tokenHandle (t : List Byte) : BitVec 32 := BitVec.ofNat 32 (bytesAt t 0 4)

/-- An UNBOUND queue with a token: the oldest names the image (R394). -/
def State.nameImage (s : State) (q : BitVec 14) : State :=
  match (s.queue q).state, (s.queue q).tokens with
  | .unbound, t :: _ =>
    match s.lookup (tokenHandle t) with
    | some e => s.modQueue q fun x => { x with state := .loading, load := some e, tail := false }
    | none => s.queueError q
  | _, _ => s

/-- A queue becomes UNBOUND. -/
def State.unbind (s : State) (q : BitVec 14) : State :=
  (s.modQueue q fun x => { x with state := .unbound, job := 0, load := none, tail := false }).nameImage q

/-! ### Control packets (R363, R398) -/

/-- A control packet of the system job. -/
def State.ctl (s : State) (m : BitVec 12) (op : Nat) (job : BitVec 8) (ws : List Word) : State :=
  let words := wordOf [(Config.replyLabel.toNat, 7), (0, 1), (job.toNat, 8)] :: ws
  let own := decide (m = s.cfg.modid)
  s.launch {
    p := { hdr := { dmod := m, cls := .high, lab := BitVec.ofNat 7 op, plen := BitVec.ofNat 5 (plenOf words), kind := 11,
                    src := s.coreName 0 }, words := padWords words }
    loc := if own then .dest else .router 0 0, since := s.cycle.toNat, supPath := own }

/-! ### Planning a load (R390) -/

/-- What a load will write. -/
structure Plan where
  img : Image
  ent : Nat
  e : BitVec 512
  job : BitVec 8
  /-- Clusters of the job, and the arrays it takes in each. -/
  arrays : List (BitVec 8 × List Nat)
  /-- Range entries: index, low and high word. -/
  ranges : List (Nat × Word × Word)
  /-- Memory of the regions: first place, bytes; for the initial bytes: place and bytes. -/
  mem : List (Nat × Nat)
  /-- The kitties of the cores in order: place, bytes (R316). -/
  kitties : List (Nat × Nat) := []
  /-- Page tables: place and first frame, pages, tier. -/
  tables : List (Nat × Nat × Nat × Nat)
  bytes : List (Nat × List Byte)

/-- The outcome of planning: the load fails, waits, or goes on. -/
inductive Planned where
  | fail
  | wait
  | go (p : Plan)

/-- Whether a job is resident. -/
def State.resident (s : State) (j : BitVec 8) : Bool := (SMap.find s.jobs j.toNat).isSome

/-- A user job other than `job` with a team in a cluster (log 30: the system job's core does not count). -/
def State.otherTeam (s : State) (cl : BitVec 8) (job : BitVec 8) : Bool :=
  (List.range 128).any fun n =>
    let k := s.core (coreIx cl (BitVec.ofNat 7 n))
    k.member && decide (k.job ≠ 0) && decide (k.job ≠ job)

/-- The arrays a job takes in a cluster: all when it is alone there, else those of ARRS (R280, R390). -/
def State.wanted (s : State) (cl : BitVec 8) (job : BitVec 8) (arrs : Nat) : List Nat :=
  if s.otherTeam cl job then (List.range 4).filter fun i => arrs.testBit i else [0, 1, 2, 3]

/-- Whether a range of places is free of every resident job's memory. -/
def State.freeMem (s : State) (taken : List (Nat × Nat)) (p n : Nat) : Bool :=
  (taken ++ s.jobs.flatMap fun j => j.2.mem).all fun r => decide (r.1 + r.2 ≤ p) || decide (p + n ≤ r.1)

/-- The place of n bytes of physical memory at an address of a target, wholly valid and owned by a partition (R129). -/
def State.ownedRun (s : State) (part : Nat) (job : BitVec 8) (tgt pa n : Nat) : Option Nat :=
  match s.physical part job tgt pa, s.physical part job tgt (pa + n - 1) with
  | .ok p, .ok q => if q + 1 = p + n then some p else none
  | _, _ => none

/-- One range entry for a region and a partition, with the loader's choices of its index, its memory and its page
table; nothing when the choices are not valid (R309). -/
def State.planRange (s : State) (job : BitVec 8) (r : Region) (part k : Nat) (p : Plan) : Option Plan :=
  let ch (i : Nat) : Nat := Config.loaderChoice s.tick (4 * k + i)
  let idx := ch 0 % 4096
  let size := r.units * 2 ^ 21
  let low (tgt : Nat) (paged : Bool) : Word := wordOf [(1, 1), (tgt, 2), (paged.toNat, 1), (r.perm, 3), (0, 1), (job.toNat, 8), (part, 4), (0, 1), (r.va / 2 ^ 21, 27)]
  if rngV (s.range idx).1 || p.ranges.any fun x => decide (x.1 = idx) then none
  else if r.paged then
    let table := ch 1 * 4096
    let frames := ch 2 * 65536
    match s.ownedRun part job 0 table (256 * r.units), s.ownedRun part job r.tier frames size with
    | some t, some f =>
      if s.freeMem p.mem t (256 * r.units) && s.freeMem ((t, 256 * r.units) :: p.mem) f size then
        some { p with ranges := p.ranges ++ [(idx, low 0 true, wordOf [(r.units - 1, 27), (ch 1, 29)])]
                      mem := (t, 256 * r.units) :: (f, size) :: p.mem
                      tables := p.tables ++ [(t, frames, 32 * r.units, r.tier)]
                      bytes := p.bytes ++ [(f, r.body)] }
      else none
    | _, _ => none
  else
    match s.ownedRun part job r.tier (ch 1 * 2 ^ 21) size with
    | some f =>
      if s.freeMem p.mem f size then
        some { p with ranges := p.ranges ++ [(idx, low r.tier false, wordOf [(r.units - 1, 27), (ch 1, 29)])]
                      mem := (f, size) :: p.mem, bytes := p.bytes ++ [(f, r.body)] }
      else none
    | none => none

/-- The partitions whose bands hold a team of an image. -/
def State.partsOf (s : State) (m : Image) : List Nat := (List.range 16).filter fun p => m.cores.any fun c => decide (s.partOf (clusterOf c.1) = p)

/-- Every range entry of an image. -/
def State.planRanges (s : State) (job : BitVec 8) (p : Plan) : Option Plan :=
  let rs := p.img.regions.flatMap fun r => (s.partsOf p.img).map fun q => (r, q)
  ((List.range rs.length).zip rs).foldlM (fun p r => s.planRange job r.2.1 r.2.2 r.1 p) p

/-- Bytes of a kitty (Table 15.4). -/
def kittySize (k : Nat) : Nat := if k = 0 then 2 ^ 20 else 2 ^ 16 * 2 ^ (k - 1)

/-- Whether a partition owns an HBM stack (R129). -/
def State.ownsStack (s : State) (part : Nat) : Bool :=
  (List.range 24).any fun st => decide (pctlLo (s.pctl part) ≤ stackColumn st) && decide (stackColumn st ≤ pctlHi (s.pctl part))

/-- A kitty for the i-th core: in HBM of its partition, or in its LPDDR where it owns no stack, at a place that the loader
chooses; of size zero in early service (R316, R386). -/
def State.planKitty (s : State) (i : Nat) (c : CoreIx) (p : Plan) : Option Plan :=
  if s.care.svc ≠ .full then some { p with kitties := p.kitties ++ [(0, 0)] }
  else
    let part := s.partOf (clusterOf c)
    let n := kittySize (ieKitty p.e)
    match s.ownedRun part p.job (if s.ownsStack part then 0 else 1) (64 * Config.loaderChoice s.tick (2 ^ 20 + i)) n with
    | some x => if s.freeMem (p.kitties ++ p.mem) x n then some { p with kitties := p.kitties ++ [(x, n)] } else none
    | none => none

/-- The kitties of every core of an image. -/
def State.planKitties (s : State) (p : Plan) : Option Plan :=
  ((List.range p.img.cores.length).zip p.img.cores).foldlM (fun p c => s.planKitty c.1 c.2.1 p) p

/-- Whether a scratchpad section lies in the window of an entry (R390). -/
def inWindow (e : BitVec 512) (x : Nat × Tag × Nat × List Byte) : Bool :=
  decide (ieBase e * 4096 ≤ x.2.2.1) && decide (x.2.2.1 + x.2.2.2.length ≤ (ieBase e + ieSize e) * 4096)

/-- The job number of a load: PJOB, or the loader's choice of a number that no job has (R308, R388). -/
def State.jobNumber (s : State) (e : BitVec 512) : Option (BitVec 8) :=
  if ieJob e ≠ 0 then (if s.resident (ieJob e) then none else some (ieJob e))
  else
    let j := BitVec.ofNat 8 (Config.loaderChoice s.tick 0)
    if j = 0 ∨ s.resident j = true then none else some j

/-- Whether a load can go on in early service: no far region of a DRAM tier, NMOD not above 1 (R386). -/
def earlyOk (e : BitVec 512) (m : Image) : Bool := decide (ieNmod e ≤ 1) && m.regions.all fun r => decide (r.tier = 2)

/-- Whether an array is in use by a resident job other than `job` (R390); the system job is always resident. -/
def State.arrayTaken (s : State) (cl : BitVec 8) (i : Nat) (job : BitVec 8) : Bool :=
  let w := (s.cluster cl).aown
  aownSet w i && decide (aownJob w i ≠ job) && (decide (aownJob w i = 0) || s.resident (aownJob w i))

/-- The load of a queue, planned (R280, R390). -/
def State.plan (s : State) (ent : Nat) (e : BitVec 512) : Planned :=
  match parseImage (s.fetchImage e) with
  | none => .fail
  | some m =>
    let cls := (m.cores.map fun c => clusterOf c.1).eraseDups
    if !(m.spad.all (inWindow e)) || decide (10 ≤ ieKitty e) || (decide (ieNmod e > 0) && decide (ieJob e = 0))
        || !(decide (s.care.clok = 256) || cls.all fun c => decide (c = 0) || Config.passedBist c) then .fail
    else if s.care.svc ≠ .full ∧ !(decide (s.care.svc = .early) && earlyOk e m) then .wait
    else match s.jobNumber e with
      | none => .wait
      | some job =>
        let arrays := cls.map fun c => (c, s.wanted c job (ieArrs e))
        if m.cores.any (fun c => (s.core c.1).member && decide ((s.core c.1).job ≠ 0))
            || m.groups.any (fun g => match SMap.find s.groups g.1 with
                | some x => s.resident x.job
                | none => false)
            || arrays.any (fun a => a.2.any fun i => s.arrayTaken a.1 i job) then .wait
        else
          match (s.planRanges job { img := m, ent := ent, e := e, job := job, arrays := arrays, ranges := [], mem := [],
                                    tables := [], bytes := [] }).bind s.planKitties with
          | some p => .go p
          | none => .wait

/-! ### Carrying a load out (R194, R280, R309) -/

/-- The tiles of n bytes from a place on: ZERO, S 0, M 0, FMT 0, without poison. -/
def State.zeroTiles (s : State) (p n : Nat) : State :=
  let out (t : Nat) : Bool := decide (t < p / 4096) || decide ((p + n + 4095) / 4096 ≤ t)
  { s with dir := s.dir.filter fun e => out e.1, poison := s.poison.filter fun w => out (w / 512) }

/-- The bytes of a scratchpad section that lie in one tile (R194, steps 2 and 3). -/
def State.spadTile (s : State) (cl : BitVec 8) (f : Tag) (org : Nat) (bs : List Byte) (t : Nat) : State :=
  let lo := Nat.max org (4096 * t)
  let hi := Nat.min (org + bs.length) (4096 * t + 4096)
  let part := (bs.drop (lo - org)).take (hi - lo)
  if hi - lo = 4096 then s.wholeTile (spadPlace cl lo) part f else s.storeBytes (spadPlace cl lo) part

/-- One scratchpad section in a cluster: the tiles it touches first become ZERO with its tag. -/
def State.spadSection (s : State) (cl : BitVec 8) (before : List (Nat × Nat)) (f : Tag) (org : Nat) (bs : List Byte) : State :=
  let tiles := if bs.isEmpty then [] else (List.range ((org + bs.length - 1) / 4096 - org / 4096 + 1)).map (org / 4096 + ·)
  let fresh := tiles.filter fun t => before.all fun b => decide (b.1 + b.2 ≤ 4096 * t) || decide (4096 * t + 4096 ≤ b.1)
  let s := fresh.foldl (fun s t => s.setTile (spadPlace cl (4096 * t)) (mkEnt 1 false false f 0 0)) s
  tiles.foldl (fun s t => s.spadTile cl f org bs t) s

/-- The scratchpad sections of an image in a cluster, in image order. -/
def State.spadSections (s : State) (m : Image) (cl : BitVec 8) : List (Nat × Nat) → List (Nat × Tag × Nat × List Byte) → State
  | _, [] => s
  | before, (role, f, org, bs) :: r =>
    let here := match m.roles[role]? with
      | some x => x.clusters.contains cl.toNat
      | none => false
    if here && !bs.isEmpty then State.spadSections (s.spadSection cl before f org bs) m cl ((org, bs.length) :: before) r
    else State.spadSections s m cl before r

/-- A core prepared for a role; of two trigger records for one label and role the last stands (DESIGN CHOICE, log 67): everything the loader sets (R215, R309); it is held until the gate opens. -/
def Core.prepare (k : Core) (p : Plan) (role : Nat) (xb : Nat) (rank size : Nat) (kitty : Nat × Nat) : Core :=
  { reqs := k.reqs, quarantine := k.quarantine, lastTrump := k.lastTrump, lastIssue := k.lastIssue, lastSink := k.lastSink
    lastStart := k.lastStart, spread := k.spread,
    job := p.job, member := true, rank := BitVec.ofNat 7 rank, size := BitVec.ofNat 7 (size - 1), role := role, xb := BitVec.ofNat 11 xb,
    trig := (p.img.trigs.filter fun t => decide (t.role = role)).foldl (fun m t => SMap.set t.lab.toNat t.entry m) [],
    kitty := { base := kitty.1, size := kitty.2 }, held := true, winBase := ieBase p.e, winTiles := ieSize p.e }

/-- The cores of a plan prepared. -/
def State.prepareCores (s : State) (p : Plan) : State :=
  ((List.range p.img.cores.length).zip p.img.cores).foldl (fun s x =>
    let c := x.2.1
    let team := (List.range 128).filter fun n => p.img.cores.any fun y => decide (y.1 = coreIx (clusterOf c) (BitVec.ofNat 7 n))
    let rank := (team.filter fun n => decide (n < (coreOf c).toNat)).length
    let xb := ((p.img.roles[x.2.2]?).map (·.xb)).getD 0
    let s := s.modCore c fun k => k.prepare p x.2.2 xb rank team.length (p.kitties.getD x.1 (0, 0))
    p.img.tcm.foldl (fun s t => if t.1 = x.2.2 then s.putBytes (tcmPlace c t.2.1) t.2.2 else s) s) s

/-- An array prepared for a job (R280). -/
def State.prepareArray (s : State) (cl : BitVec 8) (i : Nat) (job : BitVec 8) : State :=
  let s := s.modCluster cl fun x => { x with aown := setBits (setBits x.aown (8 * i) 8 job.toNat) (32 + i) 1 1 }
  s.modMat cl (BitVec.ofNat 2 i) fun _ => {}

/-- Page entries: VALID, consecutive frames. -/
def State.writeTable (s : State) (t frame n tier : Nat) : State :=
  (List.range n).foldl (fun s i => s.put64 (t + 8 * i) (wordOf [(0, 2), (tier, 1), (0, 13), (frame / 65536 + i, 28)])) s

/-- The far regions: HBM cleared, page tables, range entries, initial bytes (R208, R309). -/
def State.writeRegions (s : State) (p : Plan) : State :=
  let s := p.mem.foldl (fun s r => if placeKind r.1 = 4 then s.zeroTiles r.1 r.2 else s) s
  let s := p.tables.foldl (fun s t => s.writeTable t.1 t.2.1 t.2.2.1 t.2.2.2) s
  let s := p.ranges.foldl (fun s r => { s with ranges := SMap.set r.1 r.2 s.ranges }) s
  p.bytes.foldl (fun s b => s.storeBytes b.1 b.2) s

/-- The load of a queue carried out; of two group records with one id the last stands (DESIGN CHOICE, log 67): the job is prepared and waits at its gate; a job of several modules tells its
coordinator (R309, R398). -/
def State.carryOut (s : State) (q : BitVec 14) (p : Plan) : State :=
  let cls := p.arrays.map (·.1)
  let s := { s with store := SMap.set (ieHandle p.e).toNat { bytes := s.fetchImage p.e, used := s.tick } s.store
                    slots := setDirs p.ent p.img.dirs s.slots }
  let s := s.writeRegions p
  let s := cls.foldl (fun s cl =>
    State.spadSections (s.zeroTiles (spadPlace cl (4096 * ieBase p.e)) (4096 * ieSize p.e)) p.img cl [] p.img.spad) s
  let s := s.prepareCores p
  let s := p.arrays.foldl (fun s a => a.2.foldl (fun s i => s.prepareArray a.1 i p.job) s) s
  let s := p.img.groups.foldl (fun s g => { s with groups := SMap.set g.1 { job := p.job, members := g.2 } s.groups }) s
  let j : Job := { handle := ieHandle p.e, entry := p.ent, queue := some q, cores := p.img.cores.map (·.1), inits := p.img.inits,
                   targets := p.img.targets, dirs := p.img.dirs, coord := ieCoord p.e, nmod := ieNmod p.e
                   mem := p.kitties.filter (fun k => decide (k.2 ≠ 0)) ++ p.mem }
  let s := { s with jobs := SMap.set p.job.toNat j s.jobs }
  let s := s.modQueue q fun x => { x with load := none }
  if ieNmod p.e = 0 then s else s.ctl (ieCoord p.e) 0 p.job []

/-- A load that failed (R390, R397, R398). -/
def State.loadFailed (s : State) (q : BitVec 14) (e : BitVec 512) : State :=
  let s := s.mevent 3
  let s := if ieNmod e = 0 ∨ ieJob e = 0 then s
    else State.ctl { s with launches := SMap.set (ieJob e).toNat { SMap.get {} s.launches (ieJob e).toNat with failed := true, nmod := ieNmod e } s.launches }
      (ieCoord e) 2 (ieJob e) []
  if (s.queue q).tail then (s.mevent 4).unbind q else s.queueError q

/-- IMAGE_LOAD: the loader loads for a LOADING queue (R388 to R390). -/
def execImageLoad (q : BitVec 14) (s : State) : Out :=
  match (s.queue q).state, (s.queue q).load with
  | .loading, some e =>
    let s := s.evictFor (ieHandle e.2).toNat
    match s.plan e.1 e.2 with
    | .fail => .next (s.loadFailed q e.2)
    | .wait => .next s
    | .go p => .next (s.carryOut q p)
  | _, _ => .next s

/-! ### The launch gate and the initial messages (R309, R310, R396) -/

def State.modJob (s : State) (j : BitVec 8) (f : Job → Job) : State :=
  match SMap.find s.jobs j.toNat with
  | some x => { s with jobs := SMap.set j.toNat (f x) s.jobs }
  | none => s

/-- The endpoint slots of an image-table entry. -/
def State.entrySlots (s : State) (ent : Nat) : SMap (BitVec 256) :=
  (s.slots.filter fun e => decide (e.1 / 256 = ent)).map fun e => (e.1 % 256, e.2)

/-- LAUNCH_GATE_OPEN: the gate of a prepared job opens, of a job of several modules after OPEN: endpoint slots are taken,
the queue is BOUND, the dealer may start (R309, R394, R396). -/
def execLaunchGateOpen (job : BitVec 8) (s : State) : Out :=
  match SMap.find s.jobs job.toNat with
  | none => .next s
  | some j =>
    if j.gate || !(decide (j.nmod = 0) || j.opened) then .next s
    else
      let s := s.modJob job fun j => { j with gate := true, slots := s.entrySlots j.entry }
      let s := j.cores.foldl (fun s c => s.modCore c fun k => { k with held := false }) s
      .next (match j.queue with
        | some q => s.modQueue q fun x => { x with state := .bound, job := job, tail := false }
        | none => s)

/-- Whether a message for a core may be injected for it: the trump limits and the space (R118, R122). -/
def State.mayInject1 (s : State) (c : CoreIx) (cls : Cls) : Bool :=
  (!Cls.isTrump cls || s.trumpOk c false) && s.mayInject (clusterOf c) 0 (Cls.isTrump cls)

/-- Whether a message of another class that was injected for a core is still on its way: initial messages of a core arrive in
record order (R310). -/
def State.initAhead (s : State) (c : CoreIx) (cls : Cls) : Bool :=
  s.net.any fun f => decide (f.p.hdr.kind = 0 ∧ f.p.hdr.src = s.coreName c ∧ f.p.hdr.dmod = s.cfg.modid
    ∧ Header.dst f.p.hdr = c ∧ f.p.hdr.cls ≠ cls)

/-- A message that the loader or the ingress unit injects at its target core: one more sent (R310, R395). -/
def State.inject1 (s : State) (job : BitVec 8) (c : CoreIx) (cls : Cls) (lab : Label) (tag : BitVec 4) (ws : List Word) : State :=
  let s := s.countSent job
  let s := if Cls.isTrump cls then s.trumpSent c false else s
  s.launch {
    p := { hdr := { dcore := coreOf c, dcl := clusterOf c, dmod := s.cfg.modid, cls := cls, lab := lab,
                    plen := BitVec.ofNat 5 (plenOf ws), src := s.coreName c, job := job, tag := tag }, words := padWords ws }
    loc := .router (clusterOf c) 0, since := s.cycle.toNat }

/-- INITIAL_MESSAGE_RELEASE: the next one in record order, within the limits of injection (R310). -/
def execInitialMessageRelease (job : BitVec 8) (s : State) : Out :=
  match SMap.find s.jobs job.toNat with
  | none => .next s
  | some j =>
    match j.gate, j.inits with
    | true, m :: rest =>
      if !s.mayInject1 m.core m.cls || s.initAhead m.core m.cls then .next s
      else .next ((s.modJob job fun j => { j with inits := rest }).inject1 job m.core m.cls m.lab m.tag m.words)
    | _, _ => .next s

/-! ### Quiescence and retirement (R327 to R329, R397) -/

/-- A core without work: threads FREE, queues and kitty empty. -/
def Core.idle (k : Core) : Bool :=
  k.threads.toList.all (fun th => decide (th.run = .free)) && k.qBulk.isEmpty && k.qNormal.isEmpty && k.qHigh.isEmpty
    && k.qTrump.isEmpty && k.kitty.recs.isEmpty && k.owed.isEmpty

/-- The local conditions of quiescence: the job is DONE, its initial messages released, its cores idle, its engine and
array commands complete, no team of it saved (R327). -/
def State.quiet (s : State) (job : BitVec 8) (j : Job) : Bool :=
  let cls := (j.cores.map clusterOf).eraseDups
  j.gate && j.done && j.inits.isEmpty && j.cores.all (fun c => (s.core c).idle)
    && cls.all fun cl =>
        let x := s.cluster cl
        x.eng.all (fun k => decide (k.job ≠ job)) && x.saved.all (fun v => decide (v.job ≠ job)) && x.grace.all (fun g => decide (g.job ≠ job))
          && x.arrays.toList.all fun a => a.cmds.all fun k => !j.cores.contains k.core

/-- Whether no request that matched a range entry of a job is still to be performed or answered (R105, R328). -/
def State.unparked (s : State) (job : BitVec 8) : Bool :=
  s.ranges.all fun r => decide (rngJob r.2.1 ≠ job) || !s.entryBusy r.1

/-- A core that returns to the system job (R328, log 30), its trigger entries disabled. -/
def Core.returned (k : Core) : Core :=
  { reqs := k.reqs, quarantine := k.quarantine, lastTrump := k.lastTrump, lastIssue := k.lastIssue, lastSink := k.lastSink
    lastStart := k.lastStart, spread := k.spread,
    threads := k.threads, pcc := k.pcc, xb := k.xb, cf := k.cf, tvEn := k.tvEn, tvEntry := k.tvEntry,
    trig := k.trig.map fun e => (e.1, e.2 &&& ~~~ (1#64 <<< 38)), member := true, sup := true }

/-- What a job holds is given back (R328). -/
def State.giveBack (s : State) (job : BitVec 8) (j : Job) : State :=
  let s := j.cores.foldl (fun s c => s.modCore c Core.returned) s
  let s := (j.cores.map clusterOf).eraseDups.foldl (fun s cl =>
    (List.range 4).foldl (fun s i =>
      if aownSet (s.cluster cl).aown i && decide (aownJob (s.cluster cl).aown i = job) then
        s.modCluster cl fun x => { x with aown := setBits (setBits x.aown (8 * i) 8 0) (32 + i) 1 0 }
      else s) s) s
  State.dropWithdrawn { s with
    store := s.store.map fun e => if e.1 = j.handle.toNat then (e.1, { e.2 with used := s.tick }) else e
    groups := s.groups.filter fun g => decide (g.2.job ≠ job)
    ranges := s.ranges.map fun r => if rngJob r.2.1 = job then (r.1, r.2.1 &&& ~~~ 1#64, r.2.2) else r
    jobs := SMap.del job.toNat s.jobs
    launches := SMap.del job.toNat s.launches
    net := s.net.filter fun f => decide (f.p.hdr.kind ≠ 10 ∨ f.p.hdr.job ≠ job) }

/-- A job retires: its queue goes to its tail launch, or becomes UNBOUND (R328, R329, R397). -/
def State.retireJob (s : State) (job : BitVec 8) (j : Job) : State :=
  let s := s.giveBack job j
  match j.queue, j.tail with
  | some q, some h =>
    match s.lookup (h.extractLsb' 0 32) with
    | some e => s.modQueue q fun x => { x with state := .loading, load := some e, tail := true, job := 0 }
    | none => (s.mevent 4).unbind q
  | some q, none => s.unbind q
  | none, _ => s

/-- A module of a job of several reports to its coordinator: its tail-launch handle and a reading (R398). -/
def State.report398 (s : State) (job : BitVec 8) (j : Job) : State :=
  let fresh := decide (j.reported = 0) || decide (j.lastRep ≠ (j.sent, j.recv))
  let reading := if fresh then 0 else 1
  let s := if fresh then s.ctl j.coord 5 job [j.tail.getD 0] else s
  (s.ctl j.coord 3 job [BitVec.ofNat 64 j.sent, BitVec.ofNat 64 j.recv, BitVec.ofNat 64 reading]).modJob job fun j =>
    { j with reported := reading + 1, lastRep := (j.sent, j.recv) }

/-- JOB_RETIREMENT: a job whose quiescence test passes retires; a job of several modules reports, and retires after
RETIRE (R327, R328, R398). -/
def execJobRetirement (job : BitVec 8) (s : State) : Out :=
  match SMap.find s.jobs job.toNat with
  | none => .next s
  | some j =>
    if !s.quiet job j then .next s
    else if j.nmod = 0 then (if j.sent = j.recv ∧ s.unparked job = true then .next (s.retireJob job j) else .next s)
    else if j.retireOk then (if s.unparked job then .next (s.retireJob job j) else .next s)
    else if j.reported < 2 ∨ j.lastRep ≠ (j.sent, j.recv) then .next (s.report398 job j)
    else .next s

end Sys2Proof.Machine
end

