-- ==== Sys2Proof/Machine/Host.lean ====
section
/-! DEFINITION. What the host does: tokens and ingress queues (R391 to R395), BAR0 registers (R383, R384, R393), and the
mailbox (R402, R403); the configuration registers that BAR0 mirrors (Table 15.7). -/

namespace Sys2Proof.Machine

/-! ### Tokens (R391, R392, R395) -/

/-- Whether the module accepts tokens: early or full service (Table 15.3, log 31). -/
def State.serves (s : State) : Bool := decide (s.care.svc = .early) || decide (s.care.svc = .full)

/-- A discard that was never accepted: it counts in DROP only (R391). -/
def State.dropToken (s : State) (q : BitVec 14) (cause : Nat) : State :=
  s.modQueue q fun x => { x with drop := x.drop + 1, cause := BitVec.ofNat 4 cause }

/-- TOKEN_WRITE: a posted write of the host to BAR2 (R391, R394). -/
def execTokenWrite (off : BitVec 26) (bytes : List Byte) (s : State) : Out :=
  let q : BitVec 14 := off.extractLsb' 12 14
  if !s.serves then .next s
  else if bytes.length ≠ 64 ∨ off.toNat % 64 ≠ 0 then .next (s.dropToken q 5)
  else if 64 ≤ (s.queue q).tokens.length then .next (s.dropToken q 1)
  else
    let s := s.modQueue q fun x => { x with tokens := x.tokens ++ [bytes], acc := x.acc + 1 }
    match (s.queue q).state with
    | .unbound => .next (s.nameImage q)
    | .error => .next (s.discard q 1 4)
    | .loading | .bound => .next s

/-- What a token says: target, label, class, payload words (Table 15.6); nothing when it breaks R392. -/
def tokenOf (t : List Byte) : Option HostTarget × List Word :=
  let w := bytesAt t 7 1 / 4 % 8
  match targetOf (bytesAt t 4 2), Cls.ofCode (bytesAt t 7 1 % 4) with
  | some c, some k =>
    if 128 ≤ bytesAt t 6 1 ∨ 32 ≤ bytesAt t 7 1 ∨ bytesAt t 8 8 ≠ 0 ∨ 6 < w ∨ (Cls.isTrump k = true ∧ 4 < w) then (none, [])
    else (some { core := c, lab := BitVec.ofNat 7 (bytesAt t 6 1), cls := k }, (List.range w).map fun i => BitVec.ofNat 64 (bytesAt t (16 + 8 * i) 8))
  | _, _ => (none, [])

/-- TOKEN_RELEASE: a BOUND queue releases its oldest token, after the initial messages of the module (R394, R395). -/
def execTokenRelease (q : BitVec 14) (s : State) : Out :=
  let x := s.queue q
  match x.state, x.tokens, SMap.find s.jobs x.job.toNat with
  | .bound, t :: _, some j =>
    if !j.inits.isEmpty then .next s
    else match tokenOf t with
      | (none, _) => .next (s.discard q 1 2)
      | (some h, ws) =>
        if !j.targets.contains h then .next (s.discard q 1 3)
        else if !s.mayInject1 h.core h.cls then .next s
        else .next ((s.modQueue q fun x => { x with tokens := x.tokens.drop 1, out := x.out + 1 }).inject1 x.job h.core h.cls h.lab 0 ws)
  | _, _, _ => .next s

/-- A write to QCTL (R383, R394). -/
def State.writeQctl (s : State) (q : BitVec 14) (value : Word) : State :=
  if value.getLsbD 0 ∧ (s.queue q).state = .error then
    s.modQueue q fun x => { x with tokens := [], state := .unbound, load := none, job := 0 }
  else s

/-- QCTL_RESET (R394). -/
def execQctlReset (q : BitVec 14) (value : Word) (s : State) : Out := .next (s.writeQctl q value)

/-! ### Registers of BAR0 (R383, R388, R404) -/

/-- A write to MEVENT: ones clear. -/
def State.writeMevent (s : State) (value : Word) : State :=
  { s with care := { s.care with mevent := s.care.mevent &&& ~~~ value.extractLsb' 0 6 } }

/-- MEVENT_CLEAR (R383). -/
def execMeventClear (value : Word) (s : State) : Out := .next (s.writeMevent value)

/-- G of a power cap (R404). -/
def capG (watts : Nat) : Nat := Nat.max 64 (64 * (4096 * watts / (24000 * 64)))

/-- G of a cluster written: from the next window on (R399). -/
def State.writeGov (s : State) (cl : BitVec 8) (g : Nat) : State := (s.govRefresh cl).modCluster cl fun x => { x with gov := g }

/-- A write to POWERCAP: outside 4,000 to 24,000 it is ignored (R404). -/
def State.writePowercap (s : State) (value : Word) : State :=
  let w := value.toNat
  if 4000 ≤ w ∧ w ≤ 24000 then
    (List.range 256).foldl (fun s c => s.writeGov (BitVec.ofNat 8 c) (capG w)) { s with care := { s.care with powercap := w } }
  else s

/-- POWERCAP_WRITE (R404). -/
def execPowercapWrite (value : Word) (s : State) : Out := .next (s.writePowercap value)

/-- The bits of an image-table entry that the host writes (Table 15.4). -/
def imageMask : BitVec 512 := BitVec.ofNat 512 (2 ^ 193 - 1)

/-- A 64-bit word of a wide register replaced. -/
def setWord {w : Nat} (x : BitVec w) (i : Nat) (v : Word) : BitVec w :=
  (x &&& ~~~ (BitVec.ofNat w ((2 ^ 64 - 1) * 2 ^ (64 * i)))) ||| BitVec.ofNat w (v.toNat * 2 ^ (64 * i))

/-- A write to the image table; BYTES of 0 evicts the copy once no job uses it (R388, R389). -/
def State.writeImage (s : State) (n i : Nat) (v : Word) : State :=
  let e := setWord (SMap.get 0 s.images n) i v &&& imageMask
  let s := { s with images := SMap.set n e s.images }
  if ieBytes e = 0 then
    State.dropWithdrawn { s with store := s.store.map fun c => if c.1 = (ieHandle e).toNat then (c.1, { c.2 with withdrawn := true }) else c }
  else s

/-- Mailbox bytes written. -/
def State.writeBox (s : State) (o : Nat) (bs : List Byte) : State :=
  { s with care := { s.care with mbox := ((List.range bs.length).zip bs).foldl (fun m e => SMap.set (o + e.1) e.2 m) s.care.mbox } }
/-- Mailbox bytes. -/
def State.box (s : State) (o n : Nat) : Nat := leVal ((List.range n).map fun i => SMap.get 0 s.care.mbox (o + i))

/-- A mailbox command is done: its status at 0xFF0, vector 0 (R402). -/
def State.boxDone (s : State) (status : Nat) : State :=
  let s := s.writeBox 0xFF0 (leBytes 8 status)
  State.vector { s with care := { s.care with mboxCmd := none } } 0

/-- A write of 1 to 0xFF8 starts the command at offset 0: in BOOT it returns BUSY, a command that is not one of R402, or
not offered in the service state, BADCMD; while one runs the write is ignored (Table 15.3, R402). -/
def State.doorbell (s : State) : State :=
  let c := s.box 0 8
  if s.care.mboxCmd.isSome then s
  else match s.care.svc with
    | .reset => s
    | .boot => s.boxDone 1
    | .recovery => if c = 3 then { s with care := { s.care with mboxCmd := some c } } else s.boxDone 3
    | .early | .full | .failed =>
      if 1 ≤ c ∧ c ≤ 5 ∧ c ≠ 3 then { s with care := { s.care with mboxCmd := some c } } else s.boxDone 3

/-- A write of the host to a BAR0 register without its own row: mailbox, image table, endpoint slots; the others have their
behaviour here too; bytes not listed ignore writes (R383). A write is one of an aligned 8-byte word (log 31). -/
def State.writeBar0 (s : State) (o : Nat) (v : Word) : State :=
  if o % 8 ≠ 0 then s
  else if o = 8 then s.writeMevent v
  else if o = 0x100 then s.writePowercap v
  else if 0x1000 ≤ o ∧ o < 0x2000 then
    if o = 0x1FF8 then (if v = 1 then s.doorbell else s) else s.writeBox (o - 0x1000) (leBytes 8 v.toNat)
  else if 0x100000 ≤ o ∧ o < 0x104000 then s.writeImage ((o - 0x100000) / 64) ((o - 0x100000) / 8 % 8) v
  else if 0x200000 ≤ o ∧ o < 0x400000 then
    let n := (o - 0x200000) / 32
    let x := SMap.get 0 s.slots n
    { s with slots := SMap.set n ((setWord x (o / 8 % 4) v &&& slotMask) ||| (x &&& ~~~ slotMask)) s.slots }
  else if 0x600000 ≤ o ∧ o < 0x620000 then s.writeQctl (BitVec.ofNat 14 ((o - 0x600000) / 8)) v
  else s

/-- HOST_REGISTER_WRITE (R383). -/
def execHostRegisterWrite (off : BitVec 25) (value : Word) (s : State) : Out := .next (s.writeBar0 off.toNat value)

/-! ### What the host reads -/

def Svc.code : Svc → Nat
  | .reset => 0 | .boot => 1 | .early => 2 | .full => 3 | .recovery => 4 | .failed => 5

/-- MSTAT (Table 15.2). -/
def State.mstat (s : State) : Word :=
  wordOf [(Svc.code s.care.svc, 3), (s.care.hbmOk.toNat, 1), (s.care.lpOk.toNat, 1), (s.care.linkOk.toNat, 1), (0, 10), (s.care.clok.toNat, 9)]

def QState.code : QState → Nat
  | .unbound => 0 | .loading => 1 | .bound => 2 | .error => 3

/-- QSTAT of a queue (Table 15.5). -/
def State.qstat (s : State) (q : BitVec 14) : Word :=
  let x := s.queue q
  wordOf [(x.acc.toNat, 16), (x.out.toNat, 16), (x.drop.toNat, 8), (QState.code x.state, 2), (x.cause.toNat, 4), (0, 2), (x.job.toNat, 8)]

/-- The control word of a partition with the staged one in place. -/
def State.stagedPctl (s : State) (p : Nat) : Word := (SMap.find s.cfg.staged p).getD (s.pctl p)

/-- A configuration register of Table 15.7, of a staged one the value last written (R399); nothing for a number that is not listed. -/
def State.cfgRead (s : State) (n : Nat) : Option Word :=
  if n = 0 then some (zextW s.cfg.modid)
  else if n = 1 then some (zextW s.cfg.podext)
  else if n = 2 then some (BitVec.ofNat 64 s.cfg.timer)
  else if n = 3 then some (BitVec.ofNat 64 s.cfg.parklim)
  else if n = 4 then some (BitVec.ofNat 64 s.cfg.retry)
  else if 0x10 ≤ n ∧ n < 0x20 then some (s.stagedPctl (n - 0x10))
  else if n = 0x20 then some 0
  else if 0x1000 ≤ n ∧ n < 0x1400 then some (SMap.get 0 s.cfg.mods (n - 0x1000))
  else if 0x2000 ≤ n ∧ n < 0x2100 then some (s.cluster (BitVec.ofNat 8 n)).aown
  else if 0x2100 ≤ n ∧ n < 0x2200 then some (BitVec.ofNat 64 (s.cluster (BitVec.ofNat 8 n)).gov)
  else if 0x2200 ≤ n ∧ n < 0x2300 then some (SMap.get 0 s.cfg.secnt (n - 0x2200))
  else if 0x2300 ≤ n ∧ n < 0x2318 then some (SMap.get 0 s.cfg.hsec (n - 0x2300))
  else if 0x2400 ≤ n ∧ n < 0x2440 then some (SMap.get 0 s.cfg.lsec (n - 0x2400))
  else none

/-- A host read of an aligned 8-byte word of BAR0 (R383). -/
def State.readBar0 (s : State) (o : Nat) : Word :=
  if o = 0 then s.mstat
  else if o = 8 then zextW s.care.mevent
  else if o = 0x100 then BitVec.ofNat 64 s.care.powercap
  else if 0x1000 ≤ o ∧ o < 0x2000 then BitVec.ofNat 64 (s.box (o - 0x1000) 8)
  else if 0x100000 ≤ o ∧ o < 0x104000 then (SMap.get 0 s.images ((o - 0x100000) / 64)).extractLsb' (64 * ((o - 0x100000) / 8 % 8)) 64
  else if 0x200000 ≤ o ∧ o < 0x400000 then (SMap.get 0 s.slots ((o - 0x200000) / 32)).extractLsb' (64 * (o / 8 % 4)) 64
  else if 0x400000 ≤ o ∧ o < 0x420000 then s.qstat (BitVec.ofNat 14 ((o - 0x400000) / 8))
  else if 0x800000 ≤ o ∧ o < 0x820000 then (s.cfgRead ((o - 0x800000) / 8)).getD 0
  else 0

/-! ### Mailbox commands (R402, R403) -/

/-- A command that runs. -/
def State.running (s : State) (c : Nat) : Bool := decide (s.care.mboxCmd = some c)

/-- The bytes at HADDR and BYTES of the arguments. -/
def State.fetchFirmware (s : State) : List Byte :=
  (List.range (s.box 16 8)).map fun i => s.memByte (hostPlace (s.box 8 8 + i))

/-- Whether a firmware image may be booted: at most 64 MiB, and verified (R401). -/
def firmwareOk (img : List Byte) : Bool := decide (img.length ≤ 2 ^ 26) && Config.firmwareValid img

/-- Bytes 0 to 183 of an attestation report (Table 15.9). -/
def State.reportBody (s : State) : List Byte :=
  let nonce := (List.range 32).map fun i => SMap.get 0 s.care.mbox (8 + i)
  let regs := (List.range 0x1FFF).flatMap fun i => match s.cfgRead (i + 1) with
    | some w => leBytes 8 w.toNat
    | none => []
  let table := (List.range 256).flatMap fun i => leBytes 64 (SMap.get 0 s.images i).toNat
  leBytes 4 0x54455441 ++ leBytes 4 1 ++ nonce ++ leBytes 8 Config.serial.toNat
    ++ leBytes 8 (layOut [(s.cfg.modid.toNat, 12), (Svc.code s.care.svc, 4), (0, 16), ((Config.securityVersion s.care.flash).toNat, 32)])
    ++ [s.care.flash, Config.fuseMap, regs, table].flatMap fun x => leBytes 32 (Config.sm3 x).toNat

/-- ATTEST: the report from offset 0x100, signed (R402, R403). -/
def execAttest (s : State) : Out :=
  if s.running 1 then
    let body := s.reportBody
    let s' := s.writeBox 0x100 (body ++ leBytes 64 (Config.sm2 s.care.signs (Config.sm3 body)).toNat)
    .next (State.boxDone { s' with care := { s'.care with signs := s.care.signs + 1 } } 0)
  else .next s

/-- FWUPDATE: fetched and verified; a valid image begins to be written to flash, and with the next step of the command
the write is whole (R402). -/
def execFwupdate (s : State) : Out :=
  if s.running 2 then
    if s.care.flashWriting then
      .next (State.boxDone { s with care := { s.care with flash := s.care.flashNew, flashNew := [], flashWriting := false, flashBad := false } } 0)
    else
      let img := s.fetchFirmware
      if firmwareOk img then .next { s with care := { s.care with flashNew := img, flashWriting := true } }
      else .next (s.boxDone 2)
  else .next s

/-- CERT: the certificate chain from offset 0x100 (R402). -/
def execCert (s : State) : Out :=
  if s.running 4 then .next ((s.writeBox 0x100 (Config.certChain.take (0xFF0 - 0x100))).boxDone 0) else .next s

end Sys2Proof.Machine
end

