-- ==== Sys2Proof/Machine/Care.lean ====
section
/-! DEFINITION. Bring-up, recovery and reset (R194, R208, R385 to R387, R401, R402), scrubbing and error counters (R400),
cooling and power (R404). -/

namespace Sys2Proof.Machine

/-! ### Service states (Table 15.3) -/

/-- A service state is entered: MEVENT bit 0 (R383). -/
def State.setSvc (s : State) (v : Svc) : State := State.mevent { s with care := { s.care with svc := v } } 0

/-- EARLY once the firmware is verified and BIST is done: the cores are those of the system job (R328, R385, log 30). -/
def State.tryEarly (s : State) : State :=
  if s.care.svc = .boot ∧ s.care.verified = true ∧ s.care.bist = true then
    let sys (k : Core) : Core := { k with member := true, sup := true, job := 0 }
    let s := s.setSvc .early
    { s with idle := sys s.idle, cores := s.cores.map fun e => (e.1, sys e.2) }
  else s

/-- Cells and poison marks of a module reset: the DRAM and SRAM cells stay as they are (log 32), and every scratchpad tile
reads ZERO (R194). -/
def State.keptMemory (s : State) : State :=
  { s with dir := s.dir.filter fun e => decide (placeKind (e.1 * 4096) ≠ 1), poison := s.poison.filter fun w => decide (placeKind (w * 8) ≠ 1) }

/-- The module after a reset request, in RESET (R385): every register at its reset value; flash, the fused module number, the
signatures made and what was given out stay. -/
def State.resetModule (s : State) : State :=
  let m := s.keptMemory
  State.setSvc { State.reset with
    agenda := s.agenda, tick := s.tick, mem := m.mem, dir := m.dir, poison := m.poison, podOut := s.podOut
    cfg := { modid := s.cfg.modid }
    care := { powered := s.care.powered, flash := s.care.flash, flashBad := s.care.flashBad, vectors := s.care.vectors, signs := s.care.signs } } .reset

/-- RESET: the mailbox command, done once the module is reset (R402). -/
def execReset (s : State) : Out := if s.running 5 then .next (s.resetModule.boxDone 0) else .next s

/-- POWER_GOOD: with the power RESET is entered; of a module in RESET the boot ROM starts to verify: BOOT (Table 15.3). -/
def execPowerGood (s : State) : Out :=
  if !s.care.powered then .next { s with care := { s.care with powered := true } }
  else if s.care.svc = .reset then .next (s.setSvc .boot)
  else .next s

/-- POWER_FAIL: the module stops and loses all but its flash; a flash write under way is left incomplete (R402). What the
host holds stays. -/
def execPowerFail (s : State) : Out :=
  .next { State.reset with
    agenda := s.agenda, tick := s.tick, mem := s.mem.filter fun c => decide (placeKind c.1 = 6), podOut := s.podOut
    cfg := { modid := s.cfg.modid }
    care := { flash := s.care.flash, flashBad := s.care.flashBad || s.care.flashWriting, vectors := s.care.vectors, signs := s.care.signs } }

/-- FIRMWARE_VERIFICATION: EARLY, when BIST is done too, or RECOVERY (R385, R401). -/
def execFirmwareVerification (s : State) : Out :=
  if s.care.svc ≠ .boot ∨ s.care.verified = true then .next s
  else if !s.care.flashBad && firmwareOk s.care.flash then .next (State.tryEarly { s with care := { s.care with verified := true } })
  else .next (s.setSvc .recovery)

/-- BIST_COMPLETION: CLOK is set, and EARLY may follow; a column with two defective sites or a failed cluster 0 sends the
module to FAILED (R384, R385). -/
def execBistCompletion (clok : BitVec 9) (failed : Bool) (s : State) : Out :=
  if s.care.bist || !(decide (s.care.svc = .boot) || decide (s.care.svc = .recovery)) then .next s
  else
    let s := { s with care := { s.care with bist := true, clok := if 256 < clok.toNat then 256 else clok } }
    .next (if failed then s.setSvc .failed else s.tryEarly)

/-- RECOVER: in RECOVERY, a valid image begins to be written to flash, and with the next step of the command the write is
whole and the image is booted (R402, log 31). -/
def execRecover (s : State) : Out :=
  if s.running 3 ∧ s.care.svc = .recovery then
    if s.care.flashWriting then
      let s := s.boxDone 0
      .next (State.tryEarly (State.setSvc { s with
        care := { s.care with flash := s.care.flashNew, flashNew := [], flashWriting := false, flashBad := false, verified := true } } .boot))
    else
      let img := s.fetchFirmware
      if firmwareOk img then .next { s with care := { s.care with flashNew := img, flashWriting := true } }
      else .next (s.boxDone 2)
  else .next s

/-- FULL once HBM, LPDDR and the Predan links are trained (Table 15.3, R387). -/
def State.tryFull (s : State) : State :=
  if s.care.svc = .early ∧ s.care.hbmOk = true ∧ s.care.lpOk = true ∧ s.care.linkOk = true then s.setSvc .full else s

/-- HBM_TRAINING_COMPLETE: every directory entry of every stack is ZERO, then the tier enters service (R208). -/
def execHbmTrainingComplete (s : State) : Out :=
  if s.care.svc = .early ∧ s.care.hbmFail = false ∧ s.care.hbmOk = false then
    .next (State.tryFull { s with
      dir := s.dir.filter fun e => decide (placeKind (e.1 * 4096) ≠ 4)
      poison := s.poison.filter fun w => decide (placeKind (w * 8) ≠ 4)
      care := { s.care with hbmOk := true } })
  else .next s

/-- All 48 Predan links are up. -/
def linksUp : SMap Link := (List.range 48).map fun i => (i, { up := true })

/-- EARLY_TO_FULL: LPDDR and the Predan links are trained; with HBM in service too the module enters FULL (R385, R387). A
tier whose training failed keeps it in EARLY. -/
def execEarlyToFull (s : State) : Out :=
  if s.care.svc ≠ .early ∨ s.care.linkOk = true then .next s
  else .next (State.tryFull { s with links := linksUp, care := { s.care with lpOk := !s.care.lpFail, linkOk := true } })

/-- TRAINING_FAILURE: the tier's bit stays clear, the module stays in EARLY, MEVENT bit 0 (R385). -/
def execTrainingFailure (tier : DramTier) (s : State) : Out :=
  if s.care.svc ≠ .early then .next s
  else match tier with
    | .hbm => if s.care.hbmOk then .next s else .next (State.mevent { s with care := { s.care with hbmFail := true } } 0)
    | .lpddr => if s.care.lpOk then .next s else .next (State.mevent { s with care := { s.care with lpFail := true } } 0)

/-! ### Cooling (R404) -/

/-- THERMAL_THROTTLE: every G is halved, to no less than 64, and MEVENT bit 2 is set. -/
def execThermalThrottle (s : State) : Out := .next (State.mevent { s with care := { s.care with throttled := true } } 2)
/-- THERMAL_THROTTLE_END: the halving ends. -/
def execThermalThrottleEnd (s : State) : Out := .next { s with care := { s.care with throttled := false } }
/-- THERMAL_SHUTDOWN: the clocks stop until a reset; vector 1. -/
def execThermalShutdown (s : State) : Out := .next (State.vector { s with care := { s.care with stopped := true } } 1)

/-! ### Errors (R360, R362, R400) -/

/-- A counter field of w bits at lo goes up by one, saturating. -/
def bumpField (x : Word) (lo w : Nat) : Word := if fld x.toNat lo w + 1 = 2 ^ w then x else x + BitVec.ofNat 64 (2 ^ lo)

/-- Cycles of one hour. -/
def State.hour (s : State) : Nat := 360000000 * s.us10

/-- A growth of counter field n recorded, with those of the last hour. -/
def State.logError (s : State) (n : Nat) : State :=
  let now := s.cycle.toNat
  { s with cfg := { s.cfg with secLog := SMap.set n (now :: (SMap.get [] s.cfg.secLog n).filter fun t => decide (now < t + s.hour)) s.cfg.secLog } }

/-- Who guards a place: its cluster, the UNIT of Table 14.4, and the address it reports. -/
def State.guardOf (s : State) (p : Nat) : BitVec 8 × Nat × Word :=
  let o := p % 2 ^ 64
  match placeKind p with
  | 1 => (BitVec.ofNat 8 (o / 2 ^ 24), 0xFF, BitVec.ofNat 64 (o % 2 ^ 24))
  | 2 => (clusterOf (BitVec.ofNat 15 (o / 2 ^ 17)), 0, BitVec.ofNat 64 (0x1000000 + (o / 2 ^ 17 % 128) * 0x18000 + o % 2 ^ 17))
  | 3 => (BitVec.ofNat 8 (o / 2 ^ 22), 0xFF, BitVec.ofNat 64 o)
  | 4 => (stackCluster (o / 2 ^ 36), o / 2 ^ 36, BitVec.ofNat 64 o)
  | _ => (channelCluster (s.lpChannel o), 0, BitVec.ofNat 64 o)

/-- A corrected error of a cluster counted in a field of its SECNT (Table 15.7). -/
def State.countSram (s : State) (cl lo : Nat) : State :=
  State.logError { s with cfg := { s.cfg with secnt := SMap.set cl (bumpField (SMap.get 0 s.cfg.secnt cl) lo 16) s.cfg.secnt } } (4 * cl + lo / 16)

/-- A corrected error at a place is counted (R400, Table 15.7). -/
def State.corrected (s : State) (p : Nat) : State :=
  let o := p % 2 ^ 64
  let cl := (s.guardOf p).1.toNat
  match placeKind p with
  | 1 => s.countSram cl 16
  | 2 => s.countSram cl 0
  | 3 => s.countSram cl 32
  | 4 => State.logError { s with cfg := { s.cfg with hsec := SMap.set (o / 2 ^ 36) (bumpField (SMap.get 0 s.cfg.hsec (o / 2 ^ 36)) 0 64) s.cfg.hsec } } (1024 + o / 2 ^ 36)
  | _ =>
    let ch := s.lpChannel o
    State.logError { s with cfg := { s.cfg with lsec := SMap.set ch (bumpField (SMap.get 0 s.cfg.lsec ch) 0 64) s.cfg.lsec } } (1088 + ch)

/-- PATROL_SCRUB: a word is read; its error is corrected and counted, or the word is poisoned with a machine check of source
5 (R360, R400). -/
def execPatrolScrub (addr : Nat) (bad : Bool) (s : State) : Out :=
  let p := addr / 8 * 8
  if placeKind p < 1 ∨ 5 < placeKind p then .next s
  else if bad then
    let g := s.guardOf p
    .next ((s.markWord p 0 true).machineCheck 5 g.1 g.2.1 g.2.2)
  else .next (s.corrected p)

/-- The cluster of the router or gateway switch where a packet in flight is. -/
def Flight.site (f : Flight) : Option (BitVec 8) :=
  match f.loc with
  | .router cl _ => some cl
  | .switch i _ => some (gatewayCluster i.toNat)
  | _ => none

/-- A soft error in the n-th packet in flight, while it is on the wafer (R124, R362): `hit` says what it does to the flight at a
cluster. -/
def State.upsetFlit (s : State) (n : Nat) (hit : Flight → BitVec 8 → State) : State :=
  match s.net[n]? with
  | some f => ((Flight.site f).map (hit f)).getD s
  | none => s

/-- What a soft error does: a corrected flit is counted, a payload flit poisons its words, a header loses its packet with a
machine check of source 2; a directory entry breaks its tile with one of source 4 (R124, R205, R362, R400). -/
def State.upset (s : State) (u : Upset) : State :=
  match u with
  | .corrected n => s.upsetFlit n fun _ cl => s.countSram cl.toNat 48
  | .payload n k => s.upsetFlit n fun f _ =>
      if 2 * k < f.p.words.length then { s with net := putAt s.net n { f with p := { f.p with poison := f.p.poison ++ [2 * k, 2 * k + 1] } } } else s
  | .header n => s.upsetFlit n fun f cl => (s.dropFlight n).machineCheck 2 cl 0 0 (Header.lo f.p.hdr, Header.hi f.p.hdr)
  | .entry p ok =>
    if hasDir p then
      let g := s.guardOf (p / 4096 * 4096)
      (s.breakEntry p ok).machineCheck 4 g.1 g.2.1 g.2.2
    else s

/-- SOFT_ERROR_THRESHOLD: a counter that grew by more than 1,024 in one hour sets MEVENT bit 1 (R400). -/
def execSoftErrorThreshold (s : State) : Out :=
  if s.cfg.secLog.any fun e => decide (1024 < (e.2.filter fun t => decide (s.cycle.toNat < t + s.hour)).length) then .next (s.mevent 1)
  else .next s

end Sys2Proof.Machine
end

