-- ==== Sys2Proof/Machine/System.lean ====
section
/-! DEFINITION. The control operations at their targets: freeze and release (R363 to R365), the launch and quiescence
operations of jobs of several modules (R398), the configuration registers (R399). -/

namespace Sys2Proof.Machine

/-! ### Control packets and their answers (R363) -/

/-- Payload word i of a control packet. -/
def ctlWord (f : Flight) (i : Nat) : Word := f.p.words.getD i 0
/-- The job that a control packet names. -/
def ctlJob (f : Flight) : BitVec 8 := (ctlWord f 0).extractLsb' 8 8

/-- Statuses of an answer. -/
def ctlOk : Nat := 0
def ctlNoJob : Nat := 1
def ctlState : Nat := 2
def ctlArea : Nat := 3
def ctlOp : Nat := 4

/-- The answer to a control packet: a message of class high under the reply label, of two words. -/
def State.ctlReplyTo (s : State) (dst : BitVec 27) (lab : Label) (from_ : CoreIx) (status bytes : Nat) : State :=
  let own := decide (modOf dst = s.cfg.modid)
  s.launch {
    p := { hdr := { dcore := coreOf (ixOf dst), dcl := clusterOf (ixOf dst), dmod := modOf dst, cls := .high, lab := lab,
                    plen := 1, src := s.coreName from_ },
           words := [BitVec.ofNat 64 status, BitVec.ofNat 64 bytes] }
    loc := if own then .dest else .router (clusterOf from_) 0, since := s.cycle.toNat, supPath := own }

def State.ctlReply (s : State) (f : Flight) (status : Nat) (bytes : Nat := 0) : State :=
  s.ctlReplyTo f.p.hdr.src ((ctlWord f 0).extractLsb' 0 7) (Header.dst f.p.hdr) status bytes

/-- Whether a control packet asks for an operation. -/
def opIs (o : Nat) (f : Flight) : Bool := decide (f.p.hdr.lab.toNat = o)

/-- The n-th packet in flight, a control packet that has arrived and whose operation `op` accepts, is carried out. -/
def State.control (s : State) (n : Nat) (op : Flight → Bool) (go : State → Flight → State) : Out :=
  match s.arrived n 11 with
  | some f => if op f then .next (go (s.dropFlight n) f) else .next s
  | none => .next s

/-! ### FREEZE and RELEASE (R365) -/

/-- FREEZE: the core freezes. An operation from 0x10 up that Table 14.5 does not list is answered OP (R364). -/
def execFreeze (n : Nat) (s : State) : Out :=
  s.control n (fun f => opIs 0x10 f || decide (0x14 < f.p.hdr.lab.toNat)) fun s f =>
    if f.p.hdr.lab = 0x10 then (s.freezeCore (Header.dst f.p.hdr)).ctlReply f ctlOk else s.ctlReply f ctlOp

/-- A thread as a RELEASE in resume mode leaves it: its next issue at the PC meets no comparator (R378). -/
def Thread.resumed (th : Thread) : Thread := { th with skip := some th.pc }

/-- A thread as a RELEASE in discard mode leaves it: its instance retires, with its entries; those that an earlier instance
committed stay (R365, R366). -/
def Thread.discarded (th : Thread) : Thread := if th.run = .free then th else { th.kill with held := [] }

/-- The engine command that the core holds goes on, or is discarded with its landing entry and without completion (R185). -/
def State.releaseHeld (s : State) (c : CoreIx) (discard : Bool) : State :=
  let cl := clusterOf c
  let mine (k : EngCmd) : Bool := k.hold && decide (k.core = c)
  if discard then
    let ids := ((s.cluster cl).eng.filter mine).map (·.id)
    s.modCluster cl fun x => { x with eng := x.eng.filter (fun k => !mine k), land := x.land.filter fun l => !ids.contains l.owner }
  else s.modCluster cl fun x => { x with eng := x.eng.map fun k => if mine k then { k with hold := false } else k }

/-- RELEASE of a frozen core, in resume or discard mode (R365). -/
def State.release (s : State) (c : CoreIx) (discard discardCmd : Bool) : State :=
  let s := s.modCore c fun k => { k with frozen := false, threads := k.threads.map fun th => if discard then th.discarded else th.resumed }
  s.releaseHeld c discardCmd

/-- RELEASE (R365). -/
def execRelease (n : Nat) (s : State) : Out :=
  s.control n (opIs 0x11) fun s f =>
    let c := Header.dst f.p.hdr
    if (s.core c).frozen then (s.release c ((ctlWord f 0).getLsbD 8) ((ctlWord f 0).getLsbD 9)).ctlReply f ctlOk
    else s.ctlReply f ctlState

/-! ### Jobs of several modules (R398) -/

def State.launchOf (s : State) (j : BitVec 8) : Launch := SMap.get {} s.launches j.toNat
def State.modLaunch (s : State) (j : BitVec 8) (f : Launch → Launch) : State :=
  { s with launches := SMap.set j.toNat (f (s.launchOf j)) s.launches }

/-- A list of modules with one more. -/
def addMod (m : BitVec 12) (ms : List (BitVec 12)) : List (BitVec 12) := if ms.contains m then ms else ms ++ [m]

/-- A control packet to each of some modules. -/
def State.ctlAll (s : State) (ms : List (BitVec 12)) (op : Nat) (job : BitVec 8) (ws : List Word := []) : State :=
  ms.foldl (fun s m => s.ctl m op job ws) s

/-- This module's part in a launch is aborted: its prepared cores are free, MEVENT bit 5; its queue is one whose load
failed (R394, R398, log 34). -/
def State.abortOwn (s : State) (job : BitVec 8) : State :=
  match SMap.find s.jobs job.toNat with
  | some j =>
    if j.gate then s
    else
      let keep := SMap.find s.launches job.toNat
      let s := s.giveBack job j
      let s := match keep with
        | some l => { s with launches := SMap.set job.toNat l s.launches }
        | none => s
      let s := s.mevent 5
      match j.queue with
      | some q => if (s.queue q).tail then (s.mevent 4).unbind q else s.queueError q
      | none => s
  | none => s.mevent 5

/-- A launch record whose modules have all told their outcome is done with. -/
def State.closeAbort (s : State) (job : BitVec 8) : State :=
  let l := s.launchOf job
  if l.aborted ∧ l.readys.contains s.cfg.modid ∧ l.nmod < l.readys.length then
    { s with launches := SMap.del job.toNat s.launches }
  else s

/-- NMOD of a job of this module, once it is known. -/
def State.nmodOf (s : State) (job : BitVec 8) : Nat :=
  match SMap.find s.jobs job.toNat with
  | some j => j.nmod
  | none => (s.launchOf job).nmod

/-- A module tells the coordinator its outcome: it is listed. -/
def State.told (s : State) (job : BitVec 8) (m : BitVec 12) : State :=
  let n := s.nmodOf job
  s.modLaunch job fun l => { l with readys := addMod m l.readys, nmod := n }

/-- READY at the coordinator: once NMOD + 1 modules are ready, its own included, OPEN goes to each; after an abort, ABORT
goes to the module. -/
def execReady (n : Nat) (s : State) : Out :=
  s.control n (opIs 0) fun s f =>
    let job := ctlJob f
    let m := modOf f.p.hdr.src
    let s := (s.told job m).ctlReply f ctlOk
    let l := s.launchOf job
    if l.aborted then
      (if m = s.cfg.modid then s.abortOwn job else s.ctl m 2 job []).closeAbort job
    else if l.readys.contains s.cfg.modid ∧ l.nmod < l.readys.length then s.ctlAll l.readys 1 job
    else s

/-- OPEN at a module: its gate may open. -/
def execOpen (n : Nat) (s : State) : Out :=
  s.control n (opIs 1) fun s f =>
    if s.resident (ctlJob f) then (s.modJob (ctlJob f) fun j => { j with opened := true }).ctlReply f ctlOk
    else s.ctlReply f ctlNoJob

/-- Whether this module coordinates a job, when m tells it of an abort: its own record says so, or it hears from itself,
or it has heard of none of its own loads (log 34). -/
def State.coordinates (s : State) (job : BitVec 8) (m : BitVec 12) : Bool :=
  match SMap.find s.jobs job.toNat with
  | some j => decide (j.coord = s.cfg.modid)
  | none => (s.launchOf job).aborted || decide (m = s.cfg.modid) || !(s.launchOf job).failed

/-- ABORT: at the coordinator, every module known of is told; at any module, the prepared cores are free. -/
def execAbort (n : Nat) (s : State) : Out :=
  s.control n (opIs 2) fun s f =>
    let job := ctlJob f
    let m := modOf f.p.hdr.src
    let s := s.ctlReply f ctlOk
    if s.coordinates job m then
      let before := s.launchOf job
      let s := (s.told job m).modLaunch job fun l => { l with aborted := true }
      let others := (if before.aborted then [m] else addMod m before.readys).filter fun x => decide (x ≠ s.cfg.modid)
      let s := s.ctlAll others 2 job
      let own := decide (m = s.cfg.modid) || (!before.aborted && before.readys.contains s.cfg.modid)
      (if own then s.abortOwn job else s).closeAbort job
    else { s.abortOwn job with launches := SMap.del job.toNat s.launches }

/-- The sum of a count over readings. -/
def sumOf (f : QRep → Word) (rs : List QRep) : Nat := (rs.map fun r => (f r).toNat).sum

/-- The quiescence test over the readings of every module: both readings of each agree, the sums are equal (R327). -/
def quiescent (nmod : Nat) (rs : List QRep) : Bool :=
  let r0 := rs.filter fun r => !r.reading
  let r1 := rs.filter fun r => r.reading
  decide (r0.length = nmod + 1) && decide (r1.length = nmod + 1)
    && r0.all (fun a => r1.any fun b => decide (b.mod = a.mod ∧ b.sent = a.sent ∧ b.recv = a.recv))
    && decide (sumOf (·.sent) r0 = sumOf (·.recv) r0)

/-- QREPORT at the coordinator: the newest reading of each kind stays; when the test passes, RETIRE goes to every module;
with unequal tail handles a word of it says so (R329, R398, log 28). -/
def execQreport (n : Nat) (s : State) : Out :=
  s.control n (opIs 3) fun s f =>
    let job := ctlJob f
    let m := modOf f.p.hdr.src
    let r : QRep := { mod := m, sent := ctlWord f 1, recv := ctlWord f 2, reading := (ctlWord f 3).getLsbD 0 }
    let s := (s.modLaunch job fun l =>
      { l with reps := (l.reps.filter fun x => !(decide (x.mod = m) && (x.reading == r.reading || !r.reading))) ++ [r] }).ctlReply f ctlOk
    let l := s.launchOf job
    if (s.resident job) && quiescent (s.nmodOf job) l.reps then
      let equal := l.tlhs.all fun x => l.tlhs.all fun y => decide (x.2 = y.2)
      s.ctlAll ((l.reps.filter fun x => !x.reading).map (·.mod)) 4 job (if equal then [] else [1])
    else s

/-- RETIRE at a module: its job may retire. Unequal tail handles launch no child and are reported to the host (R329). -/
def execRetire (n : Nat) (s : State) : Out :=
  s.control n (opIs 4) fun s f =>
    if s.resident (ctlJob f) then
      let un := (ctlWord f 1).getLsbD 0
      let s := s.modJob (ctlJob f) fun j => { j with retireOk := true, tail := if un then none else j.tail }
      (if un then s.mevent 4 else s).ctlReply f ctlOk
    else s.ctlReply f ctlNoJob

/-- TLH at the coordinator: the module's tail-launch handle is recorded. -/
def execTlh (n : Nat) (s : State) : Out :=
  s.control n (opIs 5) fun s f =>
    let m := modOf f.p.hdr.src
    (s.modLaunch (ctlJob f) fun l => { l with tlhs := (l.tlhs.filter fun x => decide (x.1 ≠ m)) ++ [(m, ctlWord f 1)] }).ctlReply f ctlOk

/-! ### Configuration (R399) -/

/-- Whether an AOWN write changes the field of an array whose job has not retired (Table 15.7). -/
def State.aownHeld (s : State) (old new : Word) : Bool :=
  (List.range 4).any fun i => aownSet old i && s.resident (aownJob old i)
    && (aownSet new i != aownSet old i || decide (aownJob new i ≠ aownJob old i))

/-- A value within bounds goes on; another is answered STATE. -/
def inRange (s : State) (lo hi : Nat) (v : Word) (go : State) : State × Nat :=
  if lo ≤ v.toNat ∧ v.toNat ≤ hi then (go, ctlOk) else (s, ctlState)

/-- A write of a configuration register other than PAPPLY: the state and the status (Table 15.7). -/
def State.cfgWrite (s : State) (n : Nat) (v : Word) : State × Nat :=
  if n = 0 then (s, ctlState)
  else if n = 1 then ({ s with cfg := { s.cfg with podext := v.extractLsb' 0 12 } }, ctlOk)
  else if n = 2 then inRange s 1 100 v { s with cfg := { s.cfg with timer := v.toNat } }
  else if n = 3 then inRange s 1 1000 v { s with cfg := { s.cfg with parklim := v.toNat } }
  else if n = 4 then inRange s 1 255 v { s with cfg := { s.cfg with retry := v.toNat } }
  else if 0x10 ≤ n ∧ n < 0x20 then ({ s with cfg := { s.cfg with staged := SMap.set (n - 0x10) (v &&& 0x3FF) s.cfg.staged } }, ctlOk)
  else if 0x1000 ≤ n ∧ n < 0x1400 then ({ s with cfg := { s.cfg with mods := SMap.set (n - 0x1000) v s.cfg.mods } }, ctlOk)
  else if 0x2000 ≤ n ∧ n < 0x2100 then
    let cl := BitVec.ofNat 8 n
    let new := v &&& 0xFFFFFFFFF
    if s.aownHeld (s.cluster cl).aown new then (s, ctlState) else (s.modCluster cl fun x => { x with aown := new }, ctlOk)
  else if 0x2100 ≤ n ∧ n < 0x2200 then inRange s 64 4096 v (s.writeGov (BitVec.ofNat 8 n) v.toNat)
  else if (s.cfgRead n).isSome then (s, ctlState)
  else (s, ctlOp)

/-- Whether the system job of this module sends a configuration write to core 0 of cluster 0 (Table 15.8). -/
def State.cfgTarget (s : State) (f : Flight) : Bool :=
  decide (Header.dst f.p.hdr = 0) && decide (modOf f.p.hdr.src = s.cfg.modid)

/-- The register number of a CFGW. -/
def cfgReg (f : Flight) : Nat := fld (ctlWord f 0).toNat 16 16

/-- Whether a control packet writes PAPPLY. -/
def State.isApply (s : State) (f : Flight) : Bool := opIs 8 f && s.cfgTarget f && decide (cfgReg f = 0x20)

/-- CFGW of a register other than PAPPLY. An operation below 0x10 that Table 15.8 does not list is answered OP (R398), and
a CFGW that is not for core 0 of cluster 0 of the sender's module too (log 33). -/
def execCfgw (n : Nat) (s : State) : Out :=
  s.control n (fun f => decide (5 < f.p.hdr.lab.toNat ∧ f.p.hdr.lab.toNat < 0x10) && !s.isApply f) fun s f =>
    if f.p.hdr.lab ≠ 8 ∨ s.cfgTarget f = false then s.ctlReply f ctlOp
    else
      let r := s.cfgWrite (cfgReg f) (ctlWord f 1)
      r.1.ctlReply f r.2

/-- The partitions among words whose band holds a column. -/
def bandsOf (w : Nat → Word) (c : Nat) : List Nat :=
  (List.range 16).filter fun p => pctlV (w p) && decide (pctlLo (w p) ≤ c) && decide (c ≤ pctlHi (w p))

/-- Whether words give bands of consecutive columns, disjoint, over all 16 (R129). -/
def bandsOk (w : Nat → Word) : Bool :=
  (List.range 16).all (fun p => !pctlV (w p) || decide (pctlLo (w p) ≤ pctlHi (w p)))
    && (List.range 16).all fun c => decide ((bandsOf w c).length = 1)

/-- Whether a user job has a team in a column whose partition would change (R399). -/
def State.bandsHeld (s : State) : Bool :=
  s.cores.any fun k => k.2.member && decide (k.2.job ≠ 0) &&
    decide (bandsOf s.stagedPctl (columnOf (BitVec.ofNat 8 (k.1 / 128))) ≠ bandsOf s.pctl (columnOf (BitVec.ofNat 8 (k.1 / 128))))

/-- Every staged word is applied at once. -/
def State.applyStaged (s : State) : State :=
  { s with cfg := { s.cfg with pctl := (List.range 16).foldl (fun m p => SMap.set p (s.stagedPctl p) m) s.cfg.pctl, staged := [] } }

/-- PAPPLY: the CFGW of register 0x20 (R399). -/
def execPapply (n : Nat) (s : State) : Out :=
  s.control n s.isApply fun s f =>
    if ctlWord f 1 ≠ 1 ∨ bandsOk s.stagedPctl = false ∨ s.bandsHeld = true then s.ctlReply f ctlState
    else s.applyStaged.ctlReply f ctlOk

end Sys2Proof.Machine
end

