-- ==== Sys2Proof/Machine/Save.lean ====
section
/-! DEFINITION. Pre-emption: PREEMPT and the end of its grace (R367 to R369), the save area (R371 to R376), RESTORE and
RESUME (R377), checkpoints of the engine and the arrays (R186, R187, R298). -/

namespace Sys2Proof.Machine

/-! ### Words of a save area -/

/-- A word of a record: its offset, what a save writes and what a restore makes of it. -/
structure Slot (α : Type) where
  off : Nat
  get : α → Word
  set : Word → α → α := fun _ x => x

/-- The words of a record written. -/
def State.saveSlots {α : Type} (s : State) (rec : Nat → Nat) (x : α) (sl : List (Slot α)) : State :=
  sl.foldl (fun s e => s.put64 (rec e.off) (e.get x)) s
/-- The words of a record read back. -/
def State.loadSlots {α : Type} (s : State) (rec : Nat → Nat) (x : α) (sl : List (Slot α)) : α :=
  sl.foldl (fun x e => e.set (s.word (rec e.off)) x) x

/-- One slot for each number below n. -/
def slotsFor {α : Type} (n base step : Nat) (get : Nat → α → Word) (set : Nat → Word → α → α) : List (Slot α) :=
  (List.range n).map fun i => { off := base + step * i, get := get i, set := set i }

/-! ### Thread records (Table 14.10) -/

/-- RUN of a thread record. -/
def Thread.runWord (th : Thread) : Word :=
  let r : Nat × Nat × Nat × Nat × Nat × Nat := match th.run with
    | .free => (0, 0, 0, 0, 0, 0) | .ready => (1, 0, 0, 0, 0, 0) | .stalled => (2, 0, 0, 0, 0, 0)
    | .recv l _ => (3, 1, l.toNat, 0, 0, 0)
    | .bar g => (3, 0, 0, 1, g.toNat, 0)
    | .wait _ => (3, 0, 0, 0, 0, 1)
  wordOf [(r.1, 3), (r.2.1, 1), (r.2.2.1, 7), (r.2.2.2.1, 1), (r.2.2.2.2.1, 8), (r.2.2.2.2.2, 1),
    ((th.inst.map fun i => i.1.toNat).getD 0, 7), (0, 4), (th.wdog, 13)]

/-- A thread with the state that RUN gives; what RUN does not hold is as it was. -/
def Thread.setRun (x : Word) (th : Thread) : Thread :=
  let lab : Label := x.extractLsb' 4 7
  let since := match th.run with
    | .recv _ n => n
    | _ => 0
  let run : Run :=
    if x.getLsbD 3 then .recv lab since
    else if x.getLsbD 11 then .bar (x.extractLsb' 12 8)
    else if x.getLsbD 20 then .wait 0
    else match fld x.toNat 0 3 with
      | 0 => .free | 2 => .stalled | _ => .ready
  { th with run := run, inst := th.inst.map fun i => (x.extractLsb' 21 7, i.2), wdog := fld x.toNat 32 13 }

/-- The word at 0x568, with the first inbox flit of the current message. -/
def Thread.posWord (first : Nat) (th : Thread) : Word :=
  wordOf [(th.popped, 6), (0, 2), (th.out.length, 9), (th.msg.isSome.toNat, 1), (first, 10), ((th.msg.map (·.arrived)).getD 0, 5)]
def Thread.setPos (x : Word) (th : Thread) : Thread :=
  { th with popped := fld x.toNat 0 6, out := (List.range (fld x.toNat 8 9)).map fun i => th.out.getD i 0,
            msg := th.msg.map fun m => { m with arrived := fld x.toNat 28 5 } }

/-- The far-read records: word 0 and the GVA; a read without a register names s0. -/
def Thread.readRecords (th : Thread) : List (Word × Word) :=
  let one (r : PendingRead) : Word × Word :=
    let d : Nat × Nat × Nat := match r.dest with
      | .none => (0, 1, 0) | .out => (30, 1, 0) | .s x => (x.toNat, 1, 0) | .v x q => (x.toNat, 2, q.toNat)
    let f : Nat × Nat × Nat := match r.failed with
      | none => (0, 0, 0) | some (.status st) => (st.toNat, 1, 0) | some .poison => (0, 1, 1)
    (wordOf [(r.txid.toNat, 16), (d.1, 5), (d.2.1, 2), (1, 1), (0, 1), (f.1, 4), (f.2.1, 1), (f.2.2, 1), (0, 1), (d.2.2, 8)], r.addr)
  ((th.reads.filter fun r => decide (r.kind ≠ .near)).map one) ++
    match th.block with
    | some b => [(wordOf [(b.txid.toNat, 16), (b.dest.toNat, 5), (1, 2), (1, 1), (1, 1), ((b.err.getD 0).toNat, 4),
        (b.err.isSome.toNat, 1)], b.gva)]
    | none => []

/-- A read as its record has it: gone when its data has come, failed when an error or poison has (R376, R377). -/
def PendingRead.loaded (r : PendingRead) (x : Word) : Option PendingRead :=
  if !x.getLsbD 29 then some r
  else if x.extractLsb' 25 4 ≠ 0 then some { r with failed := some (.status (x.extractLsb' 25 4)) }
  else if x.getLsbD 30 then some { r with failed := some .poison }
  else none

/-- The valid record of a TXID among the far-read records of a thread record. -/
def State.readWord (s : State) (rec : Nat → Nat) (tx : BitVec 16) : Option Word := (s.farRecord rec tx).map s.word

/-- A thread's far reads and blocking atomic as its record has them: an atomic whose value has come is complete (R376, R377). -/
def State.loadReads (s : State) (rec : Nat → Nat) (th : Thread) : Thread :=
  let th := { th with reads := th.reads.filterMap fun (r : PendingRead) => match s.readWord rec r.txid with
    | some x => if r.kind = ReadKind.near then some r else r.loaded x
    | none => some r }
  match th.block with
  | none => th
  | some b =>
    match s.readWord rec b.txid with
    | none => th
    | some x =>
      if !x.getLsbD 29 then th
      else if x.extractLsb' 25 4 ≠ 0 then { th with block := some { b with err := some (x.extractLsb' 25 4) } }
      else ({ Thread.popN th b.pops with block := none }.advance 4).wr b.dest (b.got.getD (th.reg b.dest))

/-- The words of a thread record. -/
def threadSlots (sup : Bool) (t : ThrIx) (first : Nat) : List (Slot Thread) :=
  slotsFor 32 0 8 (fun i th => th.reg (BitVec.ofNat 5 i)) (fun i x th => th.setReg (BitVec.ofNat 5 i) (if i = 0 then 0 else x))
  ++ slotsFor 128 0x100 8 (fun i th => lane (th.vreg (BitVec.ofNat 4 (i / 8))) (i % 8))
      (fun i x th => th.setVreg (BitVec.ofNat 4 (i / 8)) (ofLanes ((List.range 8).map fun n =>
        if n = i % 8 then x else lane (th.vreg (BitVec.ofNat 4 (i / 8))) n)))
  ++ [{ off := 0x500, get := fun th => BitVec.ofNat 64 (leVal ((List.range 8).map fun i => th.qreg (BitVec.ofNat 3 i)))
        set := fun x th => (List.range 8).foldl (fun th i => th.setQreg (BitVec.ofNat 3 i) (x.extractLsb' (8 * i) 8)) th },
      { off := 0x508, get := (·.pc), set := fun x th => { th with pc := x } },
      { off := 0x510, get := fun th => zextW th.fflags, set := fun x th => { th with fflags := x.extractLsb' 0 6 } },
      { off := 0x518, get := fun th => zextW th.frm, set := fun x th => { th with frm := x.extractLsb' 0 2 } },
      { off := 0x520, get := fun th => th.ths sup t, set := fun x th => { th.setThs x with trap := x.getLsbD 2 } },
      { off := 0x528, get := fun th => zextW th.tcause, set := fun x th => { th with tcause := x.extractLsb' 0 21 } },
      { off := 0x530, get := (·.taddr), set := fun x th => { th with taddr := x } },
      { off := 0x538, get := (·.tepc), set := fun x th => { th with tepc := x } },
      { off := 0x540, get := fun th => (th.msg.map fun m => Header.lo m.hdr).getD 0 },
      { off := 0x548, get := fun th => (th.msg.map fun m => Header.hi m.hdr).getD 0 },
      { off := 0x550, get := (·.instret), set := fun x th => { th with instret := x } },
      { off := 0x558, get := (·.runWord), set := Thread.setRun },
      { off := 0x560
        get := fun th => match th.run with
          | .wait d => d
          | _ => 0
        set := fun x th => match th.run with
          | .wait _ => { th with run := .wait x }
          | _ => th },
      { off := 0x568, get := Thread.posWord first, set := Thread.setPos }]
  ++ slotsFor 16 0x580 8 (fun i th => let r := th.readRecords.getD (i / 2) (0, 0); if i % 2 = 0 then r.1 else r.2) (fun _ _ th => th)
  ++ slotsFor 32 0x600 8 (fun i th => th.out.getD i 0) (fun i x th => { th with out := putAt th.out i x })

/-! ### Core records (Table 14.9) -/

/-- Word i of the barrier slots' one word. -/
def Core.barWord (k : Core) : Word :=
  wordOf ((List.range 4).flatMap fun i => match k.bars[i]? with
    | some (g, b) => [(g, 8), ((match b with | .idle => 0 | .wait => 1 | .done => 2), 8)]
    | none => [(0, 8), (3, 8)])

def Core.setBars (x : Word) (k : Core) : Core :=
  { k with bars := (List.range 4).foldl (fun m i =>
      match fld x.toNat (16 * i + 8) 2 with
      | 0 => SMap.set (fld x.toNat (16 * i) 8) BarSt.idle m
      | 1 => SMap.set (fld x.toNat (16 * i) 8) BarSt.wait m
      | 2 => SMap.set (fld x.toNat (16 * i) 8) BarSt.done m
      | _ => m) [] }

/-- The bits of a trigger entry that are not reserved (Table 12.1). -/
def trgMask : Word := 0x00FFFF7FFFFFFFFF

/-- The words of a core record beside TCM, inbox, threads, queue entries and parked replies. -/
def coreSlots : List (Slot Core) :=
  slotsFor 128 0x20000 8 (fun i k => k.trigger (BitVec.ofNat 7 i)) (fun i x k => { k with trig := SMap.set i (x &&& trgMask) k.trig })
  ++ slotsFor 32 0x20400 8 (fun i k => wordOf ((List.range 4).map fun j => ((SMap.get 0 k.cnt (4 * i + j)).toNat, 16)))
      (fun i x k => { k with cnt := (List.range 4).foldl (fun m j => SMap.set (4 * i + j) (x.extractLsb' (16 * j) 16) m) k.cnt })
  ++ [{ off := 0x20500, get := fun k => zextW k.cf, set := fun x k => { k with cf := x.extractLsb' 0 8 } },
      { off := 0x20508, get := fun k => BitVec.ofNat 64 k.xbBytes, set := fun x k => { k with xb := clampXb (x.extractLsb' 6 11) } },
      { off := 0x20510, get := (·.tv), set := fun x k => { k with tvEn := x.getLsbD 0, tvEntry := x.extractLsb' 2 15 } }]
  ++ slotsFor 4 0x20518 8 (fun i k => k.pcc.toList.getD i 0)
      (fun i x k => { k with pcc := Vector.ofFn fun j => if j.val = i then x &&& pccMask else k.pcc[j] })
  ++ [{ off := 0x20538, get := fun k => BitVec.ofNat 64 k.kitty.base, set := fun x k => { k with kitty := { k.kitty with base := k.kitty.base / 2 ^ 64 * 2 ^ 64 + x.toNat } } },
      { off := 0x20540, get := fun k => BitVec.ofNat 64 k.kitty.size, set := fun x k => { k with kitty := { k.kitty with size := x.toNat } } },
      { off := 0x20548, get := fun k => BitVec.ofNat 64 (k.kitty.head % k.kitty.size) },
      { off := 0x20550, get := fun k => BitVec.ofNat 64 (k.kitty.tail % k.kitty.size) },
      { off := 0x20558, get := (·.barWord), set := Core.setBars },
      { off := 0x20560, get := fun k => wordOf [(k.frozen.toNat, 8), (k.discards, 8)]
        set := fun x k => { k with frozen := x.getLsbD 0, discards := fld x.toNat 8 8 } },
      { off := 0x20568, get := fun k => wordOf [(k.qTrump.length, 8), (k.qHigh.length, 8), (k.qNormal.length, 8), (k.qBulk.length, 8)] }]

/-- The parked-reply table of a core: its requests (R376). `thr` gives the thread of an engine command. -/
def parkedWords (thr : Nat → ThrIx) (k : Core) : List (Word × Word) :=
  k.reqs.map fun r =>
    let t : ThrIx := match r.owner with
      | .thread t | .saved _ t => t
      | .engine id => thr id
      | .gone => 0
    (wordOf [(r.txid.toNat, 16), (r.pkt.hdr.kind.toNat, 4), (t.toNat, 3), (1, 1)], r.pkt.words.getD 0 0)

/-- Bytes of words, from the lowest on. -/
def wordsBytes (ws : List Word) : List Byte := ws.flatMap fun w => leBytes 8 w.toNat

/-- One message of the inbox image written: its flits that have arrived. -/
def State.saveInbox (s : State) (rec : Nat → Nat) (k : Core) (m : Message) : State :=
  s.storeAt (fun o => rec (0x18000 + 16 * firstFlit m.id 0 k.inbox + o)) (wordsBytes (m.words.take (2 * m.arrived)))
    (m.poison.filter fun i => decide (i < 2 * m.arrived))

/-- A message with its payload read back from the inbox image. -/
def State.loadInbox (s : State) (rec : Nat → Nat) (first : Nat) (m : Message) : Message :=
  let n := Nat.min m.words.length (2 * m.arrived)
  let p (i : Nat) : Nat := rec (0x18000 + 16 * first + 8 * i)
  { m with words := (List.range n).map (fun i => s.word (p i)) ++ m.words.drop n
           poison := (List.range n).filter (fun i => s.poisoned (p i)) ++ m.poison.filter fun i => decide (n ≤ i) }

/-- A core written to its record, TCM first (R373, R374, R376). -/
def State.saveCore (s : State) (rec : Nat → Nat) (c : CoreIx) (k : Core) : State :=
  let s := (List.range 0x3000).foldl (fun s i =>
    s.storeWord (rec (8 * i)) (s.memWord (tcmPlace c (8 * i))) (BitVec.allOnes 16) (s.poisoned (tcmPlace c (8 * i)))) s
  let s := k.inbox.foldl (fun s m => s.saveInbox rec k m) s
  let s := ((List.range 8).zip k.threads.toList).foldl (fun s (t : Nat × Thread) =>
    let first := (t.2.msg.map fun m => firstFlit m.id 0 k.inbox).getD 0
    s.saveSlots (fun o => rec (0x1C000 + 0x800 * t.1 + o)) t.2 (threadSlots k.sup (BitVec.ofNat 3 t.1) first)) s
  let s := s.saveSlots rec k coreSlots
  let s := k.slots.foldl (fun s e =>
    let p (o : Nat) : Nat := rec (0x20600 + 32 * e.1 + o)
    (((s.put64 (p 0) (Header.lo e.2.hdr)).put64 (p 8) (Header.hi e.2.hdr)).put64 (p 16)
      (wordOf [(firstFlit e.2.id 0 k.inbox, 10), (e.2.arrived, 5)])).put64 (p 24) 0) s
  let parked := parkedWords (fun id => ((s.eng? (clusterOf c) id).map (·.thr)).getD 0) k
  (List.range 512).foldl (fun s i =>
    let w := parked.getD i (0, 0)
    (s.put64 (rec (0x22000 + 16 * i)) w.1).put64 (rec (0x22008 + 16 * i)) w.2) s

/-- A queue entry read back: header, flits arrived, payload. -/
def State.loadEntry (s : State) (rec : Nat → Nat) (e : Nat × Message) : Message :=
  let p (o : Nat) : Nat := rec (0x20600 + 32 * e.1 + o)
  let x := (s.word (p 16)).toNat
  let hdr := Header.ofNat ((s.word (p 0)).toNat + 2 ^ 64 * (s.word (p 8)).toNat)
  s.loadInbox rec (fld x 0 10) { e.2 with hdr := hdr, arrived := fld x 10 5 }

/-- The entries of a queue read back, as many as the record counts. -/
def State.loadQueue (s : State) (rec : Nat → Nat) (base lo : Nat) (q : List Message) : List Message :=
  ((List.range q.length).zip (q.take (fld (s.word (rec 0x20568)).toNat lo 8))).map fun e => s.loadEntry rec (base + e.1, e.2)

/-- A core read back from its record over what the cluster kept of it (R377, log 36). -/
def State.loadCore (s : State) (rec : Nat → Nat) (k : Core) : Core :=
  let th (t : ThrIx) : Thread :=
    let r (o : Nat) : Nat := rec (0x1C000 + 0x800 * t.toNat + o)
    let x := s.loadSlots r (k.thread t) (threadSlots k.sup t 0)
    s.loadReads r { x with msg := x.msg.map (s.loadInbox rec (fld (s.word (r 0x568)).toNat 18 10)), lanes := [] }
  { s.loadSlots rec k coreSlots with
    threads := Vector.ofFn fun i => th (BitVec.ofNat 3 i.val)
    qTrump := s.loadQueue rec 0 0 k.qTrump, qHigh := s.loadQueue rec 16 8 k.qHigh
    qNormal := s.loadQueue rec 80 16 k.qNormal, qBulk := s.loadQueue rec 144 24 k.qBulk }

/-- TCM of a core read back. -/
def State.loadTcm (s : State) (rec : Nat → Nat) (c : CoreIx) : State :=
  (List.range 0x3000).foldl (fun s i =>
    s.storeWord (tcmPlace c (8 * i)) (s.word (rec (8 * i))) (BitVec.allOnes 16) (s.poisoned (rec (8 * i)))) s

/-! ### The window (R371), the engine (R186, R187), the arrays (R298, R375) -/

/-- A whole-tile copy that keeps the directory entry (R167, R168). -/
def State.copyTile (s : State) (src dst : Nat) : State :=
  let e := s.entry src
  if entM e then ((s.putBytes dst (s.bytes src 4096)).markTile dst (s.poisonIn src 4096)).setEntry dst e else s.setTile dst e

/-- Whether a block that is half written must not be done again: atomics are not repeated, the entry of `xembed` is in the
sums (R186). -/
def EngCmd.oneWay (k : EngCmd) : Bool :=
  k.reqs.isEmpty && decide (wrBase ≤ k.sub) && match k.insn with
    | .xscatter _ acc _ _ _ _ _ _ _ => acc
    | .xembed .. => true
    | _ => false

/-- An active command at its last boundary: every request before it has its final reply; a failure after it is not yet one. It
becomes active again after the RESTORE (R186, R187). -/
def EngCmd.checkpoint (k : EngCmd) : EngCmd :=
  match k.phase with
  | .queued => k
  | .ended => { k with phase := .queued, was := some .ended }
  | .slot => { k with phase := .queued, was := some .slot, sub := if k.reqs.isEmpty then k.sub else k.sub - 1, reqs := [] }
  | .desc => { k with phase := .queued, was := some .desc }
  | .work =>
    let k' := { k with phase := .queued, was := some .work }
    if k.oneWay then k'
    else
      let b := k.reqs.foldl (fun b r => Nat.min b (r.order / 2 ^ 33)) k.pos
      { k' with pos := b, sub := 0, stage := [], spsn := [], ent := none, reqs := []
                fail := if k.failAt / 2 ^ 33 < b then k.fail else none
                doneUnits := match k.insn with
                  | .xembed .. => k.doneUnits
                  | _ => Nat.min k.doneUnits b }

/-- Whether a command of a save is active: LIVE of its record. -/
def EngCmd.live (k : EngCmd) : Bool := decide (k.phase ≠ .queued) || k.was.isSome

/-- The words of a restart record (Table 6.9). -/
def engSlots : List (Slot EngCmd) :=
  [{ off := 0, get := fun k => BitVec.ofNat 64 ((encode k.insn).getD 0)
     set := fun x k => { k with insn := (decodeTableWord 64 x.toNat).getD k.insn } },
   { off := 8, get := (·.dv), set := fun x k => { k with dv := x } },
   { off := 16, get := (·.av), set := fun x k => { k with av := x } },
   { off := 24, get := (·.bv), set := fun x k => { k with bv := x } },
   { off := 32, get := (·.cv), set := fun x k => { k with cv := x } },
   { off := 40, get := fun k => wordOf [(k.pos, 32), ((coreOf k.core).toNat, 7), (k.thr.toNat, 3), (k.psn.toNat, 1),
       (k.live.toNat, 1)]
     set := fun x k =>
       let k := if fld x.toNat 0 32 = k.pos then k else { k with pos := fld x.toNat 0 32, sub := 0, stage := [], spsn := [], ent := none }
       { k with core := coreIx (clusterOf k.core) (x.extractLsb' 32 7), thr := x.extractLsb' 39 3, psn := x.getLsbD 42
                was := if x.getLsbD 43 then k.was else none } },
   { off := 48, get := (·.tdesc), set := fun x k => { k with tdesc := x } },
   { off := 56, get := fun k => wordOf [(k.bag, 32), (k.bagEntry, 32)]
     set := fun x k => { k with bag := fld x.toNat 0 32, bagEntry := fld x.toNat 32 32 } }]

/-- Commands in the order of their records: active, then queued. -/
def engOrder (ks : List EngCmd) : List EngCmd :=
  ks.filter EngCmd.live ++ ks.filter fun k => !k.live

/-- The restart records and the partial sums written. -/
def State.saveEng (s : State) (a : SaveArea) (ks : List EngCmd) : State :=
  ((List.range ks.length).zip ks).foldl (fun s e =>
    let s := s.saveSlots (fun o => a.place (0x1000 + 64 * e.1 + o)) e.2 engSlots
    if e.1 < 16 then
      s.storeAt (fun o => a.place (0x2000 + 4096 * e.1 + o)) (e.2.sums.flatMap fun x => leBytes 4 x) []
    else s) s

/-- They are read back, as many as the header counts. -/
def State.loadEng (s : State) (a : SaveArea) (ks : List EngCmd) : List EngCmd :=
  ((List.range ks.length).zip (ks.take (fld (s.word (a.place 32)).toNat 8 8))).map fun e =>
    let k := s.loadSlots (fun o => a.place (0x1000 + 64 * e.1 + o)) e.2 engSlots
    let sum (j : Nat) : Nat := fld (s.word (a.place (0x2000 + 4096 * e.1 + j / 2 * 8))).toNat (32 * (j % 2)) 32
    if e.1 < 16 then { k with sums := (List.range k.sums.length).map sum } else k

/-- The 64 bits of a list of bit numbers from 64 i on. -/
def bitWord (bs : List Nat) (i : Nat) : Word :=
  BitVec.ofNat 64 ((bs.filter fun b => decide (b / 64 = i)).eraseDups.foldl (fun x b => x + 2 ^ (b % 64)) 0)

/-- The words of a bank in a record. -/
def bankWords (acc : SMap (BitVec 32)) : List Word :=
  let ds := denseRun acc 0 8192
  let rec go : Nat → List (BitVec 32) → List Word
    | n + 1, x :: y :: r => (y ++ x : BitVec 64) :: go n r
    | _, _ => []
  go 4096 ds

/-- An array written to its record (Table 14.11). -/
def State.saveArray (s : State) (rec : Nat → Nat) (m : MatArray) : State :=
  let s := s.storeAt rec (wordsBytes (bankWords m.acc0 ++ bankWords m.acc1)) []
  let s := (List.range 256).foldl (fun s i =>
    s.put64 (rec (0x10000 + 8 * i)) (if i < 128 then bitWord m.psn0 i else bitWord m.psn1 (i - 128))) s
  let s := s.put64 (rec 0x10800) (wordOf [(m.int0.toNat, 1), (m.int1.toNat, 1), (0, 30), (m.x.toNat, 32)])
  let s := s.put64 (rec 0x10808) (BitVec.ofNat 64 m.cmds.length)
  ((List.range m.cmds.length).zip m.cmds).foldl (fun s e =>
    let k := e.2
    [BitVec.ofNat 64 ((encode k.insn).getD 0), k.av, k.bv, k.cv, k.dv,
      wordOf [(k.frm.toNat, 2), ((coreOf k.core).toNat, 7), (k.thr.toNat, 3)]].zipIdx.foldl
        (fun s w => s.put64 (rec (0x10810 + 48 * e.1 + 8 * w.2)) w.1) s) s

/-- A bank read back. -/
def State.loadBank (s : State) (rec : Nat → Nat) (base : Nat) : SMap (BitVec 32) :=
  sparseRun 0 ((List.range 4096).flatMap fun i =>
    let w := s.word (rec (base + 8 * i))
    [w.extractLsb' 0 32, w.extractLsb' 32 32])

/-- The set bits among n words. -/
def State.loadBits (s : State) (rec : Nat → Nat) (base n : Nat) : List Nat :=
  (List.range n).flatMap fun i => ((List.range 64).filter fun b => (s.word (rec (base + 8 * i))).getLsbD b).map (64 * i + ·)

/-- An array read back. -/
def State.loadArray (s : State) (rec : Nat → Nat) (m : MatArray) : MatArray :=
  let t := s.word (rec 0x10800)
  let cells (base : Nat) (int : Bool) : SMap (BitVec 32) := if int then s.loadBank rec base else fpBank (s.loadBank rec base)
  { m with acc0 := cells 0 (t.getLsbD 0), acc1 := cells 0x8000 (t.getLsbD 1)
           psn0 := s.loadBits rec 0x10000 128, psn1 := s.loadBits rec 0x10400 128
           int0 := t.getLsbD 0, int1 := t.getLsbD 1, x := t.extractLsb' 32 32
           cmds := ((List.range m.cmds.length).zip (m.cmds.take (s.word (rec 0x10808)).toNat)).map fun e =>
             let w (i : Nat) : Word := s.word (rec (0x10810 + 48 * e.1 + 8 * i))
             { e.2 with insn := (decodeTableWord 64 (w 0).toNat).getD e.2.insn, av := w 1, bv := w 2, cv := w 3, dv := w 4
                        frm := (w 5).extractLsb' 0 2, core := coreIx (clusterOf e.2.core) ((w 5).extractLsb' 2 7)
                        thr := (w 5).extractLsb' 9 3 } }

/-- The places of the record of an array. -/
def arrayRecord (a : SaveArea) (n o : Nat) : Nat := a.place (0x12000 + 0x11000 * n + o)

/-! ### PREEMPT (R367, Table 14.6) -/

/-- The arrays of a cluster that a job owns. -/
def State.ownedArrays (s : State) (cl : BitVec 8) (job : BitVec 8) : List (BitVec 2) :=
  ((List.range 4).map (BitVec.ofNat 2)).filter fun i => s.ownsArray cl i job

/-- Bytes of a save area (R371). -/
def areaBytes (tiles : Nat) : Nat := 0x1300000 + 4096 * tiles

/-- The tiles of a team's window. -/
def State.teamTiles (s : State) (cl : BitVec 8) (job : BitVec 8) : Nat := ((s.team cl job).head?.map fun c => (s.core c).winTiles).getD 0

/-- A save area at a VA: 4 KiB-aligned, wholly in unpaged HBM ranges of the system job. -/
def State.areaAt (s : State) (cl : BitVec 8) (va n : Nat) : Option SaveArea :=
  let part := s.partOf cl
  if va % 4096 ≠ 0 ∨ 2 ^ 48 < va + n ∨ n = 0 then none
  else
    let units := (List.range ((va + n - 1) / mib2 - va / mib2 + 1)).mapM fun i =>
      let u := (va / mib2 + i) * mib2
      match s.rangeOf 0 part u with
      | some (_, l, h) =>
        if rngP l ∨ rngTgt l ≠ 0 ∨ rngJob l ≠ 0 then none
        else s.ownedRun part 0 0 (rngTbase h * mib2 + (u - rngBase l * mib2)) mib2
      | none => none
    units.map fun us => { off := va % mib2, units := us }

/-- The labels armed on a core. -/
def Core.armed (k : Core) : List Nat := (k.trig.filter fun e => trgEn e.2).map (·.1)

/-- PREEMPT: the checks, then the grace begins and the dealer starts nothing for the team. A job that is already in its
grace is answered STATE (log 35). -/
def execPreempt (n : Nat) (s : State) : Out :=
  s.control n (opIs 0x12) fun s f =>
    let cl := clusterOf (Header.dst f.p.hdr)
    let job := ctlJob f
    let g := fld (ctlWord f 0).toNat 16 7
    let us := if g = 0 then 20 else Nat.min g 100
    if (s.team cl job).isEmpty then s.ctlReply f ctlNoJob
    else if (s.cluster cl).grace.any fun x => decide (x.job = job) then s.ctlReply f ctlState
    else match s.areaAt cl (ctlWord f 1).toNat (areaBytes (s.teamTiles cl job)) with
      | none => s.ctlReply f ctlArea
      | some a =>
        s.modCluster cl fun x => { x with grace := x.grace ++
          [{ job := job, area := a, until_ := s.cycle.toNat + us * s.us10 / 10, src := f.p.hdr.src, lab := (ctlWord f 0).extractLsb' 0 7
             en := (s.team cl job).map fun c => (c.toNat, (s.core c).armed) }] }

/-- A thread that stops: its uncommitted entries commit as one commit, SPLIT is set (R342). -/
def State.stopThread (s : State) (c : CoreIx) (t : ThrIx) : State :=
  if entriesSize (s.getTh c t).buf = 0 then s
  else (s.modTh c t fun th => { th with split := true }).commitThread c t

/-- A frozen core of a team that is being saved: what is left of its commits is discarded and counted (R367). -/
def Core.dropCommits (k : Core) : Core :=
  if k.frozen then
    { k with discards := Nat.min 255 (k.discards + (k.threads.toList.map fun th => entriesSize (th.held.map (·.e))).sum)
             threads := k.threads.map fun th => { th with held := [] } }
  else k

/-- Steps 3 to 6 begin: the threads of the team stop; a core that is not frozen commits (R342, R367). -/
def State.stopTeam (s : State) (cl : BitVec 8) (job : BitVec 8) : State :=
  let s := s.modCluster cl fun x => { x with grace := x.grace.map fun g => if g.job = job then { g with stopping := true } else g }
  (s.team cl job).foldl (fun s c =>
    let s := s.modCore c fun k => { k.dropCommits with held := true }
    if (s.core c).frozen then s else (List.range 8).foldl (fun s t => s.stopThread c (BitVec.ofNat 3 t)) s) s

/-- Whether steps 3 to 6 are over: every commit applied and injected, no engine atomic on its way, no array command
started (R186, R298, R367). -/
def State.settled (s : State) (cl : BitVec 8) (job : BitVec 8) : Bool :=
  let x := s.cluster cl
  let ids := (x.eng.filter fun k => decide (k.job = job)).map (·.id)
  (s.team cl job).all (fun c =>
      (s.core c).threads.toList.all Thread.drained
        && (s.core c).reqs.all fun r => match r.owner with
            | .engine id => !(ids.contains id && decide (3 ≤ r.pkt.hdr.kind.toNat))
            | _ => true)
    && (s.ownedArrays cl job).all fun i => (s.mat cl i).cmds.all fun k => !k.started

/-- Requests of a core as those of its saved context; reads and plain writes of the engine are abandoned (R186, R376). -/
def Req.parked (ids : List Nat) (job : BitVec 8) (r : Req) : Req :=
  match r.owner with
  | .thread t => { r with owner := .saved job t }
  | .engine id => if ids.contains id then { r with owner := .gone } else r
  | .saved .. | .gone => r

/-- A core after its context is saved: free; its requests, and flits of dropped messages, go on. -/
def Core.vacated (k : Core) (ids : List Nat) : Core :=
  { k.returned with threads := Vector.replicate 8 {}, reqs := k.reqs.map (Req.parked ids k.job), drops := k.drops }

/-- A core as its record shows it: EN as step 1 recorded it, a barrier slot for every group of the core (R367, R373). -/
def Core.recorded (k : Core) (en : List Nat) (grps : List Nat) : Core :=
  { k with trig := k.trig.map fun e => (e.1, if en.contains e.1 then e.2 ||| (1#64 <<< 38) else e.2 &&& ~~~ (1#64 <<< 38))
           bars := grps.foldl (fun m g => SMap.set g (SMap.get BarSt.idle k.bars g) m) k.bars }

/-- The groups of a job that a core belongs to (R325). -/
def State.groupsOf (s : State) (c : CoreIx) (job : BitVec 8) : List Nat :=
  (s.groups.filter fun g => decide (g.2.job = job) && g.2.members.contains c).map (·.1)

/-- The header of a save area (Table 14.8). -/
def State.saveHeader (s : State) (cl : BitVec 8) (g : Grace) (arrays engs : Nat) : State :=
  let team := s.team cl g.job
  let k := ((team.head?.map s.core).getD {})
  let bits (lo : Nat) : Nat := (team.filter fun c => decide ((coreOf c).toNat / 64 = lo)).foldl (fun x c => x + 2 ^ ((coreOf c).toNat % 64)) 0
  let put (s : State) (o : Nat) (x : Word) : State := s.put64 (g.area.place o) x
  let s := (List.range 512).foldl (fun s i => put s (8 * i) 0) s
  let s := put s 0 (wordOf [(0x45564153, 32), (1, 16), (g.job.toNat, 8), (cl.toNat, 8)])
  let s := put (put s 8 (BitVec.ofNat 64 (bits 0))) 16 (BitVec.ofNat 64 (bits 1))
  let s := put s 24 (wordOf [(k.winBase, 32), (k.winTiles, 32)])
  put (put s 32 (wordOf [(arrays, 8), (engs, 8)])) 40 s.cycle

/-- The save area written: header, engine records, array records, core records, the window (R371 to R376). -/
def State.writeArea (s : State) (cl : BitVec 8) (g : Grace) (mine : List EngCmd) (arrs : List (BitVec 2)) : State :=
  let a := g.area
  let team := s.team cl g.job
  let base := (team.head?.map fun c => (s.core c).winBase).getD 0
  let tiles := s.teamTiles cl g.job
  let s := s.saveHeader cl g (arrs.foldl (fun n i => n + 2 ^ i.toNat) 0) mine.length
  let s := s.saveEng a mine
  let s := arrs.foldl (fun s i => s.saveArray (arrayRecord a i.toNat) (s.mat cl i)) s
  let s := team.foldl (fun s c => s.saveCore (coreRecord a (s.core c).rank.toNat) c (s.core c)) s
  (List.range tiles).foldl (fun s i => s.copyTile (spadPlace cl (4096 * (base + i))) (windowCopy a (4096 * i))) s

/-- A saved team is gone from its cluster: cores and arrays are free, arrivals go to the saved team. -/
def State.vacate (s : State) (cl : BitVec 8) (g : Grace) (v : Saved) (arrs : List (BitVec 2)) : State :=
  let ids := v.eng.map (·.id)
  let s := (s.team cl g.job).foldl (fun s c => s.modCore c fun k => k.vacated ids) s
  let s := arrs.foldl (fun s i => s.modMat cl i fun _ => {}) s
  s.modCluster cl fun x => { x with
    eng := x.eng.filter (fun k => decide (k.job ≠ g.job)), land := x.land.filter (fun l => !ids.contains l.owner)
    aown := arrs.foldl (fun w i => setBits (setBits w (8 * i.toNat) 8 0) (32 + i.toNat) 1 0) x.aown
    saved := x.saved ++ [v], grace := x.grace.filter fun h => decide (h.job ≠ g.job) }

/-- Step 7: the area is written, cores and arrays are free, arrivals go to the saved team; the answer OK with the bytes. -/
def State.saveTeam (s : State) (cl : BitVec 8) (g : Grace) : State :=
  let s := (s.team cl g.job).foldl (fun s c => s.modCore c fun k =>
    k.recorded (SMap.get [] g.en c.toNat) (s.groupsOf c g.job)) s
  let mine := engOrder (((s.cluster cl).eng.filter fun k => decide (k.job = g.job)).map EngCmd.checkpoint)
  let arrs := s.ownedArrays cl g.job
  let v : Saved := { job := g.job, area := g.area, cores := (s.team cl g.job).map fun c => (c.toNat, s.core c), eng := mine
                     arrays := arrs.map fun i => (i.toNat, s.mat cl i) }
  ((s.writeArea cl g mine arrs).vacate cl g v arrs).ctlReplyTo g.src g.lab (coreIx cl 0) ctlOk (areaBytes (s.teamTiles cl g.job))

/-- PREEMPT_GRACE_END: the first team of the cluster whose grace is over stops, and once it has settled is saved (R367). -/
def execPreemptGraceEnd (cl : BitVec 8) (s : State) : Out :=
  match (s.cluster cl).grace.find? fun g => decide (g.until_ ≤ s.cycle.toNat) with
  | none => .next s
  | some g =>
    if !g.stopping then .next (s.stopTeam cl g.job)
    else
      let s := (s.team cl g.job).foldl (fun s c => s.modCore c Core.dropCommits) s
      if s.settled cl g.job then .next (s.saveTeam cl g) else .next s

/-! ### RESTORE and RESUME (R377) -/

/-- Whether a saved team may come back: the header names it, its cores and arrays are free, it is not present. -/
def State.mayRestore (s : State) (cl : BitVec 8) (job : BitVec 8) (v : Saved) (a : SaveArea) : Bool :=
  let w (o : Nat) : Nat := (s.word (a.place o)).toNat
  let n (c : Nat) : Bool := (SMap.find v.cores (coreIx cl (BitVec.ofNat 7 c)).toNat).isSome
  decide (fld (w 0) 48 8 = job.toNat) && decide (fld (w 0) 56 8 = cl.toNat)
    && (List.range 128).all (fun c => decide (fld (w (8 + c / 64 * 8)) (c % 64) 1 = 1) == n c)
    && v.cores.all (fun e => !((s.core (BitVec.ofNat 15 e.1)).member && decide ((s.core (BitVec.ofNat 15 e.1)).job ≠ 0)))
    && v.arrays.all (fun e => !aownSet (s.cluster cl).aown e.1) && (s.team cl job).isEmpty

/-- The requests of a saved context rejoin their core (R377). -/
def Req.rejoined (job : BitVec 8) (r : Req) : Req :=
  match r.owner with
  | .saved j t => if j = job then { r with owner := .thread t } else r
  | _ => r

/-- The landing range that a restored command keeps (R187). -/
def State.heldRange (s : State) (k : EngCmd) : Option Landing :=
  if k.was = some .work then (s.target k).map fun r => landingOf r.1 r.2 k.id else none

/-- A saved team comes back from a save area; it is held until RESUME. -/
def State.restoreTeam (s : State) (cl : BitVec 8) (v : Saved) (a : SaveArea) : State :=
  let rec_ (k : Core) : Nat → Nat := coreRecord a k.rank.toNat
  let s := v.cores.foldl (fun s e =>
    let c : CoreIx := BitVec.ofNat 15 e.1
    let s := s.loadTcm (rec_ e.2) c
    let old := s.core c
    s.setCore c { s.loadCore (rec_ e.2) e.2 with
      held := true, reqs := old.reqs.map (Req.rejoined v.job), quarantine := old.quarantine, lastTrump := old.lastTrump, drops := old.drops
      lastIssue := old.lastIssue, lastStart := old.lastStart, lastSink := old.lastSink, spread := old.spread }) s
  let tiles := (v.cores.head?.map fun e => e.2.winTiles).getD 0
  let base := (v.cores.head?.map fun e => e.2.winBase).getD 0
  let s := (List.range tiles).foldl (fun s i => s.copyTile (windowCopy a (4096 * i)) (spadPlace cl (4096 * (base + i)))) s
  let s := v.arrays.foldl (fun s e => s.modMat cl (BitVec.ofNat 2 e.1) fun _ => s.loadArray (arrayRecord a e.1) e.2) s
  let eng := s.loadEng a v.eng
  s.modCluster cl fun x => { x with
    eng := x.eng ++ eng, land := x.land ++ eng.filterMap s.heldRange
    aown := v.arrays.foldl (fun w e => setBits (setBits w (8 * e.1) 8 v.job.toNat) (32 + e.1) 1 1) x.aown
    saved := x.saved.filter fun u => decide (u.job ≠ v.job) }

/-- The team that a RESTORE names, if it is saved in its cluster. -/
def State.savedFor (s : State) (f : Flight) : Option Saved := s.savedOf (clusterOf (Header.dst f.p.hdr)) (ctlJob f)

/-- RESTORE: AREA for an area that is none or whose magic or version is wrong, STATE, or the load and OK; it waits while the
engine's queue has no room for the saved commands (R155). -/
def execRestore (n : Nat) (s : State) : Out :=
  s.control n (fun f => opIs 0x13 f && (s.savedFor f).all fun v =>
      decide ((s.cluster (clusterOf (Header.dst f.p.hdr))).eng.length + v.eng.length ≤ 64)) fun s f =>
    let cl := clusterOf (Header.dst f.p.hdr)
    let job := ctlJob f
    let tiles := ((s.savedOf cl job).bind fun v => v.cores.head?.map fun e => e.2.winTiles).getD 0
    match s.areaAt cl (ctlWord f 1).toNat (areaBytes tiles) with
    | none => s.ctlReply f ctlArea
    | some a =>
      let w := (s.word (a.place 0)).toNat
      if fld w 0 32 ≠ 0x45564153 ∨ fld w 32 16 ≠ 1 then s.ctlReply f ctlArea
      else match s.savedOf cl job with
        | none => s.ctlReply f ctlState
        | some v => if s.mayRestore cl job v a then (s.restoreTeam cl v a).ctlReply f ctlOk else s.ctlReply f ctlState

/-- RESUME: the restored team runs; JOB when the job has no team there, STATE when it is not one that waits (log 36). -/
def execResume (n : Nat) (s : State) : Out :=
  s.control n (opIs 0x14) fun s f =>
    let cl := clusterOf (Header.dst f.p.hdr)
    let job := ctlJob f
    let team := s.team cl job
    let open_ := match SMap.find s.jobs job.toNat with
      | some j => j.gate
      | none => false
    if team.isEmpty then s.ctlReply f ctlNoJob
    else if !open_ || team.any (fun c => !(s.core c).held) || (s.cluster cl).grace.any (fun g => decide (g.job = job)) then s.ctlReply f ctlState
    else (team.foldl (fun s c => s.modCore c fun k => { k with held := false }) s).ctlReply f ctlOk

end Sys2Proof.Machine
end

