-- ==== Sys2Proof/Machine/Vector.lean ====
section
/-! DEFINITION. The vector instructions that compute: integer, floating point, compares, conversions, special
functions, permutes, reductions, shifts and moves (R261 to R274). -/

namespace Sys2Proof.Machine

/-- The elements of width w of a vector register (R261). -/
def vElems (w : Nat) (v : Vec) : List Nat := elemsOf w 512 v.toNat
/-- The vector register of elements, from element 0 up. -/
def ofElems (w : Nat) (es : List Nat) : Vec := BitVec.ofNat 512 (packElems w es)
/-- Whether element n of width w lies in a lane that the predicate enables (R262). -/
def elemOn (q : Byte) (w n : Nat) : Bool := q.getLsbD (n * w / 64)

/-- The flags of elements ORed (R34). -/
def orFlags (fs : List Flags) : Flags := fs.foldl (· ||| ·) 0

/-- The pattern VOP of R262 over element numbers: enabled elements get the value and raise the flags, the
others keep D. -/
def vop (w : Nat) (q : Byte) (d : Vec) (op : Nat → Nat × Flags) : Vec × Flags :=
  let rs := (List.range (512 / w)).map fun n =>
    if elemOn q w n then op n else (elemOf w n d.toNat, 0)
  (ofElems w (rs.map (·.1)), orFlags (rs.map (·.2)))

/-- The vector and the flags written as an instruction retires. -/
def State.vdone (s : State) (vd : VReg) (r : Vec × Flags) : Out :=
  .next (s.setTh (((s.th.advance 4).setVreg vd r.1).raise r.2))

/-- An element-wise instruction: `op` of the elements A, B and D (R262). -/
def State.vmap (s : State) (w : Nat) (vd va vb : VReg) (qp : QReg) (op : Nat → Nat → Nat → Nat × Flags) : Out :=
  let a := (s.th.vreg va).toNat
  let b := (s.th.vreg vb).toNat
  let d := s.th.vreg vd
  s.vdone vd (vop w (s.th.qreg qp) d fun n => op (elemOf w n a) (elemOf w n b) (elemOf w n d.toNat))

/-- An integer entry: exact values in, a pattern and flags out (R264). -/
def State.vint (s : State) (ty : VTy) (vd va vb : VReg) (qp : QReg) (op : IFmt → Nat → Nat → Nat × Flags) : Out :=
  s.vmap (VTy.width ty) vd va vb qp fun a b _ => op (VTy.ifmt ty) a b

/-- `vaddInt` (R264). -/
def execVaddInt (ty : VTy) (vd va vb : VReg) (qp : QReg) (s : State) : Out :=
  s.vint ty vd va vb qp fun i a b => (wrap i.w (i.val a + i.val b), 0)
/-- `vsubInt` (R264). -/
def execVsubInt (ty : VTy) (vd va vb : VReg) (qp : QReg) (s : State) : Out :=
  s.vint ty vd va vb qp fun i a b => (wrap i.w (i.val a - i.val b), 0)
/-- `vmulInt` (R264). -/
def execVmulInt (ty : VTy) (vd va vb : VReg) (qp : QReg) (s : State) : Out :=
  s.vint ty vd va vb qp fun i a b => (wrap i.w (i.val a * i.val b), 0)
/-- `vmulh` (R264). -/
def execVmulh (ty : VTy) (vd va vb : VReg) (qp : QReg) (s : State) : Out :=
  s.vint ty vd va vb qp fun i a b => (wrap i.w (i.val a * i.val b / (2 ^ i.w : Nat)), 0)
/-- `vadds` (R264). -/
def execVadds (ty : VTy) (vd va vb : VReg) (qp : QReg) (s : State) : Out :=
  s.vint ty vd va vb qp fun i a b => i.clamp (i.val a + i.val b)
/-- `vsubs` (R264). -/
def execVsubs (ty : VTy) (vd va vb : VReg) (qp : QReg) (s : State) : Out :=
  s.vint ty vd va vb qp fun i a b => i.clamp (i.val a - i.val b)
/-- `vminInt` (R264). -/
def execVminInt (ty : VTy) (vd va vb : VReg) (qp : QReg) (s : State) : Out :=
  s.vint ty vd va vb qp fun i a b => (if i.val a ≤ i.val b then a else b, 0)
/-- `vmaxInt` (R264). -/
def execVmaxInt (ty : VTy) (vd va vb : VReg) (qp : QReg) (s : State) : Out :=
  s.vint ty vd va vb qp fun i a b => (if i.val a ≤ i.val b then b else a, 0)
/-- `vand` (R264). -/
def execVand (ty : VTy) (vd va vb : VReg) (qp : QReg) (s : State) : Out :=
  s.vint ty vd va vb qp fun _ a b => (a &&& b, 0)
/-- `vor` (R264). -/
def execVor (ty : VTy) (vd va vb : VReg) (qp : QReg) (s : State) : Out :=
  s.vint ty vd va vb qp fun _ a b => (a ||| b, 0)
/-- `vxor` (R264). -/
def execVxor (ty : VTy) (vd va vb : VReg) (qp : QReg) (s : State) : Out :=
  s.vint ty vd va vb qp fun _ a b => (a ^^^ b, 0)
/-- `vabsInt` (R264). -/
def execVabsInt (ty : VTy) (vd va : VReg) (qp : QReg) (s : State) : Out :=
  s.vint ty vd va va qp fun i a _ => (wrap i.w (i.val a).natAbs, 0)
/-- `vnegInt` (R264). -/
def execVnegInt (ty : VTy) (vd va : VReg) (qp : QReg) (s : State) : Out :=
  s.vint ty vd va va qp fun i a _ => (wrap i.w (-(i.val a)), 0)

/-- A floating-point entry that rounds (R265). -/
def State.vfp (s : State) (f : FFmt) (rm : Rm) (vd va vb : VReg) (qp : QReg)
    (op : FF → RMode → Nat → Nat → Nat → Nat × Flags) : Out :=
  let mode := Rm.mode s.th.frm 0 rm
  s.vmap (FFmt.ff f).width vd va vb qp fun a b d => op (FFmt.ff f) mode a b d

/-- `vaddFp` (R265). -/
def execVaddFp (f : FFmt) (rm : Rm) (vd va vb : VReg) (qp : QReg) (s : State) : Out :=
  s.vfp f rm vd va vb qp fun f m a b _ => FF.add f m a b
/-- `vsubFp` (R265). -/
def execVsubFp (f : FFmt) (rm : Rm) (vd va vb : VReg) (qp : QReg) (s : State) : Out :=
  s.vfp f rm vd va vb qp fun f m a b _ => FF.sub f m a b
/-- `vmulFp` (R265). -/
def execVmulFp (f : FFmt) (rm : Rm) (vd va vb : VReg) (qp : QReg) (s : State) : Out :=
  s.vfp f rm vd va vb qp fun f m a b _ => FF.mul f m a b
/-- `vfma` (R265). -/
def execVfma (f : FFmt) (rm : Rm) (vd va vb : VReg) (qp : QReg) (s : State) : Out :=
  s.vfp f rm vd va vb qp fun f m a b d => FF.fma f m a b d
/-- `vfms` (R265). -/
def execVfms (f : FFmt) (rm : Rm) (vd va vb : VReg) (qp : QReg) (s : State) : Out :=
  s.vfp f rm vd va vb qp fun f m a b d => FF.fma f m a b (FF.neg f d)
/-- `vfnma` (R265). -/
def execVfnma (f : FFmt) (rm : Rm) (vd va vb : VReg) (qp : QReg) (s : State) : Out :=
  s.vfp f rm vd va vb qp fun f m a b d => FF.fma f m (FF.neg f a) b d
/-- `vdiv` (R269). -/
def execVdiv (f : FFmt) (rm : Rm) (vd va vb : VReg) (qp : QReg) (s : State) : Out :=
  s.vfp f rm vd va vb qp fun f m a b _ => FF.div f m a b
/-- `vminFp` (R37, R265). -/
def execVminFp (f : FFmt) (vd va vb : VReg) (qp : QReg) (s : State) : Out :=
  s.vmap (FFmt.ff f).width vd va vb qp fun a b _ => FF.minmax (FFmt.ff f) false false a b
/-- `vmaxFp` (R37, R265). -/
def execVmaxFp (f : FFmt) (vd va vb : VReg) (qp : QReg) (s : State) : Out :=
  s.vmap (FFmt.ff f).width vd va vb qp fun a b _ => FF.minmax (FFmt.ff f) true false a b
/-- `vminn` (R37, R265). -/
def execVminn (f : FFmt) (vd va vb : VReg) (qp : QReg) (s : State) : Out :=
  s.vmap (FFmt.ff f).width vd va vb qp fun a b _ => FF.minmax (FFmt.ff f) false true a b
/-- `vmaxn` (R37, R265). -/
def execVmaxn (f : FFmt) (vd va vb : VReg) (qp : QReg) (s : State) : Out :=
  s.vmap (FFmt.ff f).width vd va vb qp fun a b _ => FF.minmax (FFmt.ff f) true true a b
/-- `vabsFp`: the sign bit alone (R22, R265). -/
def execVabsFp (f : FFmt) (vd va : VReg) (qp : QReg) (s : State) : Out :=
  s.vmap (FFmt.ff f).width vd va va qp fun a _ _ => (FF.abs (FFmt.ff f) a, 0)
/-- `vnegFp`: the sign bit alone (R22, R265). -/
def execVnegFp (f : FFmt) (vd va : VReg) (qp : QReg) (s : State) : Out :=
  s.vmap (FFmt.ff f).width vd va va qp fun a _ _ => (FF.neg (FFmt.ff f) a, 0)
/-- `vcsgn`: the sign bit of B on A (R265). -/
def execVcsgn (f : FFmt) (vd va vb : VReg) (qp : QReg) (s : State) : Out :=
  s.vmap (FFmt.ff f).width vd va vb qp fun a b _ => (FF.csgn (FFmt.ff f) a b, 0)

/-! ### Compares (R266) -/

/-- A condition on two integers. -/
def VCond.int (c : VCond) (a b : Int) : Bool :=
  match c with
  | .eq => decide (a = b) | .ne => decide (a ≠ b) | .lt => decide (a < b) | .le => decide (a ≤ b)
  | .gt => decide (b < a) | .ge => decide (b ≤ a) | .uno => false | .ord => true

/-- Conditions that set NV for any NaN. -/
def VCond.signals : VCond → Bool
  | .lt | .le | .gt | .ge => true
  | _ => false

/-- A condition on two floating-point patterns, and NV where it is raised. -/
def VCond.fp (c : VCond) (f : FF) (a b : Nat) : Bool × Flags :=
  let x := f.read a
  let y := f.read b
  let nan := x.isNan || y.isNan
  let nv : Flags := if (nan && VCond.signals c) || x.isSig || y.isSig then fNV else 0
  let r := match c with
    | .eq => !nan && f.eqv a b
    | .ne => nan || !f.eqv a b
    | .lt => !nan && f.lt a b
    | .le => !nan && !f.lt b a
    | .gt => !nan && f.lt b a
    | .ge => !nan && !f.lt a b
    | .uno => nan
    | .ord => !nan
  (r, nv)

/-- A condition on two elements of a type. -/
def VCond.elem (c : VCond) (ty : VTy) (a b : Nat) : Bool × Flags :=
  match vtyFmt ty with
  | .flt f => VCond.fp c f a b
  | _ => (VCond.int c ((VTy.ifmt ty).val a) ((VTy.ifmt ty).val b), 0)

/-- `vcmp`: one bit per lane (R266). -/
def execVcmp (cond : VCond) (ty : VTy) (qd : QReg) (va vb : VReg) (qp : QReg) (s : State) : Out :=
  let w := VTy.width ty
  let a := (s.th.vreg va).toNat
  let b := (s.th.vreg vb).toNat
  let q := s.th.qreg qp
  let rs := (List.range (512 / w)).map fun n => (n * w / 64, VCond.elem cond ty (elemOf w n a) (elemOf w n b))
  let on := rs.filter fun r => q.getLsbD r.1
  let bits := (List.range 8).map fun i => if q.getLsbD i && on.all fun r => r.1 != i || r.2.1 then 1 else 0
  .next (s.setTh (((s.th.advance 4).setQreg qd (BitVec.ofNat 8 (packElems 1 bits))).raise (orFlags (on.map (·.2.2)))))

/-! ### Conversions (R267, R268) -/

/-- The source element of target element n, by part: none where the target is not written (R268). -/
def cvtSource (ws wt p n : Nat) : Option Nat :=
  if ws = wt then some n
  else if wt < ws then
    let ns := 512 / ws
    if p * ns ≤ n ∧ n < p * ns + ns then some (n - p * ns) else none
  else some (p * (512 / wt) + n)

/-- `vcvt` (R268). -/
def execVcvt (src dst : VTy) (ns : Bool) (rm : Rm) (vd va : VReg) (part qp : BitVec 3) (s : State) : Out :=
  let ws := VTy.width src
  let wt := VTy.width dst
  let a := (s.th.vreg va).toNat
  let d := s.th.vreg vd
  let mode := Rm.mode s.th.frm 0 rm
  s.vdone vd (vop wt (s.th.qreg qp) d fun n =>
    match cvtSource ws wt part.toNat n with
    | some m => convert (vtyFmt src) (vtyFmt dst) ns mode (elemOf ws m a)
    | none => (elemOf wt n d.toNat, 0))

/-! ### Special functions (R269) -/

/-- A unary special function. -/
def State.vspec (s : State) (f : FFmt) (rm : Rm) (vd va : VReg) (qp : QReg) (op : FF → RMode → Nat → Nat × Flags) : Out :=
  s.vfp f rm vd va va qp fun f m a _ _ => op f m a

/-- `vrcp` (R38, R269). -/
def execVrcp (f : FFmt) (rm : Rm) (vd va : VReg) (qp : QReg) (s : State) : Out := s.vspec f rm vd va qp FF.rcp
/-- `vrsq` (R38, R269). -/
def execVrsq (f : FFmt) (rm : Rm) (vd va : VReg) (qp : QReg) (s : State) : Out := s.vspec f rm vd va qp FF.rsq
/-- `vsqrt` (R38, R269). -/
def execVsqrt (f : FFmt) (rm : Rm) (vd va : VReg) (qp : QReg) (s : State) : Out := s.vspec f rm vd va qp FF.sqrt
/-- `vexp2`: the selector has no effect (R39 to R41, R269). -/
def execVexp2 (f : FFmt) (rm : Rm) (vd va : VReg) (qp : QReg) (s : State) : Out :=
  s.vspec f rm vd va qp fun f _ a => viaFp32 exp2 f a
/-- `vlog2`: the selector has no effect (R39 to R41, R269). -/
def execVlog2 (f : FFmt) (rm : Rm) (vd va : VReg) (qp : QReg) (s : State) : Out :=
  s.vspec f rm vd va qp fun f _ a => viaFp32 log2 f a

/-! ### Permutes (R270) -/

/-- `vperm` (R270). -/
def execVperm (ty : VTy) (vd va vb : VReg) (qp : QReg) (s : State) : Out :=
  let w := VTy.width ty
  let a := (s.th.vreg va).toNat
  let b := (s.th.vreg vb).toNat
  s.vdone vd (vop w (s.th.qreg qp) (s.th.vreg vd) fun n =>
    let k := if w = 4 then 16 * (n / 16) + elemOf w n b else elemOf w n b % (512 / w)
    (elemOf w k a, 0))
/-- `vbcst`: a whole lane (R270). -/
def execVbcst (_ty : VTy) (vd va : VReg) (lane : BitVec 3) (qp : QReg) (s : State) : Out :=
  let x := (s.th.vreg va).toNat
  s.vdone vd (vop 64 (s.th.qreg qp) (s.th.vreg vd) fun _ => (elemOf 64 lane.toNat x, 0))
/-- `vzip` (R270). -/
def execVzip (ty : VTy) (vd va vb : VReg) (qp : QReg) (s : State) : Out :=
  let w := VTy.width ty
  let a := (s.th.vreg va).toNat
  let b := (s.th.vreg vb).toNat
  s.vdone vd (vop w (s.th.qreg qp) (s.th.vreg vd) fun n =>
    (if n % 2 = 0 then elemOf w (n / 2) a else elemOf w (n / 2) b, 0))
/-- `vunzip` (R270). -/
def execVunzip (ty : VTy) (vd va vb : VReg) (qp : QReg) (s : State) : Out :=
  let w := VTy.width ty
  let a := (s.th.vreg va).toNat
  let b := (s.th.vreg vb).toNat
  s.vdone vd (vop w (s.th.qreg qp) (s.th.vreg vd) fun n =>
    (if 2 * n < 512 / w then elemOf w (2 * n) a else elemOf w (2 * n - 512 / w) b, 0))

/-! ### Reductions (R271) -/

/-- The enabled elements of a register, in ascending order. -/
def enabled (w : Nat) (q : Byte) (v : Vec) : List Nat :=
  ((List.range (512 / w)).filter fun n => elemOn q w n).map fun n => elemOf w n v.toNat

/-- The steps of a reduction, with the flags they raise; none without an element. -/
def reduceFrom (step : Nat → Nat → Nat × Flags) : List Nat → Option (Nat × Flags)
  | [] => none
  | x :: xs => some (xs.foldl (fun acc y => let r := step acc.1 y; (r.1, acc.2 ||| r.2)) (x, 0))

/-- The result of a reduction: element 0, every other bit zero. -/
def State.reduce (s : State) (ty : VTy) (vd va : VReg) (qp : QReg) (istep : IFmt → Nat → Nat → Nat)
    (fstep : Nat → Nat → Nat × Flags) : Out :=
  let es := enabled (VTy.width ty) (s.th.qreg qp) (s.th.vreg va)
  let r : Nat × Flags := match vtyFmt ty with
    | .flt f =>
      let nv : Flags := if es.any fun e => (f.read e).isSig then fNV else 0
      match reduceFrom fstep (es.map (widen f)) with
      | none => (0, 0)
      | some acc =>
        let out := convert (.flt .fp32) (.flt f) false .rne acc.1
        (out.1, acc.2 ||| out.2 ||| nv)
    | _ => match reduceFrom (fun a b => (istep (VTy.ifmt ty) a b, 0)) es with
      | none => (0, 0)
      | some acc => (acc.1, 0)
  s.vdone vd (BitVec.ofNat 512 r.1, r.2)

/-- The smaller and the larger of two integer elements. -/
def imin (i : IFmt) (a b : Nat) : Nat := if i.val a ≤ i.val b then a else b
def imax (i : IFmt) (a b : Nat) : Nat := if i.val a ≤ i.val b then b else a

/-- `vredadd` (R271). -/
def execVredadd (ty : VTy) (vd va : VReg) (qp : QReg) (s : State) : Out := s.reduce ty vd va qp (fun i a b => wrap i.w (i.val a + i.val b)) (FF.add .fp32 .rne)
/-- `vredmin` (R271). -/
def execVredmin (ty : VTy) (vd va : VReg) (qp : QReg) (s : State) : Out := s.reduce ty vd va qp imin (FF.minmax .fp32 false false)
/-- `vredmax` (R271). -/
def execVredmax (ty : VTy) (vd va : VReg) (qp : QReg) (s : State) : Out := s.reduce ty vd va qp imax (FF.minmax .fp32 true false)
/-- `vredminn` (R271). -/
def execVredminn (ty : VTy) (vd va : VReg) (qp : QReg) (s : State) : Out := s.reduce ty vd va qp imin (FF.minmax .fp32 false true)
/-- `vredmaxn` (R271). -/
def execVredmaxn (ty : VTy) (vd va : VReg) (qp : QReg) (s : State) : Out := s.reduce ty vd va qp imax (FF.minmax .fp32 true true)

/-! ### Shifts, logic, moves (R272 to R274) -/

/-- An element of width w shifted right with copies of its top bit. -/
def sraElem (w a n : Nat) : Nat := wrap w (toSigned w a / (2 ^ n : Nat))

/-- `vsll`: the amount from the low bits of B (R272). -/
def execVsll (ty : VTy) (vd va vb : VReg) (qp : QReg) (s : State) : Out :=
  let w := VTy.width ty
  s.vmap w vd va vb qp fun a b _ => (a <<< (b % w) % 2 ^ w, 0)
/-- `vsrl`: the amount from the low bits of B (R272). -/
def execVsrl (ty : VTy) (vd va vb : VReg) (qp : QReg) (s : State) : Out :=
  let w := VTy.width ty
  s.vmap w vd va vb qp fun a b _ => (a >>> (b % w), 0)
/-- `vsra`: the amount from the low bits of B (R272). -/
def execVsra (ty : VTy) (vd va vb : VReg) (qp : QReg) (s : State) : Out :=
  let w := VTy.width ty
  s.vmap w vd va vb qp fun a b _ => (sraElem w a (b % w), 0)
/-- `vslli` (R272). -/
def execVslli (ty : VTy) (vd va : VReg) (sh : BitVec 7) (qp : QReg) (s : State) : Out :=
  let w := VTy.width ty
  s.vmap w vd va va qp fun a _ _ => (a <<< sh.toNat % 2 ^ w, 0)
/-- `vsrli` (R272). -/
def execVsrli (ty : VTy) (vd va : VReg) (sh : BitVec 7) (qp : QReg) (s : State) : Out :=
  let w := VTy.width ty
  s.vmap w vd va va qp fun a _ _ => (a >>> sh.toNat, 0)
/-- `vsrai` (R272). -/
def execVsrai (ty : VTy) (vd va : VReg) (sh : BitVec 7) (qp : QReg) (s : State) : Out :=
  let w := VTy.width ty
  s.vmap w vd va va qp fun a _ _ => (sraElem w a sh.toNat, 0)
/-- `vbool3` (R273). -/
def execVbool3 (vd va vb : VReg) (qp : QReg) (tab : BitVec 8) (s : State) : Out :=
  let d := s.th.vreg vd
  s.vdone vd (mergeLanes (s.th.qreg qp) d (bool3 tab d (s.th.vreg va) (s.th.vreg vb)), 0)

/-- `vins` (R274). -/
def execVins (v : VReg) (sr : SReg) (lane : BitVec 3) (s : State) : Out :=
  let r := s.th.rd sr
  let x := s.th.vreg v
  .next (s.setTh ((r.2.advance 4).setVreg v
    (ofLanes ((List.range 8).map fun i => if i = lane.toNat then r.1 else Machine.lane x i))))
/-- `vext` (R274). -/
def execVext (v : VReg) (sr : SReg) (lane : BitVec 3) (s : State) : Out :=
  s.const 4 sr (Machine.lane (s.th.vreg v) lane.toNat)
/-- `vdup` (R274). -/
def execVdup (v : VReg) (sr : SReg) (s : State) : Out :=
  let r := s.th.rd sr
  .next (s.setTh ((r.2.advance 4).setVreg v (ofLanes (List.replicate 8 r.1))))
/-- `qset` (R274). -/
def execQset (sr : SReg) (q : QReg) (s : State) : Out :=
  let r := s.th.rd sr
  .next (s.setTh ((r.2.advance 4).setQreg q (r.1.extractLsb' 0 8)))
/-- `qget` (R274). -/
def execQget (sr : SReg) (q : QReg) (s : State) : Out := s.const 4 sr (zextW (s.th.qreg q))

end Sys2Proof.Machine
end

