-- ==== Sys2Proof/Machine/Dispatch.lean ====
section
/-! DEFINITION. The dispatch: one arm for every constructor of Instr, each a call of its meaning. -/

namespace Sys2Proof.Machine

def exec (i : Instr) (s : State) : Host.Outcome State Fault Refusal :=
  match i with
  | .add d a b => Sys2Proof.Machine.execAdd d a b s
  | .sub d a b => Sys2Proof.Machine.execSub d a b s
  | .mul d a b => Sys2Proof.Machine.execMul d a b s
  | .mulh d a b => Sys2Proof.Machine.execMulh d a b s
  | .mulhu d a b => Sys2Proof.Machine.execMulhu d a b s
  | .mulhsu d a b => Sys2Proof.Machine.execMulhsu d a b s
  | .div d a b => Sys2Proof.Machine.execDiv d a b s
  | .divu d a b => Sys2Proof.Machine.execDivu d a b s
  | .rem d a b => Sys2Proof.Machine.execRem d a b s
  | .remu d a b => Sys2Proof.Machine.execRemu d a b s
  | .and d a b => Sys2Proof.Machine.execAnd d a b s
  | .or d a b => Sys2Proof.Machine.execOr d a b s
  | .xor d a b => Sys2Proof.Machine.execXor d a b s
  | .andn d a b => Sys2Proof.Machine.execAndn d a b s
  | .orn d a b => Sys2Proof.Machine.execOrn d a b s
  | .sll d a b => Sys2Proof.Machine.execSll d a b s
  | .srl d a b => Sys2Proof.Machine.execSrl d a b s
  | .sra d a b => Sys2Proof.Machine.execSra d a b s
  | .rol d a b => Sys2Proof.Machine.execRol d a b s
  | .ror d a b => Sys2Proof.Machine.execRor d a b s
  | .min d a b => Sys2Proof.Machine.execMin d a b s
  | .minu d a b => Sys2Proof.Machine.execMinu d a b s
  | .max d a b => Sys2Proof.Machine.execMax d a b s
  | .maxu d a b => Sys2Proof.Machine.execMaxu d a b s
  | .adds d a b => Sys2Proof.Machine.execAdds d a b s
  | .subs d a b => Sys2Proof.Machine.execSubs d a b s
  | .addsu d a b => Sys2Proof.Machine.execAddsu d a b s
  | .subsu d a b => Sys2Proof.Machine.execSubsu d a b s
  | .clz d a => Sys2Proof.Machine.execClz d a s
  | .ctz d a => Sys2Proof.Machine.execCtz d a s
  | .popc d a => Sys2Proof.Machine.execPopc d a s
  | .bswap d a => Sys2Proof.Machine.execBswap d a s
  | .fadd f rm d a b => Sys2Proof.Machine.execFadd f rm d a b s
  | .fsub f rm d a b => Sys2Proof.Machine.execFsub f rm d a b s
  | .fmul f rm d a b => Sys2Proof.Machine.execFmul f rm d a b s
  | .fmin f d a b => Sys2Proof.Machine.execFmin f d a b s
  | .fmax f d a b => Sys2Proof.Machine.execFmax f d a b s
  | .fminn f d a b => Sys2Proof.Machine.execFminn f d a b s
  | .fmaxn f d a b => Sys2Proof.Machine.execFmaxn f d a b s
  | .bool3 d a b tab => Sys2Proof.Machine.execBool3 d a b tab s
  | .fshlImm d a b sh => Sys2Proof.Machine.execFshlImm d a b sh s
  | .fshrImm d a b sh => Sys2Proof.Machine.execFshrImm d a b sh s
  | .fshlReg d a b c => Sys2Proof.Machine.execFshlReg d a b c s
  | .fshrReg d a b c => Sys2Proof.Machine.execFshrReg d a b c s
  | .ext d a pos len1 => Sys2Proof.Machine.execExt d a pos len1 s
  | .extn d a pos len1 => Sys2Proof.Machine.execExtn d a pos len1 s
  | .ins d a pos len1 => Sys2Proof.Machine.execIns d a pos len1 s
  | .addi d a imm => Sys2Proof.Machine.execAddi d a imm s
  | .andi d a imm => Sys2Proof.Machine.execAndi d a imm s
  | .ori d a imm => Sys2Proof.Machine.execOri d a imm s
  | .xori d a imm => Sys2Proof.Machine.execXori d a imm s
  | .slli d a sh => Sys2Proof.Machine.execSlli d a sh s
  | .srli d a sh => Sys2Proof.Machine.execSrli d a sh s
  | .srai d a sh => Sys2Proof.Machine.execSrai d a sh s
  | .rori d a sh => Sys2Proof.Machine.execRori d a sh s
  | .lui d imm => Sys2Proof.Machine.execLui d imm s
  | .li d imm => Sys2Proof.Machine.execLi d imm s
  | .cmp qd cond a b => Sys2Proof.Machine.execCmp qd cond a b s
  | .cmpi qd cond a imm => Sys2Proof.Machine.execCmpi qd cond a imm s
  | .sel d q a b => Sys2Proof.Machine.execSel d q a b s
  | .lea d a b sh => Sys2Proof.Machine.execLea d a b sh s
  | .ldn sz x d a off => Sys2Proof.Machine.execLdn sz x d a off s
  | .stn sz d a off => Sys2Proof.Machine.execStn sz d a off s
  | .ldf sz x d a off => Sys2Proof.Machine.execLdf sz x d a off s
  | .stf sz d a off => Sys2Proof.Machine.execStf sz d a off s
  | .amoFetch op dbl d a b => Sys2Proof.Machine.execAmoFetch op dbl d a b s
  | .amoPost op dbl a b => Sys2Proof.Machine.execAmoPost op dbl a b s
  | .cas dbl d a b => Sys2Proof.Machine.execCas dbl d a b s
  | .stnb d a n1 h off => Sys2Proof.Machine.execStnb d a n1 h off s
  | .vldn vd a qp off => Sys2Proof.Machine.execVldn vd a qp off s
  | .vstn vd a qp off => Sys2Proof.Machine.execVstn vd a qp off s
  | .vgthn vd a qp vi sc => Sys2Proof.Machine.execVgthn vd a qp vi sc s
  | .vsctn vd a qp vi sc => Sys2Proof.Machine.execVsctn vd a qp vi sc s
  | .vldf vd a qp off => Sys2Proof.Machine.execVldf vd a qp off s
  | .vstf vd a qp off => Sys2Proof.Machine.execVstf vd a qp off s
  | .br q qn off => Sys2Proof.Machine.execBr q qn off s
  | .j off => Sys2Proof.Machine.execJ off s
  | .jal off => Sys2Proof.Machine.execJal off s
  | .jalr d a imm => Sys2Proof.Machine.execJalr d a imm s
  | .btag off => Sys2Proof.Machine.execBtag off s
  | .loopReg n a => Sys2Proof.Machine.execLoopReg n a s
  | .loopImm n cnt => Sys2Proof.Machine.execLoopImm n cnt s
  | .ret => Sys2Proof.Machine.execRet s
  | .nop => Sys2Proof.Machine.execNop s
  | .trap imm => Sys2Proof.Machine.execTrap imm s
  | .eret => Sys2Proof.Machine.execEret s
  | .yield => Sys2Proof.Machine.execYield s
  | .commit => Sys2Proof.Machine.execCommit s
  | .fence scope => Sys2Proof.Machine.execFence scope s
  | .brk imm => Sys2Proof.Machine.execBrk imm s
  | .wait a => Sys2Proof.Machine.execWait a s
  | .send cls a lab tag => Sys2Proof.Machine.execSend cls a lab tag s
  | .sendR cls a lab tag => Sys2Proof.Machine.execSendR cls a lab tag s
  | .sendv cls a lab tag vb => Sys2Proof.Machine.execSendv cls a lab tag vb s
  | .mcast cls a lab tag => Sys2Proof.Machine.execMcast cls a lab tag s
  | .get cls a lab t b => Sys2Proof.Machine.execGet cls a lab t b s
  | .put a t b => Sys2Proof.Machine.execPut a t b s
  | .recv lab => Sys2Proof.Machine.execRecv lab s
  | .arm lab => Sys2Proof.Machine.execArm lab s
  | .disarm lab => Sys2Proof.Machine.execDisarm lab s
  | .tcnt d lab => Sys2Proof.Machine.execTcnt d lab s
  | .setf mask => Sys2Proof.Machine.execSetf mask s
  | .clrf mask => Sys2Proof.Machine.execClrf mask s
  | .tlaunch a => Sys2Proof.Machine.execTlaunch a s
  | .jdone => Sys2Proof.Machine.execJdone s
  | .bar grp => Sys2Proof.Machine.execBar grp s
  | .arrive grp => Sys2Proof.Machine.execArrive grp s
  | .csrr d csr => Sys2Proof.Machine.execCsrr d csr s
  | .csrw d a csr => Sys2Proof.Machine.execCsrw d a csr s
  | .csrs d a csr => Sys2Proof.Machine.execCsrs d a csr s
  | .csrc d a csr => Sys2Proof.Machine.execCsrc d a csr s
  | .vaddInt ty vd va vb qp => Sys2Proof.Machine.execVaddInt ty vd va vb qp s
  | .vsubInt ty vd va vb qp => Sys2Proof.Machine.execVsubInt ty vd va vb qp s
  | .vmulInt ty vd va vb qp => Sys2Proof.Machine.execVmulInt ty vd va vb qp s
  | .vmulh ty vd va vb qp => Sys2Proof.Machine.execVmulh ty vd va vb qp s
  | .vadds ty vd va vb qp => Sys2Proof.Machine.execVadds ty vd va vb qp s
  | .vsubs ty vd va vb qp => Sys2Proof.Machine.execVsubs ty vd va vb qp s
  | .vminInt ty vd va vb qp => Sys2Proof.Machine.execVminInt ty vd va vb qp s
  | .vmaxInt ty vd va vb qp => Sys2Proof.Machine.execVmaxInt ty vd va vb qp s
  | .vand ty vd va vb qp => Sys2Proof.Machine.execVand ty vd va vb qp s
  | .vor ty vd va vb qp => Sys2Proof.Machine.execVor ty vd va vb qp s
  | .vxor ty vd va vb qp => Sys2Proof.Machine.execVxor ty vd va vb qp s
  | .vabsInt ty vd va qp => Sys2Proof.Machine.execVabsInt ty vd va qp s
  | .vnegInt ty vd va qp => Sys2Proof.Machine.execVnegInt ty vd va qp s
  | .vaddFp f rm vd va vb qp => Sys2Proof.Machine.execVaddFp f rm vd va vb qp s
  | .vsubFp f rm vd va vb qp => Sys2Proof.Machine.execVsubFp f rm vd va vb qp s
  | .vmulFp f rm vd va vb qp => Sys2Proof.Machine.execVmulFp f rm vd va vb qp s
  | .vfma f rm vd va vb qp => Sys2Proof.Machine.execVfma f rm vd va vb qp s
  | .vfms f rm vd va vb qp => Sys2Proof.Machine.execVfms f rm vd va vb qp s
  | .vfnma f rm vd va vb qp => Sys2Proof.Machine.execVfnma f rm vd va vb qp s
  | .vminFp f vd va vb qp => Sys2Proof.Machine.execVminFp f vd va vb qp s
  | .vmaxFp f vd va vb qp => Sys2Proof.Machine.execVmaxFp f vd va vb qp s
  | .vminn f vd va vb qp => Sys2Proof.Machine.execVminn f vd va vb qp s
  | .vmaxn f vd va vb qp => Sys2Proof.Machine.execVmaxn f vd va vb qp s
  | .vabsFp f vd va qp => Sys2Proof.Machine.execVabsFp f vd va qp s
  | .vnegFp f vd va qp => Sys2Proof.Machine.execVnegFp f vd va qp s
  | .vcsgn f vd va vb qp => Sys2Proof.Machine.execVcsgn f vd va vb qp s
  | .vcmp cond ty qd va vb qp => Sys2Proof.Machine.execVcmp cond ty qd va vb qp s
  | .vcvt src dst ns rm vd va part qp => Sys2Proof.Machine.execVcvt src dst ns rm vd va part qp s
  | .vrcp f rm vd va qp => Sys2Proof.Machine.execVrcp f rm vd va qp s
  | .vrsq f rm vd va qp => Sys2Proof.Machine.execVrsq f rm vd va qp s
  | .vsqrt f rm vd va qp => Sys2Proof.Machine.execVsqrt f rm vd va qp s
  | .vdiv f rm vd va vb qp => Sys2Proof.Machine.execVdiv f rm vd va vb qp s
  | .vexp2 f rm vd va qp => Sys2Proof.Machine.execVexp2 f rm vd va qp s
  | .vlog2 f rm vd va qp => Sys2Proof.Machine.execVlog2 f rm vd va qp s
  | .vperm ty vd va vb qp => Sys2Proof.Machine.execVperm ty vd va vb qp s
  | .vbcst ty vd va lane qp => Sys2Proof.Machine.execVbcst ty vd va lane qp s
  | .vzip ty vd va vb qp => Sys2Proof.Machine.execVzip ty vd va vb qp s
  | .vunzip ty vd va vb qp => Sys2Proof.Machine.execVunzip ty vd va vb qp s
  | .vredadd ty vd va qp => Sys2Proof.Machine.execVredadd ty vd va qp s
  | .vredmin ty vd va qp => Sys2Proof.Machine.execVredmin ty vd va qp s
  | .vredmax ty vd va qp => Sys2Proof.Machine.execVredmax ty vd va qp s
  | .vredminn ty vd va qp => Sys2Proof.Machine.execVredminn ty vd va qp s
  | .vredmaxn ty vd va qp => Sys2Proof.Machine.execVredmaxn ty vd va qp s
  | .vsll ty vd va vb qp => Sys2Proof.Machine.execVsll ty vd va vb qp s
  | .vsrl ty vd va vb qp => Sys2Proof.Machine.execVsrl ty vd va vb qp s
  | .vsra ty vd va vb qp => Sys2Proof.Machine.execVsra ty vd va vb qp s
  | .vslli ty vd va sh qp => Sys2Proof.Machine.execVslli ty vd va sh qp s
  | .vsrli ty vd va sh qp => Sys2Proof.Machine.execVsrli ty vd va sh qp s
  | .vsrai ty vd va sh qp => Sys2Proof.Machine.execVsrai ty vd va sh qp s
  | .vbool3 vd va vb qp tab => Sys2Proof.Machine.execVbool3 vd va vb qp tab s
  | .vins v sr lane => Sys2Proof.Machine.execVins v sr lane s
  | .vext v sr lane => Sys2Proof.Machine.execVext v sr lane s
  | .vdup v sr => Sys2Proof.Machine.execVdup v sr s
  | .qset sr q => Sys2Proof.Machine.execQset sr q s
  | .qget sr q => Sys2Proof.Machine.execQget sr q s
  | .mop n m fA fB a b c lab => Sys2Proof.Machine.execMop n m fA fB a b c lab s
  | .mopsZc n m fA fB d a b c lab => Sys2Proof.Machine.execMopsZc n m fA fB d a b c lab s
  | .mopsS24 n m fA fB d a b c lab => Sys2Proof.Machine.execMopsS24 n m fA fB d a b c lab s
  | .mzero n m lab => Sys2Proof.Machine.execMzero n m lab s
  | .mload n m fA a lab => Sys2Proof.Machine.execMload n m fA a lab s
  | .mdrain n m fA rm relu scale a lab => Sys2Proof.Machine.execMdrain n m fA rm relu scale a lab s
  | .mseed n a => Sys2Proof.Machine.execMseed n a s
  | .tdir d a => Sys2Proof.Machine.execTdir d a s
  | .tzero a c lab => Sys2Proof.Machine.execTzero a c lab s
  | .tfill f a b c lab => Sys2Proof.Machine.execTfill f a b c lab s
  | .tident f diag a c lab => Sys2Proof.Machine.execTident f diag a c lab s
  | .xcopy dir f cls d a b lab => Sys2Proof.Machine.execXcopy dir f cls d a b lab s
  | .xmapLd cls d a b c lab => Sys2Proof.Machine.execXmapLd cls d a b c lab s
  | .xmapSt cls d a b c lab => Sys2Proof.Machine.execXmapSt cls d a b c lab s
  | .xgather x64 cls d a b c lab => Sys2Proof.Machine.execXgather x64 cls d a b c lab s
  | .xscatter x64 acc f cls d a b c lab => Sys2Proof.Machine.execXscatter x64 acc f cls d a b c lab s
  | .xpack dstNear f cls d a b lab => Sys2Proof.Machine.execXpack dstNear f cls d a b lab s
  | .xunpack srcNear f cls d a b lab => Sys2Proof.Machine.execXunpack srcNear f cls d a b lab s
  | .xembed f cls d a b c lab => Sys2Proof.Machine.execXembed f cls d a b c lab s
  | .xstream toHost near cls d a b c lab => Sys2Proof.Machine.execXstream toHost near cls d a b c lab s
  | .rngw a b c => Sys2Proof.Machine.execRngw a b c s
  | .rngr d a half => Sys2Proof.Machine.execRngr d a half s
  | .rngclr a => Sys2Proof.Machine.execRngclr a s
  | .pgw a b => Sys2Proof.Machine.execPgw a b s
  | .pgr d a => Sys2Proof.Machine.execPgr d a s
  | .pginv a => Sys2Proof.Machine.execPginv a s
  | .illegalInstruction bits => Sys2Proof.Machine.execIllegalInstruction bits s
  | .commitInjection core thr => Sys2Proof.Machine.execCommitInjection core thr s
  | .messageArrival n => Sys2Proof.Machine.execMessageArrival n s
  | .payloadFlitArrival core id => Sys2Proof.Machine.execPayloadFlitArrival core id s
  | .kittyReturn core cls => Sys2Proof.Machine.execKittyReturn core cls s
  | .recvDelivery core lab => Sys2Proof.Machine.execRecvDelivery core lab s
  | .handlerStart core => Sys2Proof.Machine.execHandlerStart core s
  | .spreadMove core => Sys2Proof.Machine.execSpreadMove core s
  | .barArrival n => Sys2Proof.Machine.execBarArrival n s
  | .barrierRelease n => Sys2Proof.Machine.execBarrierRelease n s
  | .waitDeadline core thr => Sys2Proof.Machine.execWaitDeadline core thr s
  | .watchdogStop core => Sys2Proof.Machine.execWatchdogStop core s
  | .engineCommandStart cl k n => Sys2Proof.Machine.execEngineCommandStart cl k n s
  | .engineCompletion cl k => Sys2Proof.Machine.execEngineCompletion cl k s
  | .matrixCommandStart cl arr k n => Sys2Proof.Machine.execMatrixCommandStart cl arr k n s
  | .matrixCompletion cl arr => Sys2Proof.Machine.execMatrixCompletion cl arr s
  | .routerForward n => Sys2Proof.Machine.execRouterForward n s
  | .gatewayArrival sw p => Sys2Proof.Machine.execGatewayArrival sw p s
  | .arrivalRingReentry sw => Sys2Proof.Machine.execArrivalRingReentry sw s
  | .arrivalRingFullReport sw => Sys2Proof.Machine.execArrivalRingFullReport sw s
  | .linkCrcError link => Sys2Proof.Machine.execLinkCrcError link s
  | .linkRetrain link => Sys2Proof.Machine.execLinkRetrain link s
  | .linkDown link => Sys2Proof.Machine.execLinkDown link s
  | .podCounterExchange sw value => Sys2Proof.Machine.execPodCounterExchange sw value s
  | .rdRequest n => Sys2Proof.Machine.execRdRequest n s
  | .wrRequest n => Sys2Proof.Machine.execWrRequest n s
  | .amoRequest n => Sys2Proof.Machine.execAmoRequest n s
  | .amopRequest n => Sys2Proof.Machine.execAmopRequest n s
  | .casRequest n => Sys2Proof.Machine.execCasRequest n s
  | .parkNoticeRepeat stack n => Sys2Proof.Machine.execParkNoticeRepeat stack n s
  | .parkLimitExpiry stack n => Sys2Proof.Machine.execParkLimitExpiry stack n s
  | .parkedRequestReplay stack n => Sys2Proof.Machine.execParkedRequestReplay stack n s
  | .rdataReply n => Sys2Proof.Machine.execRdataReply n s
  | .ackReply n => Sys2Proof.Machine.execAckReply n s
  | .parkNotice n => Sys2Proof.Machine.execParkNotice n s
  | .errReply n => Sys2Proof.Machine.execErrReply n s
  | .farTimerExpiry core txid => Sys2Proof.Machine.execFarTimerExpiry core txid s
  | .nackResend core txid => Sys2Proof.Machine.execNackResend core txid s
  | .imageLoad q => Sys2Proof.Machine.execImageLoad q s
  | .launchGateOpen job => Sys2Proof.Machine.execLaunchGateOpen job s
  | .initialMessageRelease job => Sys2Proof.Machine.execInitialMessageRelease job s
  | .jobRetirement job => Sys2Proof.Machine.execJobRetirement job s
  | .tokenWrite off bytes => Sys2Proof.Machine.execTokenWrite off bytes s
  | .tokenRelease q => Sys2Proof.Machine.execTokenRelease q s
  | .qctlReset q value => Sys2Proof.Machine.execQctlReset q value s
  | .meventClear value => Sys2Proof.Machine.execMeventClear value s
  | .powercapWrite value => Sys2Proof.Machine.execPowercapWrite value s
  | .hostRegisterWrite off value => Sys2Proof.Machine.execHostRegisterWrite off value s
  | .attest => Sys2Proof.Machine.execAttest s
  | .fwupdate => Sys2Proof.Machine.execFwupdate s
  | .recover => Sys2Proof.Machine.execRecover s
  | .cert => Sys2Proof.Machine.execCert s
  | .reset => Sys2Proof.Machine.execReset s
  | .powerGood => Sys2Proof.Machine.execPowerGood s
  | .firmwareVerification => Sys2Proof.Machine.execFirmwareVerification s
  | .hbmTrainingComplete => Sys2Proof.Machine.execHbmTrainingComplete s
  | .earlyToFull => Sys2Proof.Machine.execEarlyToFull s
  | .thermalThrottle => Sys2Proof.Machine.execThermalThrottle s
  | .thermalShutdown => Sys2Proof.Machine.execThermalShutdown s
  | .patrolScrub addr bad => Sys2Proof.Machine.execPatrolScrub addr bad s
  | .softErrorThreshold => Sys2Proof.Machine.execSoftErrorThreshold s
  | .governorWindow cl => Sys2Proof.Machine.execGovernorWindow cl s
  | .freeze n => Sys2Proof.Machine.execFreeze n s
  | .release n => Sys2Proof.Machine.execRelease n s
  | .preempt n => Sys2Proof.Machine.execPreempt n s
  | .preemptGraceEnd cl => Sys2Proof.Machine.execPreemptGraceEnd cl s
  | .restore n => Sys2Proof.Machine.execRestore n s
  | .resume n => Sys2Proof.Machine.execResume n s
  | .ready n => Sys2Proof.Machine.execReady n s
  | .open_ n => Sys2Proof.Machine.execOpen n s
  | .abort n => Sys2Proof.Machine.execAbort n s
  | .qreport n => Sys2Proof.Machine.execQreport n s
  | .retire n => Sys2Proof.Machine.execRetire n s
  | .tlh n => Sys2Proof.Machine.execTlh n s
  | .cfgw n => Sys2Proof.Machine.execCfgw n s
  | .papply n => Sys2Proof.Machine.execPapply n s
  | .bistCompletion clok failed => Sys2Proof.Machine.execBistCompletion clok failed s
  | .trainingFailure tier => Sys2Proof.Machine.execTrainingFailure tier s
  | .linkRetrained link => Sys2Proof.Machine.execLinkRetrained link s
  | .completedTransactionCacheExpiry n => Sys2Proof.Machine.execCompletedTransactionCacheExpiry n s
  | .thermalThrottleEnd => Sys2Proof.Machine.execThermalThrottleEnd s
  | .powerFail => Sys2Proof.Machine.execPowerFail s

end Sys2Proof.Machine
end

