-- ==== Sys2Proof/Machine/Issue.lean ====
section
/-! DEFINITION. One move of the machine: a thread tries to issue, or an event takes place; the clock (R229). -/

namespace Sys2Proof.Machine

/-- The clock of a move: CYCLE goes on by cycles that the spec leaves free, and by one at least between two issues of a core, but
not past a cycle in which a dealer has something to do (R230, R320, log 4). A stopped clock stands (R404). -/
def State.tickClock (s : State) (m : Move) : State :=
  if s.care.stopped then { s with tick := s.tick + 1 }
  else
    let c := s.cycle.toNat + Config.elapsed s.tick
    let c := match m with
      | .issue core _ => Nat.max c (s.core core).lastIssue
      | _ => c
    let c := match s.nextDue with
      | some d => Nat.min c d
      | none => c
    { s with tick := s.tick + 1, cycle := BitVec.ofNat 64 c }

/-- The trap that waits for a thread before it issues: a pending one, or that of a blocking atomic that failed. -/
def Thread.waiting (th : Thread) : Option (Byte × BitVec 4 × Word) :=
  match th.block with
  | some b => b.err.map fun st => (6, st, b.gva)
  | none => th.pend

/-- A trap that waits for a thread is taken before it issues (R132, R146, R178, R377). -/
def State.takePending (s : State) (c : CoreIx) (t : ThrIx) (p : Byte × BitVec 4 × Word) : State :=
  if p.1 = 8 then s.trapOverflow c t p.2.2 false
  else
    let s := s.modTh c t fun th => { th with pend := none, block := none }
    s.trapAt c t .farError p.2.2 (s.getTh c t).pc p.2.1.toNat

/-- A comparator matched: the trap, or the freeze and the report for the supervisor (R378). -/
def State.takeComparator (s : State) (m : Nat × Word) : State :=
  let pc := s.th.pc
  if m.2.getLsbD 25 then (s.freezeCore s.cur.core).report5 s.cur.core s.cur.thr Cause.comparator.code 3 pc pc
  else s.trap .comparator pc 0 0 0 m.1

/-- A decoded instruction of the executing thread: it executes unless something holds it (R356). -/
def State.runInstr (s : State) (i : Instr) : Out :=
  if s.illegalNow i then exec i s.issued
  else match s.holdOf i with
    | .go => exec i s.issued
    | .stall => .next (s.stallFor i)
    | .failed r => .next (s.trapRead i r)
    | .poison k =>
      let s := s.setTh { s.th with popped := k + 1 }
      .next (s.trap .poison (BitVec.ofNat 64 k))

/-- The words at the PC of the executing thread are decoded; a long form at LEND of an active loop is illegal
(R59, R71, R249). -/
def State.runWords (s : State) (w0 w1 : Nat) : Out :=
  let th := s.th
  let bits : BitVec 64 := BitVec.ofNat 64 (w0 + 2 ^ 32 * w1)
  if th.lact && decide (th.pc = th.lend) && isLongWord w0 then exec (.illegalInstruction bits) s.issued
  else match decodeWords w0 w1 with
    | .ok i => s.runInstr i
    | .error _ => exec (.illegalInstruction bits) s.issued

/-- A thread's turn: a pending trap, the fetch, the comparators, the instruction (R356). -/
def State.issue (s : State) (c : CoreIx) (t : ThrIx) : Out :=
  if s.mayIssue c t then
    let s := s.enter c t
    match Thread.waiting s.th with
    | some p => .next (s.takePending c t p)
    | none =>
      match s.fetch c s.th.pc with
      | .overlay a => .next (s.trapAt c t .overlay a s.th.pc)
      | .words w0 w1 =>
        match s.comparator c t with
        | some m => .next (s.takeComparator m)
        | none => s.runWords w0 w1
  else .next s

/-- What may happen while the clocks are stopped: a reset through the mailbox, a loss of power (R402, R404). -/
def Instr.atRest : Instr → Bool
  | .reset | .powerGood | .powerFail | .hostRegisterWrite .. => true
  | _ => false

/-- One move, after its clock tick. -/
def State.move (s : State) (m : Move) : Out :=
  match m with
  | .issue c t => if s.care.stopped then .next s else s.issue c t
  | .event i => if s.care.stopped && !Instr.atRest i then .next s else exec i s
  | .defer ws => .next (if s.care.stopped then s else { s with later := ws })
  | .fetch cl arr k ws => .next (if s.care.stopped then s else s.fetchEarly cl arr k ws)
  | .upset u => .next (if s.care.stopped then s else s.upset u)

/-- Whether a move of the agenda is one that an outside may put there or the machine makes: instructions are
moves only of a thread that issues. -/
def Instr.isEvent (i : Instr) : Bool :=
  match i.fields with
  | some _ => false
  | none => match i with
    | .illegalInstruction _ => false
    | _ => true

end Sys2Proof.Machine
end

