-- ==== Sys2Proof/Machine/Step.lean ====
section
/-! DEFINITION. The step of the machine: the next move of the agenda, or a free one, with its clock tick. -/

namespace Sys2Proof.Machine

/-- The move that comes next, and the state without it on the agenda (log 3). -/
def State.nextMove (s : State) : Move × State :=
  match s.agenda with
  | m :: ms => (m, { s with agenda := ms })
  | [] => (Config.nextMove s.tick, s)

/-- One step. A free move that is no event and no issue does nothing. -/
def step (s : State) : Host.Outcome State Fault Refusal :=
  let m := s.nextMove
  match m.1 with
  | .event i => if Instr.isEvent i then (m.2.tickClock (.event i)).move (.event i) else .next m.2
  | mv => (m.2.tickClock mv).move mv

/-- The n bytes of an instruction whose bits are w, as TCM holds them (R43). -/
def wordBytes (w : Nat) : List Byte := leBytes 8 w

/-- The state with an instruction stored where the next step fetches: at TCM offset 0 of core 0 below XB,
thread 0 ready there with nothing pending, its issue next on the agenda (log 5). -/
def State.withFetchWord (s : State) (nbits w : Nat) : State :=
  let s := s.putBytes (tcmPlace 0 0) (wordBytes (w % 2 ^ nbits))
  let s := s.modCore 0 fun k => { k with
    xb := if k.xb = 0 then 1 else k.xb, frozen := false, held := false, pcc := Vector.replicate 4 0, rot := 6, veil := []
    lastStart := 0, lastIssue := 0, qBulk := [], qNormal := [], qHigh := [], qTrump := [] }
  let s := s.modTh 0 7 fun th => { th with run := if th.run = .ready then .stalled else th.run }
  let s := s.modTh 0 0 fun th => { th with
    pc := 0, run := .ready, opens := 0, pend := none, block := none, reads := [], lact := false, wdog := 0 }
  { s with agenda := .issue 0 0 :: s.agenda, care := { s.care with stopped := false } }

end Sys2Proof.Machine
end

