-- ==== Sys2Proof/Safety.lean ====
section
/-! DEFINITION. Safe runs, and the words in which the claims speak: what every state keeps, what a completed
instruction leaves, written field by field from the rules. -/

namespace Sys2Proof.Machine

/-- The invariant of the machine's storage: memory in its canonical form. -/
def State.inv (s : State) : Prop := Memory.wf s.mem = true

/-- A run of n steps that meets no fault and no refusal. -/
def State.runs (s : State) : Nat → Prop
  | 0 => True
  | n + 1 => ∃ t, step s = .next t ∧ State.runs t n

/-! ### Operands (R47, R48, R218) -/

/-- Words of the current message that are not popped yet (R218). -/
def Thread.left (th : Thread) : Nat :=
  match th.msg with
  | some m => m.words.length - th.popped
  | none => 0

/-- The k-th word from the pop position on; 0 past the end of the payload (R218). -/
def Thread.inWord (th : Thread) (k : Nat) : Word :=
  match th.msg with
  | some m => m.words.getD (th.popped + k) 0
  | none => 0

/-- How many of these source fields name s29. -/
def popsOf (rs : List SReg) : Nat := (rs.filter fun r => decide (r = 29)).length

/-- What a source field reads, after the source fields `before` it: s0 reads 0, s29 pops (R47, R48). -/
def Thread.source (th : Thread) (r : SReg) (before : List SReg) : Word :=
  if r = 29 then th.inWord (popsOf before) else if r = 0 then 0 else th.s[r.toNat]'(r.isLt)

/-! ### Completion (R223, R229, R48, R219) -/

/-- Whether the next back-edge is due: an active loop, and the PC at LEND (R223). -/
def Thread.atLend (th : Thread) : Bool := th.lact && decide (th.pc = th.lend)

/-- The PC after an instruction of `len` bytes that transfers no control (R223). -/
def Thread.nextPc (th : Thread) (len : Nat) : Word :=
  if th.atLend then (if th.lcnt - 1 ≠ 0 then th.lfirst else th.lend + 4) else th.pc + BitVec.ofNat 64 len

/-- A thread after an instruction of `len` bytes that transfers no control has completed: it read the source
fields `srcs`, wrote x to the destination field d, and raised the flags `fl`. Everything else stands:
a field that is not listed here keeps its value. -/
def Thread.retired (th : Thread) (len : Nat) (srcs : List SReg) (d : SReg) (x : Word) (fl : Flags) : Thread :=
  { th with
    s := if d = 0 ∨ d = 30 then th.s else th.s.set d.toNat x d.isLt
    out := if d = 30 ∧ th.out.length < 32 then th.out ++ [x] else th.out
    oov := th.oov || decide (d = 30 ∧ 32 ≤ th.out.length)
    popped := th.popped + Nat.min (popsOf srcs) th.left
    ine := th.ine || decide (th.left < popsOf srcs)
    fflags := th.fflags ||| fl
    pc := th.nextPc len
    lact := th.lact && !(th.atLend && decide (th.lcnt - 1 = 0))
    lcnt := if th.atLend then th.lcnt - 1 else th.lcnt
    instret := th.instret + 1
    wdog := th.wdog + 1
    run := .ready
    begun := false
    lanes := []
    skip := none }

/-- The same without a scalar destination. -/
def Thread.passed (th : Thread) (len : Nat) (srcs : List SReg) : Thread := th.retired len srcs 0 0 0

/-- A thread after a transfer of control to a target: a target outside the body ends the loop (R223). -/
def Thread.moved (th : Thread) (srcs : List SReg) (d : SReg) (x : Word) (target : Word) : Thread :=
  { th.retired 0 srcs d x 0 with
    pc := target
    lact := th.lact && (decide (th.lfirst ≤ target) && decide (target ≤ th.lend))
    lcnt := th.lcnt }

/-! ### Traps (R354 to R361) and retirement (R216) -/

/-- The label-5 report to core 0 of logical cluster 0 (Table 14.3), as a packet on the supervisor control path. -/
def State.reportOf (s : State) (cause kind : Nat) (addr epc : Word) : Flight :=
  { p := { hdr := { dmod := s.cfg.modid, cls := .high, lab := 5, plen := 2, src := s.coreName s.cur.core },
           words := [BitVec.ofNat 64 ((s.coreName s.cur.core).toNat + 2 ^ 27 * s.k.job.toNat + 2 ^ 35 * s.cur.thr.toNat
             + 2 ^ 38 * cause + 2 ^ 46 * kind + 2 ^ 48), addr, epc, 0] },
    loc := .dest, since := s.cycle.toNat, supPath := true }

/-- The machine with the executing core frozen and a packet more in flight. -/
def State.frozenWith (s : State) (f : Flight) : State :=
  let t := s.modK fun k => { k with frozen := true }
  { t with net := t.net ++ [f] }

/-- TAKE_TRAP of the executing thread (R357): its registers saved and the handler entered; without a handler the core
frozen and a report of kind 0 (the PC is then TEPC, log 37); with TRAP already set, a double trap (R358). `detail` holds the
fields of TCAUSE above CAUSE (Table 14.2). -/
def State.trapped (s : State) (cause : Nat) (addr epc : Word) (detail : Nat := 0) : State :=
  if s.th.trap then s.frozenWith (s.reportOf cause 1 addr epc)
  else
    let th := { s.th with tcause := BitVec.ofNat 21 (cause + detail), taddr := addr, tepc := epc, skip := none,
                          run := .ready, begun := false, lanes := [] }
    if s.k.tvEn then s.setTh { th with trap := true, pc := BitVec.ofNat 64 (4 * s.k.tvEntry.toNat) }
    else (s.setTh { th with pc := epc }).frozenWith (s.reportOf cause 0 addr epc)

/-- The bits of an instruction as TADDR holds them (R71). -/
def instrBits (i : Instr) : Word := BitVec.ofNat 64 ((encode i).getD 0)

/-- A thread that its instance has left (R216). -/
def Thread.freed (th : Thread) : Thread :=
  { th with run := .free, inst := none, msg := none, popped := 0, out := [], trap := false, begun := false,
            lanes := [], reads := [], ovf := none, pend := none, skip := none }

end Sys2Proof.Machine
end

