-- ==== Sys2Proof/Certificates/Slice0/Obligations.lean ====
section
/-! DEFINITION. The statements for the provers, with the tables and words that they speak in. -/

open Sys2Proof Sys2Proof.Machine

namespace Claims
/-! ### Scalar computation (chapter 9) -/

/-- Rows of Table 9.1 that read A and B and raise no flag: what s[d] receives (R236). -/
def aluTwo : List ((SReg → SReg → SReg → Instr) × (Word → Word → Word)) :=
  [(.add, fun A B => A + B), (.sub, fun A B => A - B), (.mul, fun A B => A * B),
   (.mulh, fun A B => (A.signExtend 128 * B.signExtend 128).extractLsb' 64 64),
   (.mulhu, fun A B => (A.setWidth 128 * B.setWidth 128).extractLsb' 64 64),
   (.mulhsu, fun A B => (A.signExtend 128 * B.setWidth 128).extractLsb' 64 64),
   (.div, fun A B => if B = 0 then BitVec.allOnes 64 else BitVec.ofInt 64 (A.toInt.tdiv B.toInt)),
   (.divu, fun A B => if B = 0 then BitVec.allOnes 64 else BitVec.ofNat 64 (A.toNat / B.toNat)),
   (.rem, fun A B => if B = 0 then A else BitVec.ofInt 64 (A.toInt.tmod B.toInt)),
   (.remu, fun A B => if B = 0 then A else BitVec.ofNat 64 (A.toNat % B.toNat)),
   (.and, fun A B => A &&& B), (.or, fun A B => A ||| B), (.xor, fun A B => A ^^^ B),
   (.andn, fun A B => A &&& ~~~ B), (.orn, fun A B => A ||| ~~~ B)] ++
  [(.sll, fun A B => A <<< (B.extractLsb' 0 6).toNat),
   (.srl, fun A B => A >>> (B.extractLsb' 0 6).toNat),
   (.sra, fun A B => A.sshiftRight (B.extractLsb' 0 6).toNat),
   (.rol, fun A B => A.rotateLeft (B.extractLsb' 0 6).toNat),
   (.ror, fun A B => A.rotateRight (B.extractLsb' 0 6).toNat),
   (.min, fun A B => if A.toInt ≤ B.toInt then A else B),
   (.minu, fun A B => if A.toNat ≤ B.toNat then A else B),
   (.max, fun A B => if A.toInt ≤ B.toInt then B else A),
   (.maxu, fun A B => if A.toNat ≤ B.toNat then B else A)]

/-- The saturating rows of Table 9.1: the exact result, and the range it is clamped to (R18, R236). -/
def aluSat : List ((SReg → SReg → SReg → Instr) × (Word → Word → Int) × Int × Int) :=
  [(.adds, fun A B => A.toInt + B.toInt, -2 ^ 63, 2 ^ 63 - 1),
   (.subs, fun A B => A.toInt - B.toInt, -2 ^ 63, 2 ^ 63 - 1),
   (.addsu, fun A B => (A.toNat : Int) + B.toNat, 0, 2 ^ 64 - 1),
   (.subsu, fun A B => (A.toNat : Int) - B.toNat, 0, 2 ^ 64 - 1)]

/-- An exact result clamped to a range. -/
def clampTo (lo hi z : Int) : Int := if z < lo then lo else if hi < z then hi else z

/-- The rows of Table 9.1 with one operand: how the result r relates to A. -/
def aluOne : List ((SReg → SReg → Instr) × (Word → Word → Prop)) :=
  [(.clz, fun A r => r.toNat ≤ 64 ∧ (∀ i, i < r.toNat → A.getMsbD i = false) ∧ (r.toNat < 64 → A.getMsbD r.toNat = true)),
   (.ctz, fun A r => r.toNat ≤ 64 ∧ (∀ i, i < r.toNat → A.getLsbD i = false) ∧ (r.toNat < 64 → A.getLsbD r.toNat = true)),
   (.popc, fun A r => r.toNat = ((List.range 64).filter fun i => A.getLsbD i).length),
   (.bswap, fun A r => ∀ j, j < 8 → r.extractLsb' (8 * (7 - j)) 8 = A.extractLsb' (8 * j) 8)]

/-- Immediate forms of one source: what s[d] receives from s[a] (R238). -/
def aluImm : List ((SReg → SReg → BitVec 16 → Instr) × (Word → BitVec 16 → Word)) :=
  [(.addi, fun A i => A + i.signExtend 64), (.andi, fun A i => A &&& i.signExtend 64),
   (.ori, fun A i => A ||| i.setWidth 64), (.xori, fun A i => A ^^^ i.setWidth 64)]

/-- Immediate shifts: what s[d] receives from s[a] (R238). -/
def aluShift : List ((SReg → SReg → BitVec 6 → Instr) × (Word → Nat → Word)) :=
  [(.slli, fun A n => A <<< n), (.srli, fun A n => A >>> n), (.srai, fun A n => A.sshiftRight n),
   (.rori, fun A n => A.rotateRight n)]

/-- The rounding mode that a selector names; DYN is the mode in FRM.RM (Tables 1.6, 1.7). SR is not met here. -/
def modeOf (frm : BitVec 2) (rm : Rm) : RMode :=
  match rm with
  | .rne => .rne | .rz => .rz | .rup => .rup | .rdn => .rdn
  | .dyn => if frm = 0 then .rne else if frm = 1 then .rz else if frm = 2 then .rup else .rdn
  | .sr => .rne

/-- Scalar floating point with two operands: format, rounding selector, result and flags (R237). -/
def floatTwo : List ((FFmt → Rm → SReg → SReg → SReg → Instr) × (FF → RMode → Nat → Nat → Nat × Flags)) :=
  [(.fadd, FF.add), (.fsub, FF.sub), (.fmul, FF.mul),
   (fun f _ => .fmin f, fun f _ => FF.minmax f false false), (fun f _ => .fmax f, fun f _ => FF.minmax f true false),
   (fun f _ => .fminn f, fun f _ => FF.minmax f false true), (fun f _ => .fmaxn f, fun f _ => FF.minmax f true true)]

end Claims

/-- R236: each integer entry of major 0x00 writes s[d] as Table 9.1 states, whatever its operand fields name (s0,
the ports), sets SAT exactly where it clamps, and leaves everything else as it was, apart from the PC, the loop
context and the counters (R223, R229). The instructions: add, sub, mul, mulh, mulhu, mulhsu, div, divu, rem, remu, and,
or, xor, andn, orn, sll, srl, sra, rol, ror, min, minu, max, maxu, adds, subs, addsu, subsu, clz, ctz, popc, bswap. -/
def Obligations.IntegerAlu : Prop :=
  (∀ p ∈ Claims.aluTwo, ∀ (d a b : SReg) (s : State), exec (p.1 d a b) s =
    .next (s.setTh (s.th.retired 4 [a, b] d (p.2 (s.th.source a []) (s.th.source b [a])) 0))) ∧
  (∀ p ∈ Claims.aluSat, ∀ (d a b : SReg) (s : State),
    let z := p.2.1 (s.th.source a []) (s.th.source b [a])
    let c := Claims.clampTo p.2.2.1 p.2.2.2 z
    exec (p.1 d a b) s =
      .next (s.setTh (s.th.retired 4 [a, b] d (BitVec.ofInt 64 c) (if c = z then 0 else fSAT)))) ∧
  (∀ p ∈ Claims.aluOne, ∀ (d a : SReg) (s : State), ∃ r, p.2 (s.th.source a []) r ∧
    exec (p.1 d a) s = .next (s.setTh (s.th.retired 4 [a] d r 0)))

/-- R238: the immediate forms. The instructions: addi, andi, ori, xori, slli, srli, srai, rori, lui, li. -/
def Obligations.Immediates : Prop :=
  (∀ p ∈ Claims.aluImm, ∀ (d a : SReg) (i : BitVec 16) (s : State), exec (p.1 d a i) s =
    .next (s.setTh (s.th.retired 4 [a] d (p.2 (s.th.source a []) i) 0))) ∧
  (∀ p ∈ Claims.aluShift, ∀ (d a : SReg) (n : BitVec 6) (s : State), exec (p.1 d a n) s =
    .next (s.setTh (s.th.retired 4 [a] d (p.2 (s.th.source a []) n.toNat) 0))) ∧
  (∀ (d : SReg) (i : BitVec 21) (s : State), exec (.lui d i) s =
    .next (s.setTh (s.th.retired 4 [] d (i.signExtend 64 <<< 16) 0))) ∧
  (∀ (d : SReg) (i : BitVec 48) (s : State), exec (.li d i) s =
    .next (s.setTh (s.th.retired 8 [] d (i.signExtend 64) 0)))

/-- R237: operands from the low bits of the registers, the result zero-extended, flags ORed into FFLAGS. The
instructions: fadd, fsub, fmul (rounded under the selector's mode, `dyn` naming FRM.RM; no scalar instruction accepts SR, R27), fmin, fmax, fminn, fmaxn. -/
def Obligations.ScalarFloat : Prop :=
  ∀ p ∈ Claims.floatTwo, ∀ (f : FFmt) (rm : Rm) (d a b : SReg) (s : State), rm ≠ .sr →
    let g := FFmt.ff f
    let r := p.2 g (Claims.modeOf s.th.frm rm) ((s.th.source a []).toNat % 2 ^ g.width) ((s.th.source b [a]).toNat % 2 ^ g.width)
    exec (p.1 f rm d a b) s = .next (s.setTh (s.th.retired 4 [a, b] d (BitVec.ofNat 64 r.1) r.2))

/-- R239 to R241: `bool3` looks every bit position up in its table; the funnel shifts take W = s[a]·2^64 + s[b] by an immediate
or by s[c][5:0]; the bit fields, where pos + len lies within the word. The instructions: bool3, fshlImm, fshrImm, fshlReg,
fshrReg, ext, extn, ins. -/
def Obligations.BitInstructions : Prop :=
  ∀ (d a b c : SReg) (tab : BitVec 8) (sh pos len1 : BitVec 6) (s : State),
    let A := s.th.source a []
    let B := s.th.source b [a]
    (∃ r : Word, (∀ i, i < 64 → r.getLsbD i = tab.getLsbD (((s.th.reg d).getLsbD i).toNat
        + 2 * (A.getLsbD i).toNat + 4 * (B.getLsbD i).toNat)) ∧
      exec (.bool3 d a b tab) s = .next (s.setTh (s.th.retired 4 [a, b] d r 0))) ∧
    (let W : BitVec 128 := A ++ B
     let n := (s.th.source c [a, b]).toNat % 64
     exec (.fshlImm d a b sh) s = .next (s.setTh (s.th.retired 4 [a, b] d ((W <<< sh.toNat).extractLsb' 64 64) 0)) ∧
     exec (.fshrImm d a b sh) s = .next (s.setTh (s.th.retired 4 [a, b] d ((W >>> sh.toNat).extractLsb' 0 64) 0)) ∧
     exec (.fshlReg d a b c) s = .next (s.setTh (s.th.retired 4 [a, b, c] d ((W <<< n).extractLsb' 64 64) 0)) ∧
     exec (.fshrReg d a b c) s = .next (s.setTh (s.th.retired 4 [a, b, c] d ((W >>> n).extractLsb' 0 64) 0))) ∧
    (pos.toNat + len1.toNat + 1 ≤ 64 →
      let F : BitVec (len1.toNat + 1) := A.extractLsb' pos.toNat (len1.toNat + 1)
      exec (.ext d a pos len1) s = .next (s.setTh (s.th.retired 4 [a] d (F.signExtend 64) 0)) ∧
      exec (.extn d a pos len1) s = .next (s.setTh (s.th.retired 4 [a] d (F.setWidth 64) 0)) ∧
      (∃ r : Word, (∀ i, i < 64 → r.getLsbD i = if pos.toNat ≤ i ∧ i ≤ pos.toNat + len1.toNat
          then A.getLsbD (i - pos.toNat) else (s.th.reg d).getLsbD i) ∧
        exec (.ins d a pos len1) s = .next (s.setTh (s.th.retired 4 [a] d r 0))))

/-- R242, R243: a compare writes 0xFF or 0x00 to qd, a write of q0 is discarded (R47); `sel` chooses by any bit of q, with both
sources read; `lea` adds the shifted second operand. The instructions: cmp, cmpi, sel, lea. -/
def Obligations.Compares : Prop :=
  ∀ (qd q : QReg) (cond : Cond) (d a b : SReg) (imm : BitVec 14) (sh : BitVec 3) (s : State),
    let A := s.th.source a []
    let holds (B : Word) : Prop := match cond with
      | .eq => A = B | .ne => A ≠ B
      | .lt => A.toInt < B.toInt | .ge => B.toInt ≤ A.toInt
      | .ltu => A.toNat < B.toNat | .geu => B.toNat ≤ A.toNat
      | .tst => A &&& B ≠ 0 | .ntst => A &&& B = 0
    let I : Word := if cond = .ltu ∨ cond = .geu then imm.setWidth 64 else imm.signExtend 64
    let wrote (th : Thread) (B : Word) (u : Thread) : Prop :=
      (holds B → u = { th with q := if qd = 0 then th.q else th.q.set qd.toNat 0xFF qd.isLt }) ∧
      (¬ holds B → u = { th with q := if qd = 0 then th.q else th.q.set qd.toNat 0x00 qd.isLt })
    (∃ u, wrote (s.th.passed 4 [a, b]) (s.th.source b [a]) u ∧ exec (.cmp qd cond a b) s = .next (s.setTh u)) ∧
    (∃ u, wrote (s.th.passed 4 [a]) I u ∧ exec (.cmpi qd cond a imm) s = .next (s.setTh u)) ∧
    (let B := s.th.source b [a]
     exec (.sel d q a b) s = .next (s.setTh (s.th.retired 4 [a, b] d (if s.th.qreg q ≠ 0 then A else B) 0)) ∧
     exec (.lea d a b sh) s = .next (s.setTh (s.th.retired 4 [a, b] d (A + (B <<< sh.toNat)) 0)))

namespace Claims

/-! ### Control flow -/

/-- Whether the quantifier of a branch holds over the 8 bits of q (R244). -/
def taken (qn : Quant) (q : Byte) : Prop :=
  match qn with
  | .any => q ≠ 0x00 | .all => q = 0xFF | .none => q = 0x00 | .nall => q ≠ 0xFF

/-- The near entries of a buffer that holds nothing else. -/
def nearsOf : List Entry → Option (List (Nat × Word × BitVec 16))
  | [] => some []
  | .near p d m :: es => (nearsOf es).map ((p, d, m) :: ·)
  | _ :: _ => none

end Claims

/-- R357, R358, R361, at the instructions whose own effect is a trap: `trap` saves PC + 4 and `brk` its own address, both
with the immediate in TADDR (R257); words that are no instruction trap with their bits (R71). With TV.EN = 0 the rules freeze the
core and do not say what its PC is then: that it is TEPC (after `trap`, PC + 4) is the model's choice (log 37). -/
def Obligations.TrapInstructions : Prop :=
  ∀ (imm : BitVec 16) (bits : BitVec 64) (s : State),
    exec (.trap imm) s = .next (s.trapped 10 (imm.setWidth 64) (s.th.pc + 4)) ∧
    exec (.brk imm) s = .next (s.trapped 11 (imm.setWidth 64) s.th.pc) ∧
    exec (.illegalInstruction bits) s = .next (s.trapped 1 bits s.th.pc)

/-- R244, R245, R247: `br` by its quantifier; `j`, `jal`, and `jalr`, which takes the misalignment trap before it writes a
register; `btag` writes a target to lk and transfers no control. -/
def Obligations.Jumps : Prop :=
  ∀ (q : QReg) (qn : Quant) (boff : BitVec 21) (off : BitVec 26) (d a : SReg) (imm : BitVec 16) (s : State),
    let t := s.th.source a [] + imm.signExtend 64
    (Claims.taken qn (s.th.qreg q) →
      exec (.br q qn boff) s = .next (s.setTh (s.th.moved [] 0 0 (s.th.pc + 4 * boff.signExtend 64)))) ∧
    (¬ Claims.taken qn (s.th.qreg q) → exec (.br q qn boff) s = .next (s.setTh (s.th.passed 4 []))) ∧
    exec (.j off) s = .next (s.setTh (s.th.moved [] 0 0 (s.th.pc + 4 * off.signExtend 64))) ∧
    exec (.jal off) s = .next (s.setTh (s.th.moved [] 31 (s.th.pc + 4) (s.th.pc + 4 * off.signExtend 64))) ∧
    (t.extractLsb' 0 2 = 0#2 → exec (.jalr d a imm) s = .next (s.setTh (s.th.moved [a] d (s.th.pc + 4) t))) ∧
    (t.extractLsb' 0 2 ≠ 0#2 → exec (.jalr d a imm) s = .next (s.trapped 2 t s.th.pc)) ∧
    exec (.btag boff) s = .next (s.setTh (s.th.retired 4 [] 31 (s.th.pc + 4 * boff.signExtend 64) 0))

/-- R249: `loop`, by a register (its low 32 bits) or an immediate: a count of 0 skips the body; else a first word of a long
form at LEND, below XB, is an illegal instruction; else the context is installed. R223: an instruction at LEND of an active loop that
transfers no control (here `nop`) counts the iteration and goes back to the first word of the body, or leaves the loop after
the last iteration. -/
def Obligations.Loop : Prop :=
  ∀ (n : BitVec 5) (a : SReg) (cnt : BitVec 20) (s : State),
    let installs (i : Instr) (srcs : List SReg) (count : BitVec 32) : Prop :=
      let lend := s.th.pc.toNat + 4 * (n.toNat + 1)
      let long := lend < s.k.xbBytes ∧ s.codeWord s.cur.core lend / 2 ^ 26 % 64 = 0x3F
      (count = 0 → exec i s = .next (s.setTh { s.th.passed 4 srcs with
        lact := false, lcnt := s.th.lcnt, pc := s.th.pc + BitVec.ofNat 64 (4 * (n.toNat + 2)) })) ∧
      (count ≠ 0 → ¬ long → exec i s = .next (s.setTh { s.th.passed 4 srcs with
        lact := true, lstart := (s.th.pc + 4).extractLsb' 2 15, llen := n, lcnt := count, pc := s.th.pc + 4 })) ∧
      (count ≠ 0 → long → exec i s = .next (s.trapped 1 (instrBits i) s.th.pc))
    installs (.loopReg n a) [a] ((s.th.source a []).extractLsb' 0 32) ∧
    installs (.loopImm n cnt) [] (cnt.setWidth 32) ∧
    (s.th.lact = true → s.th.pc = BitVec.ofNat 64 (4 * (s.th.lstart.toNat + s.th.llen.toNat)) →
      ∃ t, exec .nop s = .next t ∧ t.th.lcnt = s.th.lcnt - 1 ∧ t.th.lstart = s.th.lstart ∧ t.th.llen = s.th.llen ∧
        t.th.instret = s.th.instret + 1 ∧
        (s.th.lcnt ≠ 1 → t.th.pc = BitVec.ofNat 64 (4 * s.th.lstart.toNat) ∧ t.th.lact = true) ∧
        (s.th.lcnt = 1 → t.th.pc = s.th.pc + 4 ∧ t.th.lact = false))

/-- R256, R260, R152: instructions that hold the thread or only let it pass. `nop` and `yield` retire; `wait` retires at
once from its deadline on, and sleeps before it; `fence` passes when no far write of the thread in its scope awaits its
reply, leaves its mark in the buffer for the scopes module and pod, and stalls otherwise. -/
def Obligations.PassAndWait : Prop :=
  ∀ (a : SReg) (sc : Scope) (s : State),
    exec .nop s = .next (s.setTh (s.th.passed 4 [])) ∧
    exec .yield s = .next (s.setTh (s.th.passed 4 [])) ∧
    ((s.th.source a []).toNat ≤ s.cycle.toNat → exec (.wait a) s = .next (s.setTh (s.th.passed 4 [a]))) ∧
    (s.cycle.toNat < (s.th.source a []).toNat → exec (.wait a) s = .next (s.setTh { s.th with
      run := .wait (s.th.source a []), popped := s.th.popped + Nat.min (popsOf [a]) s.th.left,
      ine := s.th.ine || decide (s.th.left < popsOf [a]) })) ∧
    (let inScope (w : FarWrite) : Prop := sc = .pod ∨ (sc = .module ∧ w.gva.extractLsb' 52 12 = s.cfg.modid)
     ((∀ w ∈ s.th.wrs, ¬ inScope w) → exec (.fence sc) s = .next (s.setTh { s.th.passed 4 [] with
       buf := if sc = .module ∨ sc = .pod then s.th.buf ++ [.mark sc] else s.th.buf })) ∧
     ((∃ w ∈ s.th.wrs, inScope w) → exec (.fence sc) s = .next (s.setTh { s.th with run := .stalled })))

/-- R258: `eret` outside a trap is illegal; in a handler it clears TRAP and goes on at TEPC, where no comparator matches
(R378) and failed reads meet their wait points again (R137); a TEPC that is no multiple of 4 is a double trap. After an
xpack overflow the message is discarded, and at a handler start the instance ends (R178). -/
def Obligations.TrapReturn : Prop :=
  ∀ s : State,
    let th := { s.th.passed 4 [] with pc := s.th.tepc, lact := s.th.lact, lcnt := s.th.lcnt, trap := false,
                                      skip := some s.th.tepc, reads := s.th.reads.map PendingRead.again }
    (s.th.trap = false → exec .eret s = .next (s.trapped 1 (instrBits .eret) s.th.pc)) ∧
    (s.th.trap = true → s.th.tepc.toNat % 4 ≠ 0 → exec .eret s = .next (s.trapped 2 s.th.tepc s.th.pc)) ∧
    (s.th.trap = true → s.th.tepc.toNat % 4 = 0 →
      (s.th.ovf = none → exec .eret s = .next (s.setTh th)) ∧
      (s.th.ovf = some true → exec .eret s = .next (s.setTh { th with msg := none, popped := 0, ovf := none })) ∧
      (s.th.ovf = some false → exec .eret s = .next (s.setTh (Thread.freed th))))

/-- R216, R248, R259, R335: `commit`, `ret` and `jdone` at a buffer of near entries (or an empty one) of a thread that
holds nothing of earlier commits: the entries take effect in order, then `commit` goes on, `ret` ends the instance, and
`jdone` marks the job DONE and ends it. -/
def Obligations.CommitPoints : Prop :=
  ∀ (s : State) (ws : List (Nat × Word × BitVec 16)), Claims.nearsOf s.th.buf = some ws → s.th.held = [] →
    s.th.begun = false →
    let m := ws.foldl (fun u w => u.storeWord w.1 w.2.1 w.2.2) s
    let th := { s.th with buf := [], commits := s.th.commits + 1 }
    exec .commit s = .next (m.setTh (th.passed 4 [])) ∧
    exec .ret s = .next (m.setTh (Thread.freed { th with instret := th.instret + 1, wdog := th.wdog + 1 })) ∧
    (∀ j, SMap.find s.jobs s.k.job.toNat = some j →
      exec .jdone s = .next ({ m with jobs := SMap.set s.k.job.toNat { j with done := true } s.jobs }.setTh
        (Thread.freed { th with instret := th.instret + 1, wdog := th.wdog + 1 })))

namespace Claims

/-! ### Near memory -/

/-- Nibble i of the 8-byte word at place w as the executing thread reads it: from its newest near store that its buffer
still holds and that covers the nibble, otherwise from the memory (R251). -/
def threadNibble (s : State) (w i : Nat) : BitVec 4 :=
  match (s.th.nearEntries.filter fun e => decide (e.1 = w) && e.2.2.getLsbD i).getLast? with
  | some e => nibble e.2.1 i
  | none => nibble (s.word w) i

/-- Whether a thread's own near entries cover a nibble of a word. -/
def covered (s : State) (w i : Nat) : Bool := s.th.nearEntries.any fun e => decide (e.1 = w) && e.2.2.getLsbD i

/-- Whether a read of n nibbles from nibble j of the word at w meets poison that the thread's own entries do not cover. -/
def meetsPoison (s : State) (w j n : Nat) : Prop :=
  s.poisoned w = true ∧ ∃ i, j ≤ i ∧ i < j + n ∧ covered s w i = false

/-- The buffer after a near store: merged into the entry of the word, else a new entry (R253). -/
def withNear (w : Nat) (d : Word) (m : BitVec 16) : List Entry → List Entry
  | [] => [.near w d m]
  | e :: es =>
    match e with
    | .near w' d' m' => if w' = w then .near w (mergeWord m d' d) (m' ||| m) :: es else e :: withNear w d m es
    | _ => e :: withNear w d m es

/-- Several near stores in order. -/
def withNears (ws : List (Nat × Word × BitVec 16)) (b : List Entry) : List Entry :=
  ws.foldl (fun b w => withNear w.1 w.2.1 w.2.2 b) b

/-- What a store of the masked nibbles of a word in the executing core's own TCM leaves: the word's nibbles, its poison mark
(R253: cleared by a store of the whole word), and nothing else of memory. -/
def storedAt (s t : State) (w : Nat) (d : Word) (m : BitVec 16) : Prop :=
  (∀ i, i < 16 → nibble (t.memWord w) i = if m.getLsbD i then nibble d i else nibble (s.memWord w) i) ∧
  (∀ q, q / 8 * 8 ≠ w → t.memByte q = s.memByte q) ∧
  (∀ q, t.poisoned q = if q / 8 * 8 = w ∧ m = BitVec.allOnes 16 then false else s.poisoned q) ∧
  t.dir = s.dir

/-- A near store of the masked nibbles of the word at w, by an instruction of four bytes with the source fields `srcs`: in
the own TCM at once (R222), otherwise an entry of the commit buffer, when it fits (R253). -/
def nearStored (s t : State) (srcs : List SReg) (w : Nat) (d : Word) (m : BitVec 16) : Prop :=
  (ownTcm s.cur.core w = true → storedAt s t w d m ∧
    t = { s.setTh (s.th.passed 4 srcs) with mem := t.mem, poison := t.poison }) ∧
  (ownTcm s.cur.core w = false →
    t = s.setTh { s.th.passed 4 srcs with buf := withNear w d m s.th.buf })

/-- Room for the items of a longer buffer among the 64 entries (R340). -/
def fits (s : State) (b : List Entry) : Prop := s.th.used + (entriesSize b - entriesSize s.th.buf) ≤ 64

/-- The nibbles of n bytes from byte o of a word. -/
def bytesMask (o n : Nat) : BitVec 16 := BitVec.ofNat 16 ((2 ^ (2 * n) - 1) * 2 ^ (2 * o))

/-- The lanes that a predicate enables, from lane 0 up. -/
def lanesOf (q : Byte) : List Nat := (List.range 8).filter fun i => q.getLsbD i

end Claims

/-- R84, R85: which near accesses of n bytes are allowed, and the place each names: the job's scratchpad window; a sibling
TCM of the team or the own one, at and above its core's XB; the alias of the own TCM; nothing else. Table 3.1 lists the sibling
windows as one area and R85 is silent on an access over the end of one window into the next: that it is not allowed is the
model's reading (log 16). -/
def Obligations.NearChecks : Prop :=
  ∀ (s : State) (c : CoreIx) (e : Word) (n : Nat), 1 ≤ n →
    let o := e.toNat
    let k := s.core c
    (o < 0x1000000 → s.nearPlace c e n =
      if k.winBase * 4096 ≤ o ∧ o + n ≤ (k.winBase + k.winTiles) * 4096 ∧ o + n ≤ 0x1000000
      then some (spadPlace (clusterOf c) o) else none) ∧
    (∀ j off, j < 128 → off < 0x18000 → o = 0x1000000 + j * 0x18000 + off →
      let w := coreIx (clusterOf c) (BitVec.ofNat 7 j)
      s.nearPlace c e n =
        if (w = c ∨ ((s.core w).member = true ∧ (s.core w).job = k.job)) ∧ off + n ≤ 0x18000 ∧ 64 * (s.core w).xb.toNat ≤ off
        then some (tcmPlace w off) else none) ∧
    (∀ off, off < 0x18000 → o = 0x1F00000 + off → s.nearPlace c e n =
      if off + n ≤ 0x18000 ∧ 64 * k.xb.toNat ≤ off then some (tcmPlace c off) else none) ∧
    (0x1C00000 ≤ o → o < 0x1F00000 → s.nearPlace c e n = none) ∧
    (0x1F18000 ≤ o → s.nearPlace c e n = none)

/-- R250, R251: `ldn` at an aligned allowed address whose bytes are not poisoned writes the bytes, each nibble from the
thread's own newest store or from memory, extended to 64 bits. -/
def Obligations.NearLoad : Prop :=
  ∀ (sz : MSize) (x : Bool) (d a : SReg) (off : BitVec 12) (s : State) (p : Nat),
    let e := s.th.source a [] + off.signExtend 64
    let n := MSize.bytes sz
    e.toNat % n = 0 → s.nearPlace s.cur.core e n = some p →
    ¬ Claims.meetsPoison s (p / 8 * 8) (2 * (p % 8)) (2 * n) →
    ∃ v : BitVec (8 * n),
      (∀ j, j < 2 * n → v.extractLsb' (4 * j) 4 = Claims.threadNibble s (p / 8 * 8) (2 * (p % 8) + j)) ∧
      exec (.ldn sz x d a off) s =
        .next (s.setTh (s.th.retired 4 [a] d (if x then v.signExtend 64 else v.setWidth 64) 0))

/-- R250, R252, R254, R275, R276, R278, R209: where the near instructions trap, with nothing else changed, and what a poisoned
load leaves: no register, a read that traps at its wait point. Of `vldn` only the enabled lanes count, and of `vgthn` (where it
reads every lane in this step, log 50) the first enabled lane that is poisoned decides. The instructions: ldn, stn, stnb, vldn,
vstn, vgthn, tdir. -/
def Obligations.NearTraps : Prop :=
  ∀ (sz : MSize) (x h : Bool) (d a : SReg) (vd vi : VReg) (qp : QReg) (off : BitVec 12) (off' : BitVec 11) (sc : BitVec 2)
    (n1 : BitVec 4) (s : State) (P : Nat → Nat),
    let e := s.th.source a [] + off.signExtend 64
    let e' := s.th.source a [] + off'.signExtend 64
    let n := MSize.bytes sz
    let b := s.th.source a []
    let q := s.th.qreg qp
    let g (i : Nat) : Word := b + ((s.th.vreg vi).extractLsb' (64 * i) 64 <<< sc.toNat)
    let failed (dest : Dest) (addr : Word) : State := s.setTh { s.th.passed 4 [a] with reads := s.th.reads ++
      [{ kind := .near, dest := dest, addr := addr, failed := some .poison }] }
    (e.toNat % n ≠ 0 → exec (.ldn sz x d a off) s = .next (s.trapped 2 e s.th.pc) ∧
      exec (.stn sz d a off) s = .next (s.trapped 2 e s.th.pc)) ∧
    (e.toNat % n = 0 → s.nearPlace s.cur.core e n = none →
      exec (.ldn sz x d a off) s = .next (s.trapped 3 e s.th.pc) ∧
      exec (.stn sz d a off) s = .next (s.trapped 3 e s.th.pc)) ∧
    (∀ p, e.toNat % n = 0 → s.nearPlace s.cur.core e n = some p →
      Claims.meetsPoison s (p / 8 * 8) (2 * (p % 8)) (2 * n) →
      exec (.ldn sz x d a off) s = .next (failed (if d = 0 then .none else if d = 30 then .out else .s d) e)) ∧
    (e.toNat % 8 = 0 → s.nearPlace s.cur.core e 64 = some (P 0) →
      (∃ i ∈ Claims.lanesOf q, Claims.meetsPoison s (P 0 + 8 * i) 0 16) →
      exec (.vldn vd a qp off) s = .next (failed (.v vd q) e)) ∧
    ((∀ i ∈ Claims.lanesOf q, (g i).toNat % 8 = 0 ∧ s.nearPlace s.cur.core (g i) 8 = some (P i)) → s.later = [] → s.th.lanes = [] →
      ∀ i ∈ Claims.lanesOf q, Claims.meetsPoison s (P i) 0 16 →
        (∀ l ∈ Claims.lanesOf q, l < i → ¬ Claims.meetsPoison s (P l) 0 16) →
        exec (.vgthn vd a qp vi sc) s = .next (failed (.v vd q) (g i))) ∧
    (16 < 2 * (e'.toNat % 8) + h.toNat + (n1.toNat + 1) → exec (.stnb d a n1 h off') s = .next (s.trapped 2 e' s.th.pc)) ∧
    (2 * (e'.toNat % 8) + h.toNat + (n1.toNat + 1) ≤ 16 → s.nearPlace s.cur.core e' 1 = none →
      exec (.stnb d a n1 h off') s = .next (s.trapped 3 e' s.th.pc)) ∧
    (e.toNat % 8 ≠ 0 → exec (.vldn vd a qp off) s = .next (s.trapped 2 e s.th.pc) ∧
      exec (.vstn vd a qp off) s = .next (s.trapped 2 e s.th.pc)) ∧
    (e.toNat % 8 = 0 → s.nearPlace s.cur.core e 64 = none →
      exec (.vldn vd a qp off) s = .next (s.trapped 3 e s.th.pc) ∧
      exec (.vstn vd a qp off) s = .next (s.trapped 3 e s.th.pc)) ∧
    (b.toNat < s.k.winBase * 4096 ∨ (s.k.winBase + s.k.winTiles) * 4096 ≤ b.toNat ∨ 2 ^ 24 ≤ b.toNat →
      exec (.tdir d a) s = .next (s.trapped 3 b s.th.pc))

/-- R222, R253, R254: `stn` and `stnb` at an allowed address: the bytes, or nibbles, of s[d] at the address, at once in the
own TCM, else in the commit buffer, where they fit; every byte of memory outside the stored ones is unchanged. -/
def Obligations.NearStore : Prop :=
  ∀ (sz : MSize) (d a : SReg) (off : BitVec 12) (off' : BitVec 11) (n1 : BitVec 4) (h : Bool) (s : State) (p : Nat),
    let n := MSize.bytes sz
    let e := s.th.source a [] + off.signExtend 64
    let e' := s.th.source a [] + off'.signExtend 64
    let x := s.th.source d [a]
    let q := 2 * (e'.toNat % 8) + h.toNat
    (e.toNat % n = 0 → s.nearPlace s.cur.core e n = some p →
      (ownTcm s.cur.core (p / 8 * 8) = false → Claims.fits s (Claims.withNear (p / 8 * 8) (x <<< (8 * (p % 8))) (Claims.bytesMask (p % 8) n) s.th.buf)) →
      ∃ t, exec (.stn sz d a off) s = .next t ∧
        Claims.nearStored s t [a, d] (p / 8 * 8) (x <<< (8 * (p % 8))) (Claims.bytesMask (p % 8) n)) ∧
    (q + (n1.toNat + 1) ≤ 16 → s.nearPlace s.cur.core e' 1 = some p →
      (ownTcm s.cur.core (p / 8 * 8) = false → Claims.fits s (Claims.withNear (p / 8 * 8) (x <<< (4 * q)) (BitVec.ofNat 16 ((2 ^ (n1.toNat + 1) - 1) * 2 ^ q)) s.th.buf)) →
      ∃ t, exec (.stnb d a n1 h off') s = .next t ∧
        Claims.nearStored s t [a, d] (p / 8 * 8) (x <<< (4 * q)) (BitVec.ofNat 16 ((2 ^ (n1.toNat + 1) - 1) * 2 ^ q)))

/-- R209, R275 to R278: the vector loads. `vldn` reads the enabled lanes of 64 bytes at an 8-byte aligned address, `vgthn`
each enabled lane at its own address; the other lanes of vd keep their value. The lanes of a `vgthn` are not read at one instant
(R278): lanes that are put off (log 50) are read by a later step, those read before keep what was read then, and the
instruction completes once all are read. `tdir` reads a tile's directory entry. -/
def Obligations.NearVectorLoads : Prop :=
  ∀ (vd vi : VReg) (d a : SReg) (qp : QReg) (off : BitVec 12) (sc : BitVec 2) (s : State) (P : Nat → Nat),
    let q := s.th.qreg qp
    let e := s.th.source a [] + off.signExtend 64
    let g (i : Nat) : Word := s.th.source a [] + ((s.th.vreg vi).extractLsb' (64 * i) 64 <<< sc.toNat)
    let loads (t : State) (place : Nat → Nat) : Prop := ∃ r : Vec,
      (∀ i j, i < 8 → j < 16 → nibble (lane r i) j =
        if q.getLsbD i then Claims.threadNibble s (place i) j else nibble (lane (s.th.vreg vd) i) j) ∧
      t = s.setTh { s.th.passed 4 [a] with v := s.th.v.set vd.toNat r vd.isLt }
    (e.toNat % 8 = 0 → s.nearPlace s.cur.core e 64 = some (P 0) →
      (∀ i ∈ Claims.lanesOf q, ¬ Claims.meetsPoison s (P 0 + 8 * i) 0 16) →
      ∃ t, exec (.vldn vd a qp off) s = .next t ∧ loads t fun i => P 0 + 8 * i) ∧
    ((∀ i ∈ Claims.lanesOf q, (g i).toNat % 8 = 0 ∧ s.nearPlace s.cur.core (g i) 8 = some (P i)) →
      (s.later = [] → (∀ i ∈ Claims.lanesOf q, match SMap.find s.th.lanes i with
          | some w => w.2 = false
          | none => ¬ Claims.meetsPoison s (P i) 0 16) →
        ∃ t r, exec (.vgthn vd a qp vi sc) s = .next t ∧
          (∀ i j, i < 8 → j < 16 → nibble (lane r i) j =
            if q.getLsbD i then (match SMap.find s.th.lanes i with
              | some w => nibble w.1 j
              | none => Claims.threadNibble s (P i) j) else nibble (lane (s.th.vreg vd) i) j) ∧
          t = s.setTh { s.th.passed 4 [a] with v := s.th.v.set vd.toNat r vd.isLt }) ∧
      (s.th.lanes = [] → (∃ i ∈ Claims.lanesOf q, i ∈ s.later) →
        ∃ g, exec (.vgthn vd a qp vi sc) s = .next (State.setTh { s with later := [] } { s.th with lanes := g }) ∧
          ∀ i, if i ∈ Claims.lanesOf q ∧ i ∉ s.later
            then ∃ w b, SMap.find g i = some (w, b) ∧ (∀ j, j < 16 → nibble w j = Claims.threadNibble s (P i) j) ∧
              (b = true ↔ Claims.meetsPoison s (P i) 0 16)
            else SMap.find g i = none)) ∧
    (s.k.winBase * 4096 ≤ (s.th.source a []).toNat → (s.th.source a []).toNat < (s.k.winBase + s.k.winTiles) * 4096 →
      (s.th.source a []).toNat < 2 ^ 24 → exec (.tdir d a) s =
        .next (s.setTh (s.th.retired 8 [a] d (s.entry (spadPlace (clusterOf s.cur.core) (s.th.source a []).toNat)) 0)))

/-- R277, R278: the vector stores. Each enabled lane is stored whole: `vstn` at consecutive words, `vsctn` at the lane's own
address, in ascending lane order; lanes in the own TCM at once, the others into the commit buffer, where they fit. A scatter
or gather traps at its first enabled lane whose address is misaligned or not allowed. -/
def Obligations.NearVectorStores : Prop :=
  ∀ (vd vi : VReg) (a : SReg) (qp : QReg) (off : BitVec 12) (sc : BitVec 2) (s : State) (P : Nat → Nat),
    let q := s.th.qreg qp
    let e := s.th.source a [] + off.signExtend 64
    let g (i : Nat) : Word := s.th.source a [] + ((s.th.vreg vi).extractLsb' (64 * i) 64 <<< sc.toNat)
    let stores (i : Instr) (place : Nat → Nat) : Prop :=
      let ws := (Claims.lanesOf q).map fun l => (place l, lane (s.th.vreg vd) l, BitVec.allOnes 16)
      let own := ws.filter fun w => ownTcm s.cur.core w.1
      let rest := ws.filter fun w => !ownTcm s.cur.core w.1
      Claims.fits s (Claims.withNears rest s.th.buf) → exec i s = .next (own.foldl (fun u w => u.storeWord w.1 w.2.1 w.2.2)
        (s.setTh { s.th.passed 4 [a] with buf := Claims.withNears rest s.th.buf }))
    (e.toNat % 8 = 0 → s.nearPlace s.cur.core e 64 = some (P 0) → stores (.vstn vd a qp off) fun i => P 0 + 8 * i) ∧
    ((∀ i ∈ Claims.lanesOf q, (g i).toNat % 8 = 0 ∧ s.nearPlace s.cur.core (g i) 8 = some (P i)) →
      stores (.vsctn vd a qp vi sc) P) ∧
    (∀ i ∈ Claims.lanesOf q,
      (∀ l ∈ Claims.lanesOf q, l < i → (g l).toNat % 8 = 0 ∧ s.nearPlace s.cur.core (g l) 8 = some (P l)) →
      ((g i).toNat % 8 ≠ 0 → exec (.vsctn vd a qp vi sc) s = .next (s.trapped 2 (g i) s.th.pc) ∧
        exec (.vgthn vd a qp vi sc) s = .next (s.trapped 2 (g i) s.th.pc)) ∧
      ((g i).toNat % 8 = 0 → s.nearPlace s.cur.core (g i) 8 = none →
        exec (.vsctn vd a qp vi sc) s = .next (s.trapped 3 (g i) s.th.pc) ∧
        exec (.vgthn vd a qp vi sc) s = .next (s.trapped 3 (g i) s.th.pc)))

/-- R202, R222, R345: a store of the masked nibbles of one 8-byte word (the operation under every near and far store): the
nibbles of the mask come from the data, every other nibble and every other byte reads as before, whatever tile state the word
lay in, synthesised or stored. -/
def Obligations.StoreWord : Prop :=
  ∀ (s : State) (w : Nat) (d : Word) (m : BitVec 16), w % 8 = 0 →
    (∀ i, i < 16 → nibble ((s.storeWord w d m).word w) i = if m.getLsbD i then nibble d i else nibble (s.word w) i) ∧
    (∀ q, q / 8 ≠ w / 8 → (s.storeWord w d m).byte q = s.byte q)

namespace Claims

/-! ### Far memory -/

/-- The GVA after the replacement of HOME 0xFFF (R86). -/
def gvaOf (s : State) (a : Word) : Word :=
  if a.extractLsb' 52 12 = 0xFFF#12 then s.cfg.modid ++ a.extractLsb' 0 52 else a

/-- Whether a far access to a GVA passes R86 and R87. -/
def farAllowed (s : State) (g : Word) : Prop :=
  g.extractLsb' 48 4 = 0#4 ∧ (g.extractLsb' 52 12 = s.cfg.modid ∨ s.inExtent (g.extractLsb' 52 12) = true)

/-- The class of a thread's memory requests: that of its instance, with trump sent as high (R112). -/
def reqClass (th : Thread) : Cls :=
  match th.inst with
  | some (_, .trump) => .high
  | some (_, c) => c
  | none => .normal

/-- A memory request packet of a thread (R108, R109): `words` begin with the GVA and fill whole flits. -/
def requestOf (s : State) (c : CoreIx) (t : ThrIx) (tx : BitVec 16) (kind : BitVec 4) (words : List Word) (aux : BitVec 16) : Packet :=
  { hdr := { dmod := (words.getD 0 0).extractLsb' 52 12, cls := reqClass (s.getTh c t), plen := BitVec.ofNat 5 (words.length / 2),
             kind := kind, src := s.coreName c, job := (s.core c).job, txid := tx, aux := aux },
    words := words }

/-- The machine with a request of an owner recorded and on its way from the cluster's router: to another module, or, translated as
it leaves (R90), to the endpoint in the own one that `State.aimed` names (R116; Translation states it). A stage-1 error is
answered at the translator (the model's choice, log 6). `stream` names the commit of a far write (R344). -/
def sentFor (s : State) (c : CoreIx) (owner : Owner) (p : Packet) (stream : Option (ThrIx × Nat) := none) : State :=
  let part := s.partOf (clusterOf c)
  let r : Req := { txid := p.hdr.txid, pkt := p, owner := owner, sentAt := s.cycle.toNat, timer := s.cycle.toNat }
  let u := s.modCore c fun k => { k with reqs := k.reqs ++ [r] }
  let f : Flight := { p := p, loc := .router (clusterOf c) 0, since := s.cycle.toNat, part := part, stream := stream }
  { u with net := u.net ++ [if p.hdr.dmod = s.cfg.modid then s.aimed { f with ent := s.stage1 p part } (clusterOf c) 0 else f] }

/-- The machine with a request of a thread on its way. -/
def requestedBy (s : State) (c : CoreIx) (t : ThrIx) (p : Packet) (stream : Option (ThrIx × Nat) := none) : State :=
  sentFor s c (.thread t) p stream

/-- Those of the executing thread. -/
def reqPacket (s : State) (tx : BitVec 16) (kind : BitVec 4) (words : List Word) (aux : BitVec 16) : Packet :=
  requestOf s s.cur.core s.cur.thr tx kind words aux
def requested (s : State) (p : Packet) : State := requestedBy s s.cur.core s.cur.thr p

/-- Whether the executing thread may send a request for n bytes at g now: no far write of its own to one of the words
awaits its reply (R136, R141), the router has the space (R118), the reply store has room (R119), tx is the number it takes (R127),
the guard passes it (R131). -/
def maySend (s : State) (g : Word) (n flits : Nat) (tx : BitVec 16) : Prop :=
  (∀ w ∈ s.th.wrs, sameWords g n w.gva w.bytes = false) ∧ s.mayInject (clusterOf s.cur.core) 0 false = true ∧ s.k.reserved false + flits ≤ 512 ∧
    s.freeTxid s.cur.core = some tx ∧ s.guard s.cur.core s.k.job true (g.extractLsb' 52 12) 0 = true

/-- The buffer after a far store of a word: merged into a far entry of the word unless a posted atomic to the word stands
after that entry; else a new entry (R139). A `put` that stands after the entry no longer holds the newest bytes of the word
(`markOld`: R138 forwards the newest). -/
def withFar (g d : Word) (m : BitVec 16) : List Entry → List Entry
  | [] => [.far g d m]
  | e :: es =>
    match e with
    | .far g' d' m' => if g' = g ∧ hasAmo g es = false then .far g (mergeWord m d' d) (m' ||| m) :: markOld g m es
        else e :: withFar g d m es
    | _ => e :: withFar g d m es

/-- Several far stores in order. -/
def withFars (ws : List (Word × Word × BitVec 16)) (b : List Entry) : List Entry :=
  ws.foldl (fun b w => withFar w.1 w.2.1 w.2.2 b) b

/-- Where a scalar destination puts what a read brings (R137). -/
def readDest (d : SReg) : Dest := if d = 0 then .none else if d = 30 then .out else .s d

end Claims

/-- R136, R143, R144, R149: a far read at an aligned allowed GVA that may be sent: one RD packet of the bytes leaves (to the own
module's endpoint translated at once; the place of a stage-1 error is the model's choice, log 6; the range entry found goes with it,
log 43), the thread goes on, and the read is outstanding with its destination and with the bytes that the thread's own buffer supplies
(R138). `vldf` with no lane enabled sends nothing. The instructions: ldf, vldf, get. -/
def Obligations.FarReads : Prop :=
  ∀ (sz : MSize) (x : Bool) (d a b : SReg) (vd : VReg) (qp : QReg) (off : BitVec 12) (cls : Cls) (lab : Label)
    (t : BitVec 4) (s : State) (tx : BitVec 16) (p : Nat),
    let g := Claims.gvaOf s (s.th.source a [] + off.signExtend 64)
    let h := Claims.gvaOf s (s.th.source a [])
    let n := MSize.bytes sz
    let m := 16 * (t.toNat + 1)
    let sent (g : Word) (n : Nat) (srcs : List SReg) (r : PendingRead) : State :=
      (Claims.requested s (Claims.reqPacket s tx 1 [g, BitVec.ofNat 64 n] 0)).setTh
        { s.th.passed 4 srcs with reads := s.th.reads ++
          [{ r with txid := tx, addr := g, bytes := n, fwd := s.th.farForward g n }] }
    (g.toNat % n = 0 → Claims.farAllowed s g → Claims.maySend s g n ((n + 15) / 16 + 1) tx →
      exec (.ldf sz x d a off) s = .next (sent g n [a] { kind := .far, dest := Claims.readDest d, sext := x })) ∧
    (g.toNat % 64 = 0 → Claims.farAllowed s g → s.th.qreg qp ≠ 0 → Claims.maySend s g 64 5 tx →
      exec (.vldf vd a qp off) s = .next (sent g 64 [a] { kind := .far, dest := .v vd (s.th.qreg qp) })) ∧
    (g.toNat % 64 = 0 → Claims.farAllowed s g → s.th.qreg qp = 0 →
      exec (.vldf vd a qp off) s = .next (s.setTh (s.th.passed 4 [a]))) ∧
    (h.toNat % 16 = 0 → (s.th.source b [a]).toNat % 16 = 0 → Claims.farAllowed s h →
      s.nearPlace s.cur.core (s.th.source b [a]) m = some p → Claims.maySend s h m ((m + 15) / 16 + 1) tx →
      exec (.get cls a lab t b) s = .next (sent h m [a, b] { kind := .get p lab cls }))

/-- R139, R143, R144, R146, R151: far writes and posted atomics become entries of the commit buffer, where they fit, with
the data captured; memory and every register stay. The instructions: stf, vstf, put, amoPost. -/
def Obligations.FarWrites : Prop :=
  ∀ (sz : MSize) (op : AmoOp) (dbl : Bool) (d a b : SReg) (vd : VReg) (qp : QReg) (off : BitVec 12) (t : BitVec 4)
    (s : State) (p : Nat),
    let g := Claims.gvaOf s (s.th.source a [] + off.signExtend 64)
    let h := Claims.gvaOf s (s.th.source a [])
    let n := MSize.bytes sz
    let m := 16 * (t.toNat + 1)
    let buffered (i : Instr) (srcs : List SReg) (buf : List Entry) : Prop :=
      Claims.fits s buf → exec i s = .next (s.setTh { s.th.passed 4 srcs with buf := buf })
    (g.toNat % n = 0 → Claims.farAllowed s g → buffered (.stf sz d a off) [a, d]
      (Claims.withFar (BitVec.ofNat 64 (g.toNat / 8 * 8)) (s.th.source d [a] <<< (8 * (g.toNat % 8)))
        (Claims.bytesMask (g.toNat % 8) n) s.th.buf)) ∧
    (g.toNat % 64 = 0 → Claims.farAllowed s g → buffered (.vstf vd a qp off) [a]
      (Claims.withFars ((Claims.lanesOf (s.th.qreg qp)).map fun i =>
        (g + BitVec.ofNat 64 (8 * i), lane (s.th.vreg vd) i, BitVec.allOnes 16)) s.th.buf)) ∧
    (h.toNat % 16 = 0 → (s.th.source b [a]).toNat % 16 = 0 → Claims.farAllowed s h →
      s.nearPlace s.cur.core (s.th.source b [a]) m = some p →
      buffered (.put a t b) [a, b] (s.th.buf ++ [.put h (s.nearBytes p m)
        ((List.range (m / 8)).filter fun i => s.nearPoison (p + 8 * i) (BitVec.allOnes 16)) []])) ∧
    (h.toNat % (if dbl then 8 else 4) = 0 → Claims.farAllowed s h →
      buffered (.amoPost op dbl a b) [a, b] (s.th.buf ++ [.amo h op dbl (s.th.source b [a])]))

/-- R146, R148: a fetching `amo` or a `cas` of a thread whose buffer is empty: the request leaves with its operands, and the
thread waits at the instruction, nothing popped, until the reply. Within the module the request goes to its endpoint as a far
read does (logs 6, 43). -/
def Obligations.BlockingAtomics : Prop :=
  ∀ (op : AmoOp) (dbl : Bool) (d a b : SReg) (s : State) (tx : BitVec 16),
    let h := Claims.gvaOf s (s.th.source a [])
    let n := if dbl then 8 else 4
    let width : BitVec 16 := if dbl then 96 else 64
    h.toNat % n = 0 → Claims.farAllowed s h → s.th.buf = [] → s.th.held = [] → s.th.begun = false →
    Claims.maySend s h n 2 tx →
    let waits (p : Packet) : State := (Claims.requested s p).setTh
      { s.th with commits := s.th.commits + 1, run := .stalled,
                  block := some { txid := tx, dest := d, gva := h, pops := popsOf [a, b] } }
    exec (.amoFetch op dbl d a b) s = .next (waits (Claims.reqPacket s tx 3 [h, s.th.source b [a]]
      (BitVec.ofNat 16 op.code + width))) ∧
    exec (.cas dbl d a b) s = .next (waits (Claims.reqPacket s tx 5 [h, s.th.source b [a], s.th.reg d, 0] width))

/-- R86, R87, R134: where the far instructions trap: misalignment before the address, and for `get` and `put` the GVA, the
near address, the GVA's reach and the near bounds in this order. The instructions: ldf, stf, vldf, vstf, amoFetch, amoPost,
cas, get, put. -/
def Obligations.FarTraps : Prop :=
  ∀ (sz : MSize) (x dbl : Bool) (op : AmoOp) (d a b : SReg) (vd : VReg) (qp : QReg) (off : BitVec 12) (cls : Cls)
    (lab : Label) (t : BitVec 4) (s : State),
    let g := Claims.gvaOf s (s.th.source a [] + off.signExtend 64)
    let h := Claims.gvaOf s (s.th.source a [])
    let y := s.th.source b [a]
    let n := MSize.bytes sz
    let w := if dbl then 8 else 4
    (∀ i ∈ [Instr.ldf sz x d a off, .stf sz d a off],
      (g.toNat % n ≠ 0 → exec i s = .next (s.trapped 2 g s.th.pc)) ∧
      (g.toNat % n = 0 → ¬ Claims.farAllowed s g → exec i s = .next (s.trapped 5 g s.th.pc))) ∧
    (∀ i ∈ [Instr.vldf vd a qp off, .vstf vd a qp off],
      (g.toNat % 64 ≠ 0 → exec i s = .next (s.trapped 2 g s.th.pc)) ∧
      (g.toNat % 64 = 0 → ¬ Claims.farAllowed s g → exec i s = .next (s.trapped 5 g s.th.pc))) ∧
    (∀ i ∈ [Instr.amoFetch op dbl d a b, .amoPost op dbl a b, .cas dbl d a b],
      (h.toNat % w ≠ 0 → exec i s = .next (s.trapped 2 h s.th.pc)) ∧
      (h.toNat % w = 0 → ¬ Claims.farAllowed s h → exec i s = .next (s.trapped 5 h s.th.pc))) ∧
    (∀ i ∈ [Instr.get cls a lab t b, .put a t b],
      (h.toNat % 16 ≠ 0 → exec i s = .next (s.trapped 2 h s.th.pc)) ∧
      (h.toNat % 16 = 0 → y.toNat % 16 ≠ 0 → exec i s = .next (s.trapped 2 y s.th.pc)) ∧
      (h.toNat % 16 = 0 → y.toNat % 16 = 0 → ¬ Claims.farAllowed s h → exec i s = .next (s.trapped 5 h s.th.pc)) ∧
      (h.toNat % 16 = 0 → y.toNat % 16 = 0 → Claims.farAllowed s h →
        s.nearPlace s.cur.core y (16 * (t.toNat + 1)) = none → exec i s = .next (s.trapped 3 y s.th.pc)))

/-- R342, R359: an instruction whose entries do not fit in a buffer that holds uncommitted ones: in a trap handler it raises
commit overflow; otherwise THS.SPLIT is set, everything taken so far commits, and the instruction waits for the room with
its registers and PC as they were. Where the buffer holds no mark and nothing of earlier commits is held, the near entries take
effect in order, and the others stand in commit order to be injected. The instructions: put, vstf, stn, vstn, send, sendR, sendv,
mcast, and, by the model's reading of R342 (log 39), stf and a posted amo. -/
def Obligations.BufferFull : Prop :=
  ∀ (sz : MSize) (op : AmoOp) (dbl : Bool) (d a b : SReg) (vd : VReg) (qp : QReg) (off : BitVec 12) (t : BitVec 4) (cls : Cls)
    (lab : Label) (tag : BitVec 4) (s : State) (p : Nat),
    let e := s.th.source a [] + off.signExtend 64
    let g := Claims.gvaOf s e
    let h := Claims.gvaOf s (s.th.source a [])
    let m := 16 * (t.toNat + 1)
    let fullFor (n : Nat) (i : Instr) : Prop := 64 < s.th.used + n → entriesSize s.th.buf ≠ 0 →
      (s.th.trap = true → exec i s = .next (s.trapped 9 0 s.th.pc)) ∧
      (s.th.trap = false → ∃ t, exec i s = .next t ∧ t.th.split = true ∧ t.th.buf = [] ∧ t.th.pc = s.th.pc ∧
        t.th.s = s.th.s ∧ t.th.popped = s.th.popped ∧ t.th.run = .stalled ∧ t.th.commits = s.th.commits + 1 ∧
        t.th.instret = s.th.instret ∧
        (s.th.held = [] → (∀ x ∈ s.th.buf, x.isMark = false) →
          let after := (s.th.buf.filterMap fun x => match x with
            | .near w v k => some (w, v, k)
            | _ => none).foldl (fun u w => u.storeWord w.1 w.2.1 w.2.2) s
          t.mem = after.mem ∧ t.poison = after.poison ∧ t.dir = after.dir ∧
          t.th.held = (s.th.buf.filter fun x => !x.isNear).map fun x =>
            { commit := s.th.commits, part := 0, e := x, cls := Thread.cls s.th }))
    let splits (i : Instr) (buf : List Entry) : Prop := fullFor (entriesSize buf - entriesSize s.th.buf) i
    (g.toNat % MSize.bytes sz = 0 → Claims.farAllowed s g → splits (.stf sz d a off)
      (Claims.withFar (BitVec.ofNat 64 (g.toNat / 8 * 8)) (s.th.source d [a] <<< (8 * (g.toNat % 8)))
        (Claims.bytesMask (g.toNat % 8) (MSize.bytes sz)) s.th.buf)) ∧
    (h.toNat % (if dbl then 8 else 4) = 0 → Claims.farAllowed s h →
      splits (.amoPost op dbl a b) (s.th.buf ++ [.amo h op dbl (s.th.source b [a])])) ∧
    (g.toNat % 64 = 0 → Claims.farAllowed s g → splits (.vstf vd a qp off)
      (Claims.withFars ((Claims.lanesOf (s.th.qreg qp)).map fun i =>
        (g + BitVec.ofNat 64 (8 * i), lane (s.th.vreg vd) i, BitVec.allOnes 16)) s.th.buf)) ∧
    (h.toNat % 16 = 0 → (s.th.source b [a]).toNat % 16 = 0 → Claims.farAllowed s h →
      s.nearPlace s.cur.core (s.th.source b [a]) m = some p → fullFor (m / 8) (.put a t b)) ∧
    (e.toNat % MSize.bytes sz = 0 → s.nearPlace s.cur.core e (MSize.bytes sz) = some p → ownTcm s.cur.core (p / 8 * 8) = false →
      splits (.stn sz d a off) (Claims.withNear (p / 8 * 8) (s.th.source d [a] <<< (8 * (p % 8)))
        (Claims.bytesMask (p % 8) (MSize.bytes sz)) s.th.buf)) ∧
    (e.toNat % 8 = 0 → s.nearPlace s.cur.core e 64 = some p → splits (.vstn vd a qp off)
      (Claims.withNears (((Claims.lanesOf (s.th.qreg qp)).map fun l => (p + 8 * l, lane (s.th.vreg vd) l, BitVec.allOnes 16)).filter
        fun w => !ownTcm s.cur.core w.1) s.th.buf)) ∧
    (let A := s.th.source a []
     let words (n : Nat) (ctl : Bool) : Nat := 1 + (if cls = .trump ∨ ctl = true then Nat.min n 4 else n)
     (s.reaches (modOf (s.sendDst A)) = true →
       fullFor (words s.th.out.length (s.k.sup && decide (tag = 15))) (.send cls a lab tag) ∧
       fullFor (words s.th.out.length (s.k.sup && decide (tag = 15))) (.sendR cls a lab tag) ∧
       fullFor (words 8 false) (.sendv cls a lab tag vd)) ∧
     (∀ gr, SMap.find s.groups (A.toNat % 256) = some gr → gr.job = s.k.job → fullFor (words s.th.out.length false) (.mcast cls a lab tag)))

namespace Claims

/-! ### Messages, triggers, barriers -/

/-- The core that a send names: a module field of 0xFFF is the own module (R330). -/
def destination (s : State) (a : Word) : BitVec 27 :=
  if a.extractLsb' 15 12 = 0xFFF#12 then s.coreName (a.extractLsb' 0 15) else a.extractLsb' 0 27

/-- The module of a core name is the own one or lies in the pod (R87, R330). -/
def inReach (s : State) (dst : BitVec 27) : Prop :=
  dst.extractLsb' 15 12 = s.cfg.modid ∨ s.inExtent (dst.extractLsb' 15 12) = true

/-- A send took its entry: the payload `ws`, cut to four words with OOV set when `short`, stands in the buffer, where it
fits; the open message is empty unless `keep`. -/
def sends (s : State) (i : Instr) (a : SReg) (dsts : List (BitVec 27)) (cls : Cls) (lab : Label) (tag : BitVec 4)
    (ws : List Word) (short rel ctl keep : Bool) : Prop :=
  let b := s.th.buf ++ [.msg dsts cls lab tag (if short then ws.take 4 else ws) rel ctl]
  fits s b → exec i s = .next (s.setTh { s.th.passed 4 [a] with
    buf := b, out := if keep then s.th.out else [], oov := s.th.oov || (short && decide (4 < ws.length)) })

/-- A group of the table, and that a job owns it (R325). -/
def ownsGroup (s : State) (g : BitVec 8) (gr : Group) : Prop := SMap.find s.groups g.toNat = some gr ∧ gr.job = s.k.job

/-- No message of a label. -/
def noneOf (lab : Label) (q : List Message) : Prop := ∀ m ∈ q, m.hdr.lab ≠ lab

/-- The classes above a class. -/
def higher : Cls → List Cls
  | .bulk => [.normal, .high, .trump] | .normal => [.high, .trump] | .high => [.trump] | .trump => []

/-- m is the message of a label that leaves a core's queues for `recv`, and `k'` the core without it: the oldest of the label in
the highest class that holds one (R332). -/
def takes (k : Core) (lab : Label) (m : Message) (k' : Core) : Prop :=
  ∃ cls pre post, k.queue cls = pre ++ m :: post ∧ m.hdr.lab = lab ∧ noneOf lab pre ∧
    (∀ c ∈ higher cls, noneOf lab (k.queue c)) ∧ k' = k.setQueue cls (pre ++ post)

/-- The core with a trigger entry changed. -/
def withEn (s : State) (lab : Label) (f : Word → Word) : State :=
  (s.setTh (s.th.passed 4 [])).modK fun k => { k with trig := SMap.set lab.toNat (f (SMap.get 0 k.trig lab.toNat)) k.trig }

/-- The thread `th` and the barrier state of the executing core, with its arrival on the way (R326). -/
def arrived (s t : State) (grp : BitVec 8) (th : Thread) : Prop :=
  ∃ f : Flight, f.p.hdr.kind = 10 ∧ f.p.hdr.cls = reqClass s.th ∧ f.p.hdr.src = s.coreName s.cur.core ∧
    f.p.hdr.job = s.k.job ∧ f.p.hdr.aux = grp.setWidth 16 ∧
    t = (let u := (s.setTh th).modK fun k => { k with bars := SMap.set grp.toNat .wait k.bars }
         { u with net := u.net ++ [f] })

end Claims

/-- R330, R363: what the sends take at issue. A trump payload is cut to four words; in supervisor mode a tag of 15 makes
`send` and `send.r` control sends of class high, cut likewise; `sendv` sends the lanes and leaves the open message. The
instructions: send, sendR, sendv, mcast. -/
def Obligations.Sends : Prop :=
  ∀ (cls : Cls) (a : SReg) (lab : Label) (tag : BitVec 4) (vb : VReg) (s : State) (gr : Group),
    let A := s.th.source a []
    let dst := Claims.destination s A
    let ctl := s.k.sup && decide (tag = 15)
    let trump := decide (cls = .trump)
    (Claims.inReach s dst →
      Claims.sends s (.send cls a lab tag) a [dst] (if ctl then .high else cls) lab tag s.th.out (trump || ctl) false ctl false ∧
      Claims.sends s (.sendR cls a lab tag) a [dst] (if ctl then .high else cls) lab tag s.th.out (trump || ctl) true ctl false ∧
      Claims.sends s (.sendv cls a lab tag vb) a [dst] cls lab tag
        ((List.range 8).map fun i => (s.th.vreg vb).extractLsb' (64 * i) 64) trump false false true) ∧
    (¬ Claims.inReach s dst → ∀ i ∈ [Instr.send cls a lab tag, .sendR cls a lab tag, .sendv cls a lab tag vb],
      exec i s = .next (s.trapped 5 A s.th.pc)) ∧
    (Claims.ownsGroup s (A.extractLsb' 0 8) gr →
      Claims.sends s (.mcast cls a lab tag) a (gr.members.map s.coreName) cls lab tag s.th.out trump false false false) ∧
    ((∀ g, ¬ Claims.ownsGroup s (A.extractLsb' 0 8) g) → exec (.mcast cls a lab tag) s = .next (s.trapped 3 A s.th.pc))

/-- R332: `recv` takes the oldest message of the label from the highest class: it becomes current, and what its completion
carries takes effect (R164, R283): the flags, and the bytes that its commands wrote below XB are fetched from now on (R158,
`Core.unveil`); with none, the thread sleeps. An xpack-overflow completion traps (R178). -/
def Obligations.Receive : Prop :=
  ∀ (lab : Label) (s : State),
    let sleeps := exec (.recv lab) s = .next (s.setTh { s.th with run := .recv lab s.tick })
    ((∀ c, Claims.noneOf lab (s.k.queue c)) → sleeps) ∧
    ((∀ t since, (s.k.thread t).run ≠ .recv lab since) → ∀ m k, Claims.takes s.k lab m k →
      (m.eff.overflow = none → exec (.recv lab) s = .next (((s.setCore s.cur.core k).setTh { s.th.passed 4 [] with
          msg := some m, popped := 0, fflags := s.th.fflags ||| m.eff.flags }).modK fun k => k.unveil m.eff.cmds)) ∧
      (∀ x, m.eff.overflow = some x →
        (s.th.trap = true → exec (.recv lab) s = .next (s.trapped 8 x s.th.pc)) ∧
        (s.th.trap = false → s.k.tvEn = true → ∃ u, exec (.recv lab) s = .next u ∧ u.th.trap = true ∧
          u.th.tcause = 8 ∧ u.th.taddr = x ∧ u.th.tepc = s.th.pc ∧ u.th.pc = BitVec.ofNat 64 (4 * s.k.tvEntry.toNat) ∧
          u.th.msg = some m ∧ u.th.popped = 0 ∧ u.th.s = s.th.s)))

/-- R333: the five instructions on the trigger entry of a label and on CF; R329, R334: `tlaunch` replaces the tail-launch record
of the job, a handle of 0 cancels it. The instructions: arm, disarm, tcnt, setf, clrf, tlaunch. -/
def Obligations.Triggers : Prop :=
  ∀ (d a : SReg) (lab : Label) (mask : Byte) (s : State),
    let e := SMap.get 0 s.k.trig lab.toNat
    let n := SMap.get 0 s.k.cnt lab.toNat
    exec (.arm lab) s = .next (Claims.withEn s lab fun e => e ||| (1#64 <<< 38)) ∧
    exec (.disarm lab) s = .next (Claims.withEn s lab fun e => e &&& ~~~ (1#64 <<< 38)) ∧
    exec (.tcnt d lab) s = .next (s.setTh (s.th.retired 4 [] d (n.setWidth 64 ||| ((e.extractLsb' 40 16).setWidth 64 <<< 16)
      ||| ((e.extractLsb' 38 1).setWidth 64 <<< 32) ||| ((e.extractLsb' 17 1).setWidth 64 <<< 33)) 0)) ∧
    exec (.setf mask) s = .next ((s.setTh (s.th.passed 4 [])).modK fun k => { k with cf := k.cf ||| mask }) ∧
    exec (.clrf mask) s = .next ((s.setTh (s.th.passed 4 [])).modK fun k => { k with cf := k.cf &&& ~~~ mask }) ∧
    (∀ j, SMap.find s.jobs s.k.job.toNat = some j → exec (.tlaunch a) s = .next { s.setTh (s.th.passed 4 [a]) with
      jobs := SMap.set s.k.job.toNat { j with tail := if s.th.source a [] = 0 then none else some (s.th.source a []) } s.jobs })

/-- R326, R336: `bar` and `arrive` (Table 12.4), where the guard passes the arrival; an arrival waits for its space in the router
(R118). R326 has the routers combine arrivals: that they go to the first member of the group, and are asked of the guard toward
its cluster, is the model's choice (log 20). A group that the job does not own, or
without the executing core, traps and changes nothing else. -/
def Obligations.Barriers : Prop :=
  ∀ (grp : BitVec 8) (s : State),
    (∀ gr, Claims.ownsGroup s grp gr → s.cur.core ∈ gr.members →
      s.guard s.cur.core s.k.job false s.cfg.modid (clusterOf (gr.members.getD 0 0)) = true →
      let b := SMap.get BarSt.idle s.k.bars grp.toNat
      let asleep := { s.th with run := .bar grp }
      let room := s.mayInject (clusterOf s.cur.core) 0 false = true
      let waits := s.setTh { s.th with run := .stalled }
      (b = .idle → ¬ room → exec (.bar grp) s = .next waits) ∧ (b ≠ .wait → ¬ room → exec (.arrive grp) s = .next waits) ∧
      (b = .idle → room → ∃ t, exec (.bar grp) s = .next t ∧ Claims.arrived s t grp asleep) ∧
      (b = .wait → exec (.bar grp) s = .next (s.setTh asleep) ∧
        exec (.arrive grp) s = .next waits) ∧
      (b = .done → exec (.bar grp) s = .next ((s.setTh (s.th.passed 4 [])).modK fun k =>
        { k with bars := SMap.set grp.toNat .idle k.bars })) ∧
      (b ≠ .wait → room → ∃ t, exec (.arrive grp) s = .next t ∧ Claims.arrived s t grp (s.th.passed 4 []))) ∧
    ((∀ gr, Claims.ownsGroup s grp gr → s.cur.core ∉ gr.members) →
      exec (.bar grp) s = .next (s.trapped 3 (grp.setWidth 64) s.th.pc) ∧
      exec (.arrive grp) s = .next (s.trapped 3 (grp.setWidth 64) s.th.pc))

namespace Claims

/-! ### Control and status registers -/

/-- A field of a register at a bit position. -/
def at' {w : Nat} (x : BitVec w) (pos : Nat) : Word := x.setWidth 64 <<< pos

/-- What a CSR reads as for the executing thread: the layouts of R28, R33, Tables 8.4 to 8.6, 14.2 and 14.13. -/
def csrValue (s : State) : Csr → Word
  | .fflags => at' s.th.fflags 0
  | .frm => at' s.th.frm 0
  | .ths => at' (BitVec.ofBool s.th.split) 0 ||| at' (BitVec.ofBool s.k.sup) 1 ||| at' (BitVec.ofBool s.th.trap) 2 ||| at' s.cur.thr 3
      ||| at' (BitVec.ofBool s.th.ine) 6 ||| at' (BitVec.ofBool s.th.oov) 7 ||| at' (BitVec.ofBool s.th.lact) 8
      ||| at' s.th.llen 9 ||| at' s.th.lstart 14 ||| at' s.th.lcnt 32
  | .cf => at' s.k.cf 0
  | .xb => at' s.k.xb 6
  | .tv => at' (BitVec.ofBool s.k.tvEn) 0 ||| at' s.k.tvEntry 2
  | .tcause => at' s.th.tcause 0
  | .taddr => s.th.taddr
  | .tepc => s.th.tepc
  | .mhd0 => match s.th.msg with
    | some m => at' m.hdr.dcore 0 ||| at' m.hdr.dcl 7 ||| at' m.hdr.dmod 15 ||| at' m.hdr.vn 27 ||| at' (BitVec.ofNat 2 m.hdr.cls.code) 29
        ||| at' m.hdr.lab 31 ||| at' m.hdr.plen 38 ||| at' m.hdr.kind 43 ||| at' m.hdr.src 47
    | none => 0
  | .mhd1 => match s.th.msg with
    | some m => at' (m.hdr.src.extractLsb' 17 10) 0 ||| at' m.hdr.job 10 ||| at' m.hdr.tag 18 ||| at' m.hdr.txid 22
        ||| at' m.hdr.stat 38 ||| at' m.hdr.aux 42 ||| at' m.hdr.rsvd 58
    | none => 0
  | .job => at' s.k.job 0
  | .team => at' s.k.rank 0 ||| at' s.k.size 8
  | .coreid => at' (s.cur.core.extractLsb' 0 7) 0 ||| at' (s.cur.core.extractLsb' 7 8) 7 ||| at' s.cfg.modid 15
  | .cycle => s.cycle
  | .instret => s.th.instret
  | .pcc0 => s.k.pcc[0]
  | .pcc1 => s.k.pcc[1]
  | .pcc2 => s.k.pcc[2]
  | .pcc3 => s.k.pcc[3]

/-- The bits of a CSR that a write reaches in supervisor mode. -/
def csrBits : Csr → Word
  | .fflags => 0x3F | .frm => 3 | .ths => 0xFFFFFFFF1FFFFFC1 | .cf => 0xFF | .xb => 0x1FFC0 | .tv => 0x1FFFD
  | .tcause => 0x1FFFFF | .taddr => 0xFFFFFFFFFFFFFFFF | .tepc => 0xFFFFFFFFFFFFFFFF
  | .pcc0 | .pcc1 | .pcc2 | .pcc3 => 0x3FFFFFD
  | .mhd0 | .mhd1 | .job | .team | .coreid | .cycle | .instret => 0

/-- Whether Table 2.2 lets the mode read, and write, a CSR. -/
def csrRead (sup : Bool) : Csr → Bool
  | .pcc0 | .pcc1 | .pcc2 | .pcc3 => sup
  | _ => true
def csrWrite (sup : Bool) : Csr → Bool
  | .fflags | .frm | .ths | .cf | .tv | .tepc => true
  | .xb | .tcause | .taddr | .pcc0 | .pcc1 | .pcc2 | .pcc3 => sup
  | .mhd0 | .mhd1 | .job | .team | .coreid | .cycle | .instret => false

/-- The fields of a thread that no CSR write reaches agree. -/
def sameBesidesCsrs (t u : Thread) : Prop :=
  { t with fflags := u.fflags, frm := u.frm, split := u.split, ine := u.ine, oov := u.oov, lact := u.lact, llen := u.llen,
           lstart := u.lstart, lcnt := u.lcnt, tcause := u.tcause, taddr := u.taddr, tepc := u.tepc } = u

end Claims

/-- R49, R225 to R229, R255: `csrr` writes the CSR's value to s[d]; a CSR that Table 2.2 denies the mode is illegal. -/
def Obligations.CsrReads : Prop :=
  ∀ (d : SReg) (r : Csr) (s : State),
    (Claims.csrRead s.k.sup r = true →
      exec (.csrr d r) s = .next (s.setTh (s.th.retired 4 [] d (Claims.csrValue s r) 0))) ∧
    (Claims.csrRead s.k.sup r = false → exec (.csrr d r) s = .next (s.trapped 1 (instrBits (.csrr d r)) s.th.pc))

/-- R49, R255: `csrw`, `csrs` and `csrc`. The old value goes to s[d]; of the new value each writable field is stored,
XB.BOUND clamped (R227), the RO fields of THS and every other CSR keep their values, reserved bits read zero, apart from the counters, the loop
context's own step and the ports' flags, which the instruction's completion changes as ever. With d = s30 the old value is pushed
to the open message after the write, so a push that finds it full sets OOV (R219). The loop context's own step stands before a
write of THS (the model's order, log 18). -/
def Obligations.CsrWrites : Prop :=
  ∀ (d a : SReg) (r : Csr) (s : State),
    let A := s.th.source a []
    let old := Claims.csrValue s r
    let m := Claims.csrBits r
    let full := d = 30 ∧ 32 ≤ s.th.out.length
    ∀ p ∈ [(Instr.csrw d a r, A), (.csrs d a r, old ||| A), (.csrc d a r, old &&& ~~~ A)],
      (Claims.csrWrite s.k.sup r = true → ∃ t, exec p.1 s = .next t ∧
        (let base := Claims.csrValue (s.setTh (s.th.passed 4 [a])) r
         let y := (if r = .ths then base &&& 0x3E else 0) ||| p.2 &&& m
         Claims.csrValue t r = if r = .xb then (if 0x18000 < y.toNat then 0x18000 else y)
           else if r = .ths ∧ full then y ||| 0x80 else y) ∧
        (∀ r', r' ≠ r → Claims.csrValue t r' = Claims.csrValue (s.setTh (s.th.retired 4 [a] d old 0)) r') ∧
        Claims.sameBesidesCsrs (s.th.retired 4 [a] d old 0) t.th ∧
        t.mem = s.mem ∧ t.net = s.net ∧ t.jobs = s.jobs ∧ t.clusters = s.clusters ∧ t.cfg = s.cfg) ∧
      (Claims.csrWrite s.k.sup r = false → exec p.1 s = .next (s.trapped 1 (instrBits p.1) s.th.pc))

namespace Claims

/-! ### Vector instructions (chapter 10) -/

/-- Element n of width w of a vector register (R24, R261). -/
def elem (w n : Nat) (v : Vec) : BitVec w := v.extractLsb' (w * n) w

/-- Whether a predicate enables the lane of element n (R261, R262). -/
def enables (q : Byte) (w n : Nat) : Bool := q.getLsbD (n * w / 64)

/-- The machine after a vector instruction that wrote r to vd and raised the flags. -/
def vectorDone (s : State) (vd : VReg) (r : Vec) (fl : Flags) : State :=
  s.setTh { s.th.retired 4 [] 0 0 fl with v := s.th.v.set vd.toNat r vd.isLt }

/-- VOP of R262: i writes `op n` to each enabled element n of vd and keeps the others; `flags` are those of the enabled
elements together. -/
def elementwise (s : State) (i : Instr) (w : Nat) (vd : VReg) (qp : QReg) (op : Nat → BitVec w) (fl : Flags) : Prop :=
  ∃ r, (∀ n, n < 512 / w → elem w n r = if enables (s.th.qreg qp) w n then op n else elem w n (s.th.vreg vd)) ∧
    exec i s = .next (vectorDone s vd r fl)

/-- The numbers of the enabled elements, ascending. -/
def enabledOf (q : Byte) (w : Nat) : List Nat := (List.range (512 / w)).filter fun n => enables q w n

/-- The flags of the enabled elements, ORed. -/
def flagsOf (q : Byte) (w : Nat) (f : Nat → Flags) : Flags := ((enabledOf q w).map f).foldl (· ||| ·) 0

/-- The integer types: signedness and width (Table 1.1). -/
def intTypes : List (VTy × Bool × Nat) :=
  [(.i8, true, 8), (.i16, true, 16), (.i32, true, 32), (.i64, true, 64),
   (.n8, false, 8), (.n16, false, 16), (.n32, false, 32), (.n64, false, 64)]

/-- The value of an element of an integer type. -/
def intOf (signed : Bool) {w : Nat} (x : BitVec w) : Int := if signed then x.toInt else (x.toNat : Int)

/-- Rows of Table 10.2 with two operands and no flag. -/
def vectorTwo : List ((VTy → VReg → VReg → VReg → QReg → Instr) × (Bool → (w : Nat) → BitVec w → BitVec w → BitVec w)) :=
  [(.vaddInt, fun _ _ A B => A + B), (.vsubInt, fun _ _ A B => A - B), (.vmulInt, fun _ _ A B => A * B),
   (.vmulh, fun g w A B => (BitVec.ofInt (2 * w) (intOf g A * intOf g B)).extractLsb' w w),
   (.vminInt, fun g _ A B => if intOf g A ≤ intOf g B then A else B),
   (.vmaxInt, fun g _ A B => if intOf g A ≤ intOf g B then B else A),
   (.vand, fun _ _ A B => A &&& B), (.vor, fun _ _ A B => A ||| B), (.vxor, fun _ _ A B => A ^^^ B),
   (.vsll, fun _ w A B => A <<< (B.toNat % w)), (.vsrl, fun _ w A B => A >>> (B.toNat % w)),
   (.vsra, fun _ w A B => A.sshiftRight (B.toNat % w))]

/-- Its saturating rows: the exact result. -/
def vectorSat : List ((VTy → VReg → VReg → VReg → QReg → Instr) × (Int → Int → Int)) :=
  [(.vadds, fun A B => A + B), (.vsubs, fun A B => A - B)]

/-- Its unary rows. -/
def vectorOne : List ((VTy → VReg → VReg → QReg → Instr) × (Bool → (w : Nat) → BitVec w → BitVec w)) :=
  [(.vabsInt, fun g w A => if g && A.msb then 0#w - A else A), (.vnegInt, fun _ w A => 0#w - A)]

/-- The immediate shifts. -/
def vectorShift : List ((VTy → VReg → VReg → BitVec 7 → QReg → Instr) × ((w : Nat) → BitVec w → Nat → BitVec w)) :=
  [(.vslli, fun _ A n => A <<< n), (.vsrli, fun _ A n => A >>> n), (.vsrai, fun _ A n => A.sshiftRight n)]

/-- Floating-point entries: what an element receives from A, B and D, with its flags (R265, R269). -/
def vectorFloat : List ((FFmt → Rm → VReg → VReg → VReg → QReg → Instr) × (FF → RMode → Nat → Nat → Nat → Nat × Flags)) :=
  [(.vaddFp, fun f m A B _ => FF.add f m A B), (.vsubFp, fun f m A B _ => FF.sub f m A B),
   (.vmulFp, fun f m A B _ => FF.mul f m A B), (.vfma, fun f m A B D => FF.fma f m A B D),
   (.vfms, fun f m A B D => FF.fma f m A B (FF.neg f D)), (.vfnma, fun f m A B D => FF.fma f m (FF.neg f A) B D),
   (.vdiv, fun f m A B _ => FF.div f m A B),
   (fun f _ => .vminFp f, fun f _ A B _ => FF.minmax f false false A B),
   (fun f _ => .vmaxFp f, fun f _ A B _ => FF.minmax f true false A B),
   (fun f _ => .vminn f, fun f _ A B _ => FF.minmax f false true A B),
   (fun f _ => .vmaxn f, fun f _ A B _ => FF.minmax f true true A B)] ++
  [(fun f rm vd va _ => .vrcp f rm vd va, fun f m A _ _ => FF.div f m f.one A),
   (fun f rm vd va _ => .vrsq f rm vd va, fun f m A _ _ => FF.rsq f m A),
   (fun f rm vd va _ => .vsqrt f rm vd va, fun f m A _ _ => FF.sqrt f m A),
   (fun f rm vd va _ => .vexp2 f rm vd va, fun f _ A _ _ => viaFp32 exp2 f A),
   (fun f rm vd va _ => .vlog2 f rm vd va, fun f _ A _ _ => viaFp32 log2 f A)]

/-- Floating types of compares and reductions. -/
def floatTypes : List (VTy × FF) := [(.bf16, .bf16), (.f16, .f16), (.f32, .fp32)]

/-- The exact value of a pattern that is no NaN, in units of the format's smallest subnormal; an infinity lies beyond every
finite value (R20, R266). -/
def units (f : FF) (x : Nat) : Int :=
  match f.read x with
  | .fin neg m e => (if neg then -1 else 1) * (m * 2 ^ (e - (1 - f.bias - f.mbits)).toNat : Nat)
  | .inf neg => (if neg then -1 else 1) * (2 ^ 300 : Nat)
  | .nan _ => 0

/-- A condition on ordered values (R266). -/
def ordered (c : VCond) (a b : Int) : Prop :=
  match c with
  | .eq => a = b | .ne => a ≠ b | .lt => a < b | .le => a ≤ b | .gt => b < a | .ge => b ≤ a | .uno => False | .ord => True

/-- A condition on two floating-point patterns; a NaN makes `ne` and `uno` true and the others false (R266). -/
def floatHolds (c : VCond) (f : FF) (a b : Nat) : Prop :=
  if (f.read a).isNan || (f.read b).isNan then c = .ne ∨ c = .uno else ordered c (units f a) (units f b)

/-- NV of a compare of two patterns: any NaN under lt, le, gt, ge; a signalling one under the others (R266). -/
def compareNv (c : VCond) (f : FF) (a b : Nat) : Flags :=
  if c = .lt ∨ c = .le ∨ c = .gt ∨ c = .ge then (if (f.read a).isNan || (f.read b).isNan then fNV else 0)
  else if (f.read a).isSig || (f.read b).isSig then fNV else 0

/-- Widths of the vector types (Tables 1.1, 1.3). -/
def widthOf' : VTy → Nat
  | .i8 | .n8 | .e4m3 | .e5m2 => 8 | .i16 | .n16 | .bf16 | .f16 => 16 | .i32 | .n32 | .f32 => 32 | .i64 | .n64 => 64
  | .e2m1 => 4

/-- The steps of a reduction over the enabled elements, ascending; none without one (R271). -/
def reduceSteps {α : Type} (step : α → α → α × Flags) : List α → Option (α × Flags)
  | [] => none
  | x :: xs => some (xs.foldl (fun acc y => ((step acc.1 y).1, acc.2 ||| (step acc.1 y).2)) (x, 0))

/-- The reductions: their integer step, and their step on FP32 patterns (R271). -/
def reductions : List ((VTy → VReg → VReg → QReg → Instr) ×
    (Bool → (w : Nat) → BitVec w → BitVec w → BitVec w) × (Nat → Nat → Nat × Flags)) :=
  let least (g : Bool) (w : Nat) (A B : BitVec w) : BitVec w := if intOf g A ≤ intOf g B then A else B
  let most (g : Bool) (w : Nat) (A B : BitVec w) : BitVec w := if intOf g A ≤ intOf g B then B else A
  [(.vredadd, fun _ _ A B => A + B, FF.add .fp32 .rne),
   (.vredmin, least, FF.minmax .fp32 false false), (.vredmax, most, FF.minmax .fp32 true false),
   (.vredminn, least, FF.minmax .fp32 false true), (.vredmaxn, most, FF.minmax .fp32 true true)]

end Claims

/-- R261, R262, R264, R272: the integer entries and the shifts, elementwise under the predicate, at every integer type. The
instructions: vaddInt, vsubInt, vmulInt, vmulh, vadds, vsubs, vminInt, vmaxInt, vand, vor, vxor, vabsInt, vnegInt, vsll,
vsrl, vsra, vslli, vsrli, vsrai. -/
def Obligations.VectorInteger : Prop :=
  ∀ t ∈ Claims.intTypes, ∀ (vd va vb : VReg) (qp : QReg) (sh : BitVec 7) (s : State),
    let g := t.2.1
    let w := t.2.2
    let A (n : Nat) : BitVec w := Claims.elem w n (s.th.vreg va)
    let B (n : Nat) : BitVec w := Claims.elem w n (s.th.vreg vb)
    (∀ p ∈ Claims.vectorTwo, Claims.elementwise s (p.1 t.1 vd va vb qp) w vd qp (fun n => p.2 g w (A n) (B n)) 0) ∧
    (∀ p ∈ Claims.vectorSat,
      let z (n : Nat) : Int := p.2 (Claims.intOf g (A n)) (Claims.intOf g (B n))
      let lo : Int := if g then -(2 ^ (w - 1)) else 0
      let hi : Int := if g then 2 ^ (w - 1) - 1 else 2 ^ w - 1
      Claims.elementwise s (p.1 t.1 vd va vb qp) w vd qp (fun n => BitVec.ofInt w (Claims.clampTo lo hi (z n)))
        (Claims.flagsOf (s.th.qreg qp) w fun n => if z n < lo ∨ hi < z n then fSAT else 0)) ∧
    (∀ p ∈ Claims.vectorOne, Claims.elementwise s (p.1 t.1 vd va qp) w vd qp (fun n => p.2 g w (A n)) 0) ∧
    (∀ p ∈ Claims.vectorShift, sh.toNat < w → Claims.elementwise s (p.1 t.1 vd va sh qp) w vd qp
      (fun n => p.2 w (A n) sh.toNat) 0)

/-- R262, R263, R265, R269: the floating-point entries, elementwise under the predicate and the rounding selector (`dyn` naming
FRM.RM), flags of the enabled elements; `vabs`, `vneg`, `vcsgn` change the sign bit alone and raise none (R22). The
instructions: vaddFp, vsubFp, vmulFp, vfma, vfms, vfnma, vdiv, vminFp, vmaxFp, vminn, vmaxn, vrcp, vrsq, vsqrt, vexp2, vlog2,
vabsFp, vnegFp, vcsgn. -/
def Obligations.VectorFloat : Prop :=
  ∀ (f : FFmt) (rm : Rm) (vd va vb : VReg) (qp : QReg) (s : State), rm ≠ .sr →
    let g := FFmt.ff f
    let w := g.width
    let A (n : Nat) : BitVec w := Claims.elem w n (s.th.vreg va)
    let B (n : Nat) : BitVec w := Claims.elem w n (s.th.vreg vb)
    let D (n : Nat) : BitVec w := Claims.elem w n (s.th.vreg vd)
    (∀ p ∈ Claims.vectorFloat,
      let r (n : Nat) := p.2 g (Claims.modeOf s.th.frm rm) (A n).toNat (B n).toNat (D n).toNat
      Claims.elementwise s (p.1 f rm vd va vb qp) w vd qp (fun n => BitVec.ofNat w (r n).1)
        (Claims.flagsOf (s.th.qreg qp) w fun n => (r n).2)) ∧
    (let sign : BitVec w := BitVec.twoPow w (w - 1)
     Claims.elementwise s (.vabsFp f vd va qp) w vd qp (fun n => A n &&& ~~~ sign) 0 ∧
     Claims.elementwise s (.vnegFp f vd va qp) w vd qp (fun n => A n ^^^ sign) 0 ∧
     Claims.elementwise s (.vcsgn f vd va vb qp) w vd qp (fun n => (A n &&& ~~~ sign) ||| (B n &&& sign)) 0)

/-- R266: `vcmp` writes one bit per lane to qd: 1 for an enabled lane all of whose elements meet the condition; a qd of q0
discards the bits, not the flags. -/
def Obligations.VectorCompare : Prop :=
  ∀ (c : VCond) (qd : QReg) (va vb : VReg) (qp : QReg) (s : State),
    let q := s.th.qreg qp
    let compares (i : Instr) (w : Nat) (holds : Nat → Prop) (fl : Flags) : Prop := ∃ r : Byte,
      (∀ l, l < 8 → (r.getLsbD l = true ↔ q.getLsbD l = true ∧ ∀ n, n < 512 / w → n * w / 64 = l → holds n)) ∧
      exec i s = .next (s.setTh { s.th.retired 4 [] 0 0 fl with q := if qd = 0 then s.th.q else s.th.q.set qd.toNat r qd.isLt })
    (∀ t ∈ Claims.intTypes, compares (.vcmp c t.1 qd va vb qp) t.2.2 (fun n => Claims.ordered c
      (Claims.intOf t.2.1 (Claims.elem t.2.2 n (s.th.vreg va))) (Claims.intOf t.2.1 (Claims.elem t.2.2 n (s.th.vreg vb)))) 0) ∧
    (∀ t ∈ Claims.floatTypes,
      let A (n : Nat) : Nat := (Claims.elem t.2.width n (s.th.vreg va)).toNat
      let B (n : Nat) : Nat := (Claims.elem t.2.width n (s.th.vreg vb)).toNat
      compares (.vcmp c t.1 qd va vb qp) t.2.width (fun n => Claims.floatHolds c t.2 (A n) (B n))
        (Claims.flagsOf q t.2.width fun n => Claims.compareNv c t.2 (A n) (B n)))

/-- R268: where `vcvt` takes its elements from and puts them, by the two widths and the part; each element is converted by the
model's `convert` (Table 1.10), and only elements that land in enabled lanes raise flags. -/
def Obligations.VectorConvert : Prop :=
  ∀ (src dst : VTy) (ns : Bool) (rm : Rm) (vd va : VReg) (part qp : BitVec 3) (s : State), rm ≠ .sr →
    let ws := Claims.widthOf' src
    let wt := Claims.widthOf' dst
    let Ns := 512 / ws
    let p := part.toNat
    let from? (n : Nat) : Option Nat :=
      if ws = wt then some n
      else if wt < ws then (if p * Ns ≤ n ∧ n - p * Ns < Ns then some (n - p * Ns) else none)
      else some (p * (512 / wt) + n)
    let r (n : Nat) : BitVec wt × Flags :=
      match from? n with
      | some m =>
        let x := convert (vtyFmt src) (vtyFmt dst) ns (Claims.modeOf s.th.frm rm) (Claims.elem ws m (s.th.vreg va)).toNat
        (BitVec.ofNat wt x.1, x.2)
      | none => (Claims.elem wt n (s.th.vreg vd), 0)
    Claims.elementwise s (.vcvt src dst ns rm vd va part qp) wt vd qp (fun n => (r n).1)
      (Claims.flagsOf (s.th.qreg qp) wt fun n => (r n).2)

/-- R271: the reductions: the enabled elements in ascending order, one step at a time; the result in element 0, every other
bit of vd zero; without an enabled lane zero and no flag; floating types in FP32, rounded once at the end, NV for any enabled
signalling NaN. The instructions: vredadd, vredmin, vredmax, vredminn, vredmaxn. -/
def Obligations.VectorReduce : Prop :=
  ∀ p ∈ Claims.reductions, ∀ (vd va : VReg) (qp : QReg) (s : State),
    (∀ t ∈ Claims.intTypes,
      let es := (Claims.enabledOf (s.th.qreg qp) t.2.2).map fun n => Claims.elem t.2.2 n (s.th.vreg va)
      exec (p.1 t.1 vd va qp) s = .next (Claims.vectorDone s vd
        (match Claims.reduceSteps (fun a b => (p.2.1 t.2.1 t.2.2 a b, 0)) es with
          | some r => r.1.setWidth 512
          | none => 0) 0)) ∧
    (∀ t ∈ Claims.floatTypes,
      let es := (Claims.enabledOf (s.th.qreg qp) t.2.width).map fun n => (Claims.elem t.2.width n (s.th.vreg va)).toNat
      let nv : Flags := if es.any fun e => (t.2.read e).isSig then fNV else 0
      let out : Nat × Flags := match Claims.reduceSteps p.2.2 (es.map (widen t.2)) with
        | some acc =>
          let x := convert (.flt .fp32) (.flt t.2) false .rne acc.1
          (x.1, acc.2 ||| x.2 ||| nv)
        | none => (0, 0)
      exec (p.1 t.1 vd va qp) s = .next (Claims.vectorDone s vd (BitVec.ofNat 512 out.1) out.2))

/-- R270, R273, R274: the permutes, elementwise under the predicate, without rounding or flag; `vbool3` bit by bit in the
enabled lanes; the moves between the register files with their ports; a `qset` to q0 is discarded. The instructions: vperm,
vbcst, vzip, vunzip, vbool3, vins, vext, vdup, qset, qget. -/
def Obligations.VectorMoves : Prop :=
  ∀ (ty : VTy) (vd va vb : VReg) (qp q : QReg) (tab : BitVec 8) (a : SReg) (l : BitVec 3) (s : State),
    let w := Claims.widthOf' ty
    let N := 512 / w
    let A (n : Nat) : BitVec w := Claims.elem w n (s.th.vreg va)
    let B (n : Nat) : BitVec w := Claims.elem w n (s.th.vreg vb)
    let x := s.th.source a []
    Claims.elementwise s (.vperm ty vd va vb qp) w vd qp
      (fun n => if w = 4 then A (16 * (n / 16) + (B n).toNat) else A ((B n).toNat % N)) 0 ∧
    Claims.elementwise s (.vbcst ty vd va l qp) 64 vd qp (fun _ => Claims.elem 64 l.toNat (s.th.vreg va)) 0 ∧
    Claims.elementwise s (.vzip ty vd va vb qp) w vd qp (fun n => if n % 2 = 0 then A (n / 2) else B ((n - 1) / 2)) 0 ∧
    Claims.elementwise s (.vunzip ty vd va vb qp) w vd qp (fun n => if n < N / 2 then A (2 * n) else B (2 * n - N)) 0 ∧
    (∃ r : Vec, (∀ j, j < 512 → r.getLsbD j = if (s.th.qreg qp).getLsbD (j / 64)
        then tab.getLsbD (((s.th.vreg vd).getLsbD j).toNat + 2 * ((s.th.vreg va).getLsbD j).toNat
          + 4 * ((s.th.vreg vb).getLsbD j).toNat)
        else (s.th.vreg vd).getLsbD j) ∧
      exec (.vbool3 vd va vb qp tab) s = .next (Claims.vectorDone s vd r 0)) ∧
    (∃ r : Vec, (∀ i, i < 8 → Claims.elem 64 i r = if i = l.toNat then x else Claims.elem 64 i (s.th.vreg vd)) ∧
      exec (.vins vd a l) s = .next (s.setTh { s.th.passed 4 [a] with v := s.th.v.set vd.toNat r vd.isLt })) ∧
    exec (.vext va a l) s = .next (s.setTh (s.th.retired 4 [] a (Claims.elem 64 l.toNat (s.th.vreg va)) 0)) ∧
    (∃ r : Vec, (∀ i, i < 8 → Claims.elem 64 i r = x) ∧
      exec (.vdup vd a) s = .next (s.setTh { s.th.passed 4 [a] with v := s.th.v.set vd.toNat r vd.isLt })) ∧
    exec (.qset a q) s = .next (s.setTh { s.th.passed 4 [a] with
      q := if q = 0 then s.th.q else s.th.q.set q.toNat (x.extractLsb' 0 8) q.isLt }) ∧
    exec (.qget a q) s = .next (s.setTh (s.th.retired 4 [] a ((s.th.qreg q).setWidth 64) 0))

namespace Claims

/-! ### Supervisor instructions, engine and array commands -/

/-- The range table with entry i written. -/
def withRange (s : State) (i : Nat) (e : Word × Word) : State := { s with ranges := SMap.set i e s.ranges }

/-- A long form of the executing thread retired without a destination. -/
def passed8 (s : State) : State := s.setTh (s.th.passed 8 [])

/-- The place of the page entry of a VA, where the lowest-indexed match of the system job's lookup is paged (R92, R381). -/
def pageAt (s : State) (va : Word) (pl : Nat) : Prop :=
  va.toNat < 2 ^ 48 ∧ ∃ i l h, s.rangeOf 0 (s.partOf (clusterOf s.cur.core)) va.toNat = some (i, l, h) ∧ l.getLsbD 3 = true ∧
    pl = pagePlace ((h.extractLsb' 27 29).toNat * 4096 + (va.toNat - (l.extractLsb' 21 27).toNat * 2 ^ 21) / 2 ^ 16 * 8)

/-- Whether a page entry may be written: no reserved bit, and for state VALID a frame within its tier (R381, Table 3.8). -/
def pageFits (e : Word) : Prop :=
  e &&& 0x00FFF0000000FFC8 = 0 ∧ (e.extractLsb' 0 2 = 0#2 →
    let pa := (e.extractLsb' 16 28).toNat * 65536
    if e.getLsbD 2 then pa < 2 ^ 43 else pa / 2 ^ 36 < 24 ∧ pa % 2 ^ 36 < 0xC00000000)

/-- The operand registers of an engine or matrix command, in the order a, b, c, d in which they pop. -/
def captured (th : Thread) (r : SReg × SReg × SReg × SReg) : Word × Word × Word × Word :=
  (th.source r.1 [], th.source r.2.1 [r.1], th.source r.2.2.1 [r.1, r.2.1], th.source r.2.2.2 [r.1, r.2.1, r.2.2.1])

/-- The engine commands with their registers a, b, c, d (0: none), the class of the completion, and the label. -/
def engineCommands (f : Tag) (dir : Dir2) (x n : Bool) (cls : Cls) (diag : BitVec 7) (d a b c : SReg) (lab : Label) :
    List (Instr × (SReg × SReg × SReg × SReg) × Cls) :=
  [(.tzero a c lab, (a, 0, c, 0), .normal), (.tfill f a b c lab, (a, b, c, 0), .normal),
   (.tident f diag a c lab, (a, 0, c, 0), .normal), (.xcopy dir f cls d a b lab, (a, b, 0, d), cls),
   (.xmapLd cls d a b c lab, (a, b, c, d), cls), (.xmapSt cls d a b c lab, (a, b, c, d), cls),
   (.xgather x cls d a b c lab, (a, b, c, d), cls), (.xscatter x n f cls d a b c lab, (a, b, c, d), cls),
   (.xpack n f cls d a b lab, (a, b, 0, d), cls), (.xunpack n f cls d a b lab, (a, b, 0, d), cls),
   (.xembed f cls d a b c lab, (a, b, c, d), cls), (.xstream x n cls d a b c lab, (a, b, c, d), cls)]

/-- The matrix commands with their registers, whether they capture FRM.RM, their label, lop and bank. -/
def matrixCommands (n : BitVec 2) (m : Bool) (fA fB : Tag) (rm : Rm) (relu : Bool) (scale : BitVec 8) (d a b c : SReg)
    (lab : Label) : List (Instr × (SReg × SReg × SReg × SReg) × Bool × Label × Nat) :=
  [(.mop n m fA fB a b c lab, (a, b, c, 0), false, lab, 1), (.mopsZc n m fA fB d a b c lab, (a, b, c, d), false, lab, 2),
   (.mopsS24 n m fA fB d a b c lab, (a, b, c, d), false, lab, 2), (.mzero n m lab, (0, 0, 0, 0), false, lab, 3),
   (.mload n m fA a lab, (a, 0, 0, 0), false, lab, 4), (.mdrain n m fA rm relu scale a lab, (a, 0, 0, 0), decide (rm = .dyn), lab, 5)]

/-- A thread that starts a commit point with nothing buffered and nothing held. -/
def atRest (th : Thread) : Prop := th.buf = [] ∧ th.held = [] ∧ th.begun = false

/-- A thread whose command holds its entry. -/
def issued8 (th : Thread) (r : SReg × SReg × SReg × SReg) : Thread :=
  { th.passed 8 [r.1, r.2.1, r.2.2.1, r.2.2.2] with commits := th.commits + 1 }

/-- A thread that waits at its command. -/
def waiting (th : Thread) : Thread := { th with commits := th.commits + 1, begun := true, run := .stalled }

/-- A core listed once more among those that wait. -/
def listed (c : CoreIx) (ws : List CoreIx) : List CoreIx := if c ∈ ws then ws else ws ++ [c]

/-- Whether array n of the executing core's cluster belongs to the core's job (AOWN, Table 15.7). -/
def ownsArray (s : State) (n : BitVec 2) : Prop :=
  let w := (s.cluster (clusterOf s.cur.core)).aown
  w.getLsbD (32 + n.toNat) = true ∧ w.extractLsb' (8 * n.toNat) 8 = s.k.job

/-- The machine with one array of the executing core's cluster changed. -/
def withArray (s : State) (n : BitVec 2) (f : MatArray → MatArray) : State :=
  s.modCluster (clusterOf s.cur.core) fun x => { x with arrays := x.arrays.set n.toNat (f (x.arrays[n.toNat]'n.isLt)) n.isLt }

end Claims

/-- R69, R91, R380: the range instructions in supervisor mode: RO bits of an entry stay zero; an index above 4095 takes the
far-address trap; `rngclr` clears V at once and retires when no request that matched the entry is left (R105). Outside
supervisor mode they are illegal. The instructions: rngw, rngr, rngclr. -/
def Obligations.RangeTable : Prop :=
  ∀ (d a b c : SReg) (half : Bool) (s : State),
    let i := (s.th.reg a).toNat
    (s.k.sup = false → ∀ x ∈ [Instr.rngw a b c, .rngr d a half, .rngclr a],
      exec x s = .next (s.trapped 1 (instrBits x) s.th.pc)) ∧
    (s.k.sup = true → i ≤ 4095 →
      exec (.rngw a b c) s = .next (Claims.passed8 (Claims.withRange s i
        (s.th.reg b &&& 0x0000FFFFFFEFFF7F, s.th.reg c &&& 0x00FFFFFFFFFFFFFF))) ∧
      exec (.rngr d a half) s = .next (s.setTh (s.th.retired 8 [] d
        (if half then (SMap.get (0, 0) s.ranges i).2 else (SMap.get (0, 0) s.ranges i).1) 0)) ∧
      ∃ t, (∀ j, SMap.get (0, 0) t.ranges j = if j = i
          then ((SMap.get (0, 0) s.ranges i).1 &&& ~~~ 1#64, (SMap.get (0, 0) s.ranges i).2) else SMap.get (0, 0) s.ranges j) ∧
        { t with ranges := s.ranges } = s ∧
        ((∀ k ∈ s.park, k.entry ≠ i) → (∀ f ∈ s.net, ∀ e, f.ent = some e → e.1 ≠ i) →
          exec (.rngclr a) s = .next (Claims.passed8 t)) ∧
        ((∃ k ∈ s.park, k.entry = i) ∨ (∃ f ∈ s.net, ∃ e, f.ent = some e ∧ e.1 = i) →
          exec (.rngclr a) s = .next (t.setTh { s.th with run := .stalled }))) ∧
    (s.k.sup = true → 4095 < i → ∀ x ∈ [Instr.rngw a b c, .rngr d a half, .rngclr a],
      exec x s = .next (s.trapped 5 (s.th.reg a) s.th.pc))

/-- R69, R94, R97, R102, R104, R105, R381: the page instructions in supervisor mode at a paged VA, and their traps. A `pgw` of VALID
or POISON releases the requests parked for the page; one of another state than VALID retires when no request of the page that
was translated before is still to be performed, and waits with the entry written until then. Outside supervisor mode they are illegal. The instructions: pgw, pgr, pginv. -/
def Obligations.PageTable : Prop :=
  ∀ (d a b : SReg) (s : State),
    let va := s.th.reg a
    let e := s.th.reg b
    (s.k.sup = false → ∀ x ∈ [Instr.pgw a b, .pgr d a, .pginv a],
      exec x s = .next (s.trapped 1 (instrBits x) s.th.pc)) ∧
    (s.k.sup = true → ∀ pl, Claims.pageAt s va pl →
      (Claims.pageFits e →
        let t := { s.storeWord pl e (BitVec.allOnes 16) with
          pcache := SMap.set pl e s.pcache
          park := if e.extractLsb' 0 2 = 0#2 ∨ e.extractLsb' 0 2 = 3#2
            then s.park.map fun k => if k.page = pl then { k with released := true } else k else s.park }
        let busy := ∃ f ∈ s.net, f.page = some pl ∧ f.place.isSome = true
        (e.extractLsb' 0 2 = 0#2 ∨ ¬ busy → exec (.pgw a b) s = .next (Claims.passed8 t)) ∧
        (e.extractLsb' 0 2 ≠ 0#2 → busy → exec (.pgw a b) s = .next (t.setTh { s.th with run := .stalled }))) ∧
      (¬ Claims.pageFits e → exec (.pgw a b) s = .next (s.trapped 6 va s.th.pc (256 * 5))) ∧
      exec (.pgr d a) s = .next (s.setTh (s.th.retired 8 [] d (s.word pl) 0)) ∧
      exec (.pginv a) s = .next (Claims.passed8 { s with pcache := SMap.del pl s.pcache })) ∧
    (s.k.sup = true → ∀ x ∈ [Instr.pgw a b, .pgr d a, .pginv a],
      (2 ^ 48 ≤ va.toNat → exec x s = .next (s.trapped 5 va s.th.pc)) ∧
      (va.toNat < 2 ^ 48 → (∀ pl, ¬ Claims.pageAt s va pl) → exec x s = .next (s.trapped 6 va s.th.pc (256 * 1))))

/-- R155, R156, R159: an engine command captures its registers, pops in the order a, b, c, d, and takes a queue entry, when the
core has fewer than four, the queue fewer than 64, and no other core waits; the queue full or the core at its limit, the thread
waits at the command. It writes no register. Stated for a thread with nothing to commit. The instructions: tzero, tfill, tident,
xcopy, xmapLd, xmapSt, xgather, xscatter, xpack, xunpack, xembed, xstream. -/
def Obligations.EngineIssue : Prop :=
  ∀ (f : Tag) (dir : Dir2) (x n : Bool) (cls : Cls) (diag : BitVec 7) (d a b c : SReg) (lab : Label) (s : State),
    ∀ p ∈ Claims.engineCommands f dir x n cls diag d a b c lab, Claims.atRest s.th →
      let cl := clusterOf s.cur.core
      let q := (s.cluster cl).eng
      let mine := (q.filter fun k => decide (k.core = s.cur.core)).length
      let v := Claims.captured s.th p.2.1
      let k : EngCmd := { id := s.ids, insn := p.1, core := s.cur.core, thr := s.cur.thr, av := v.1, bv := v.2.1, cv := v.2.2.1,
                          dv := v.2.2.2, cls := p.2.2, lab := lab, reqCls := Claims.reqClass s.th, job := s.k.job, commit := s.th.commits + 1 }
      (mine < 4 → q.length < 64 → (s.cluster cl).wait = [] →
        exec p.1 s = .next ({ s.modCluster cl (fun y => { y with eng := y.eng ++ [k], last := coreOf s.cur.core }) with
          ids := s.ids + 1 }.setTh (Claims.issued8 s.th p.2.1))) ∧
      (4 ≤ mine ∨ 64 ≤ q.length → exec p.1 s = .next ((s.modCluster cl fun y =>
        { y with wait := Claims.listed s.cur.core y.wait }).setTh (Claims.waiting s.th)))

/-- R280, R281: a matrix command of a job that owns the array captures its registers (and FRM.RM under DYN) and takes an entry of
the array's queue, or waits while the queue is full or the core has four entries; on an array that the job does not own it queues
its completion with status NEAR and WHERE the array number, or waits while the kitty is full (R317), and `mseed` does nothing. Stated for a thread with nothing to commit.
The instructions: mop, mopsZc, mopsS24, mzero, mload, mdrain, mseed. -/
def Obligations.MatrixIssue : Prop :=
  ∀ (n : BitVec 2) (m : Bool) (fA fB : Tag) (rm : Rm) (relu : Bool) (scale : BitVec 8) (d a b c : SReg) (lab : Label) (s : State),
    Claims.atRest s.th →
    let A := (s.cluster (clusterOf s.cur.core)).arrays[n.toNat]'n.isLt
    let mine := (A.cmds.filter fun k => decide (k.core = s.cur.core)).length
    let queues (i : Instr) (r : SReg × SReg × SReg × SReg) (dyn : Bool) (lab : Label) : Prop :=
      let v := Claims.captured s.th r
      let k : MatCmd := { id := s.ids, insn := i, core := s.cur.core, thr := s.cur.thr, av := v.1, bv := v.2.1, cv := v.2.2.1,
                          dv := v.2.2.2, frm := if dyn then s.th.frm else 0, lab := lab }
      (mine < 4 → A.cmds.length < 16 → A.wait = [] →
        exec i s = .next ({ Claims.withArray s n (fun y => { y with cmds := y.cmds ++ [k], last := coreOf s.cur.core }) with
          ids := s.ids + 1 }.setTh (Claims.issued8 s.th r))) ∧
      (4 ≤ mine ∨ 16 ≤ A.cmds.length → exec i s = .next ((Claims.withArray s n fun y =>
        { y with wait := Claims.listed s.cur.core y.wait }).setTh (Claims.waiting s.th)))
    (Claims.ownsArray s n →
      (∀ p ∈ Claims.matrixCommands n m fA fB rm relu scale d a b c lab, queues p.1 p.2.1 p.2.2.1 p.2.2.2.1) ∧
      queues (.mseed n a) (a, 0, 0, 0) false 0) ∧
    (¬ Claims.ownsArray s n →
      (s.k.kitty.full = true → s.k.kitty.size ≠ 0 →
        ∀ p ∈ Claims.matrixCommands n m fA fB rm relu scale d a b c lab, exec p.1 s = .next (s.setTh (Claims.waiting s.th))) ∧
      (s.k.kitty.full = false → s.k.kitty.size ≠ 0 →
        ∀ p ∈ Claims.matrixCommands n m fA fB rm relu scale d a b c lab,
          exec p.1 s = .next ((s.setTh (Claims.issued8 s.th p.2.1)).selfMsg s.cur.core lab .normal
            [BitVec.ofNat 64 (3 + 2 ^ 16 * p.2.2.2.2 + 2 ^ 21 * n.toNat + 2 ^ 23 * m.toNat), n.setWidth 64])) ∧
      exec (.mseed n a) s = .next (s.setTh (Claims.issued8 s.th (a, 0, 0, 0))))

namespace Claims

/-! ### Arrival, dealer, commits, barriers (chapters 8, 12 and 13) -/

/-- The n-th packet in flight is f, at its destination and of a kind, with none of its pair before it (R117). -/
def landed (s : State) (n : Nat) (f : Flight) (kind : Nat) : Prop :=
  s.net[n]? = some f ∧ f.loc = .dest ∧ f.p.hdr.kind.toNat = kind ∧ ∀ g ∈ s.net.take n, samePair f g = false

/-- The machine without the n-th packet in flight. -/
def without (s : State) (n : Nat) : State := { s with net := s.net.eraseIdx n }

/-- The core that a header names. -/
def dstOf (h : Header) : CoreIx := h.dcl ++ h.dcore

/-- No saved team of a job in a core's cluster. -/
def notSaved (s : State) (c : CoreIx) (job : BitVec 8) : Prop := ∀ v ∈ (s.cluster (clusterOf c)).saved, v.job ≠ job

/-- The jobs with one more message received by a job (R327). -/
def received (s : State) (job : BitVec 8) : SMap Job :=
  match SMap.find s.jobs job.toNat with
  | some j => SMap.set job.toNat { j with recv := j.recv + 1 } s.jobs
  | none => s.jobs

/-- The class queue, the inbox and the kitty of a core let a message join its queue (R315 to R317). -/
def room (k : Core) (m : Message) : Prop :=
  (k.queue m.hdr.cls).length < (if m.hdr.cls = .trump then 16 else 64) ∧ k.inboxRoom m = true ∧
    (m.hdr.cls ≠ .trump → (∀ r ∈ k.kitty.recs, r.hdr.cls ≠ m.hdr.cls) ∧ (k.kitty.size = 0 ∨ k.kitty.full = false))

/-- A message with one more payload flit arrived, when it is the one with that number and not complete. -/
def withFlit (id : Nat) (m : Message) : Message :=
  if m.id = id ∧ m.arrived < m.hdr.plen.toNat then { m with arrived := m.arrived + 1 } else m

/-- A core with one more payload flit of a message, wherever the message stands (R221); one that was dropped holds its space until
the last flit has arrived (R312). -/
def flitted (id : Nat) (k : Core) : Core :=
  let g := withFlit id
  { k with qBulk := k.qBulk.map g, qNormal := k.qNormal.map g, qHigh := k.qHigh.map g, qTrump := k.qTrump.map g,
           drops := (k.drops.map g).filter fun m => decide (m.arrived < m.hdr.plen.toNat),
           kitty := { k.kitty with recs := k.kitty.recs.map g },
           threads := k.threads.map fun th => { th with msg := th.msg.map g } }

/-- The machine in which a core has sunk one header in this cycle (R312), k being the core otherwise. -/
def sunk (s u : State) (c : CoreIx) (k : Core) : State := u.setCore c { k with lastSink := s.cycle.toNat + 1 }

/-- A core that dropped a message: its payload flits hold inbox space until they have arrived (R312). -/
def dropping (k : Core) (m : Message) : Core := { k with drops := k.drops ++ if 0 < m.hdr.plen.toNat then [m] else [] }

/-- Whether a non-trump message needs the kitty (R316): queue full, no inbox room, or records of its class there. -/
def needsKitty (k : Core) (m : Message) : Prop :=
  64 ≤ (k.queue m.hdr.cls).length ∨ k.inboxRoom m = false ∨ ∃ r ∈ k.kitty.recs, r.hdr.cls = m.hdr.cls

/-- Bytes of a record: the header flit and the payload flits, padded to 64 (R316). -/
def recordBytes (m : Message) : Nat := (m.hdr.plen.toNat + 4) / 4 * 64

/-- A kitty with a message written behind its last record; full when fewer than 320 bytes are free (log 15). -/
def withRecord (y : Kitty) (m : Message) : Kitty :=
  let z := { y with recs := y.recs ++ [{ m with slot := y.tail }], tail := y.tail + recordBytes m }
  { z with reported := y.reported || z.full }

/-- The report of a kitty that became full, once (R317). -/
def fullReport (u : State) (c : CoreIx) (job : BitVec 8) (y : Kitty) (m : Message) : State :=
  if (withRecord y m).full = true ∧ y.reported = false then u.report4 c job 0 2 0 else u

/-- A ring whose records lie on whole flits, with the place of flit i of a record in it. -/
def ringOk (y : Kitty) (slot : Nat) : Prop := 0 < y.size ∧ y.base % 16 = 0 ∧ y.size % 64 = 0 ∧ slot % 64 = 0
def ringPlace (y : Kitty) (slot i : Nat) : Nat := y.base + (slot + 16 * i) % y.size

/-- The record that a message makes in memory: its header at the tail, and no byte changed outside the record (R316). -/
def recorded (s t : State) (y : Kitty) (m : Message) : Prop :=
  ringOk y y.tail → recordBytes m ≤ y.size →
    (List.range 16).map (fun i => t.byte (ringPlace y y.tail 0 + i)) = leBytes 16 (Header.nat m.hdr) ∧
    ∀ p, (∀ i < recordBytes m, p ≠ y.base + (y.tail + i) % y.size) → t.byte p = s.byte p

/-- A machine apart from its memories. -/
def noMem (s t : State) : State := { t with mem := s.mem, dir := s.dir, poison := s.poison }

/-- The trigger entry of a label (Table 12.1): EN, guard, LIM. -/
def entryOf (k : Core) (l : Label) : Word := SMap.get 0 k.trig l.toNat

/-- Thread t is the one that an instance of entry e starts on: thread 7 for trump, else the lowest FREE of 0 to 6 (R214). -/
def threadFor (k : Core) (e : Word) (t : ThrIx) : Prop :=
  (k.thread t).run = .free ∧ (if e.extractLsb' 15 2 = 3#2 then t = 7 else t ≠ 7 ∧ ∀ u : ThrIx, u < t → (k.thread u).run ≠ .free)

/-- Whether the oldest entry of a label may start (R319). -/
def startable (k : Core) (l : Label) : Prop :=
  let e := entryOf k l
  e.getLsbD 38 = true ∧ k.cf &&& e.extractLsb' 21 8 = e.extractLsb' 29 8 ∧
    (k.threads.toList.filter fun th => decide (th.inst.map (·.1) = some l)).length < Nat.min ((e.extractLsb' 18 3).toNat + 1) 7 ∧
    (∃ t, threadFor k e t) ∧ ∀ t since, (k.thread t).run ≠ .recv l since

/-- How far a label is behind the one that a class started last (R319). -/
def behind (k : Core) (cls : Cls) (l : Label) : Nat :=
  (l - (match SMap.find k.lastLab cls.code with | some x => x + 1 | none => 0)).toNat

/-- Whether a core starts instances: not frozen, not held, no PREEMPT of its team under way. -/
def dealing (s : State) (c : CoreIx) : Prop :=
  (s.core c).frozen = false ∧ (s.core c).held = false ∧
    ∀ g ∈ (s.cluster (clusterOf c)).grace, ¬ ((s.core c).member = true ∧ g.job = (s.core c).job)

/-- x may start from a queue: the oldest of its label there, placed in an earlier cycle, startable (R319, R320). -/
def mayStart (s : State) (k : Core) (q : List Message) (x : Message) : Prop :=
  (∃ pre post, q = pre ++ x :: post ∧ noneOf x.hdr.lab pre) ∧ x.placed ≤ s.cycle.toNat ∧ startable k x.hdr.lab

/-- A thread on which a message starts an instance (R215), in a cycle; it issues two cycles later (R320); flags and overflow as the
completion carries them (R35, R178). -/
def started (th : Thread) (now : Nat) (e : Word) (cls : Cls) (m : Message) : Thread :=
  { th with msg := some m, popped := 0, pc := BitVec.ofNat 64 (4 * (e.extractLsb' 0 15).toNat), out := [], split := false,
            ine := false, oov := false, lact := false, wdog := 0, run := .ready, opens := now + 2, inst := some (m.hdr.lab, cls),
            begun := false, skip := none, ovf := none, pend := m.eff.overflow.map fun a => (8, 0, a),
            fflags := th.fflags ||| m.eff.flags }

/-- m, of class queue cls, is the message of a label that was placed first, in an earlier cycle (R321). -/
def placedFirst (s : State) (k : Core) (lab : Label) (cls : Cls) (m : Message) : Prop :=
  m.hdr.lab = lab ∧ m.hdr.cls = cls ∧ m.placed ≤ s.cycle.toNat ∧
    ∀ c pre x post, k.queue c = pre ++ x :: post → x.hdr.lab = lab → noneOf lab pre → c ≠ cls →
      if c ∈ higher cls then m.placed < x.placed else m.placed ≤ x.placed

/-- A near entry of a commit's part. -/
def heldNear (a b : Nat) (x : Cls) (w : Nat × Word × BitVec 16) : Held := { commit := a, part := b, cls := x, e := .near w.1 w.2.1 w.2.2 }

/-- Far stores of whole consecutive words, as a commit's part holds them. -/
def heldRun (a b : Nat) (x : Cls) (g : Word) : List Word → List Held
  | [] => []
  | d :: ds => { commit := a, part := b, cls := x, e := .far g d (BitVec.allOnes 16) } :: heldRun a b x (g + 8) ds

/-- A far write packet of a core, of the class of the instance that committed it (R108, R109, R112). -/
def writeOf (s : State) (c : CoreIx) (x : Cls) (tx : BitVec 16) (kind : BitVec 4) (ws : List Word) (aux : BitVec 16)
    (psn : List Nat) : Packet :=
  { hdr := { dmod := (ws.getD 0 0).extractLsb' 52 12, cls := if x = .trump then .high else x,
             plen := BitVec.ofNat 5 ((ws.length + 1) / 2), kind := kind, src := s.coreName c, job := (s.core c).job, txid := tx,
             aux := aux },
    words := if ws.length % 2 = 1 then ws ++ [0] else ws, poison := psn }

/-- A far write of a thread may leave: none of its own to one of the n bytes' words awaits its reply (R141), the router has the space
(R118), the reply store has room (R119), tx is its TXID (R127). -/
def mayLeave (s : State) (c : CoreIx) (t : ThrIx) (g : Word) (n : Nat) (tx : BitVec 16) : Prop :=
  (∀ w ∈ (s.getTh c t).wrs, sameWords g n w.gva w.bytes = false) ∧ s.mayInject (clusterOf c) 0 false = true ∧
    (s.core c).reserved false + 1 ≤ 512 ∧ s.freeTxid c = some tx

/-- The packet of the first held entry h leaves, `left` being what stays held: recorded until its reply (R141); or dropped at the
guard: the core freezes, the drop is reported, the write has failed with status 7 (R132, R142). -/
def leaves (s : State) (c : CoreIx) (t : ThrIx) (h : Held) (tx : BitVec 16) (kind : BitVec 4) (ws : List Word) (aux n : Nat)
    (psn : List Nat) (left : List Held) : Prop :=
  let th := s.getTh c t
  let g := ws.getD 0 0
  let p := writeOf s c h.cls tx kind ws (BitVec.ofNat 16 aux) psn
  let w : FarWrite := { txid := tx, gva := g, bytes := n, kind := kind }
  let home := g.extractLsb' 52 12
  (s.guard c (s.core c).job true home 0 = true → exec (.commitInjection c t) s =
    .next ((requestedBy s c t p (some (t, h.commit))).putTh c t { th with held := left, wrs := th.wrs ++ [w] })) ∧
  (s.guard c (s.core c).job true home 0 = false → exec (.commitInjection c t) s =
    .next (((s.putTh c t { th with held := left }).violation c (s.core c).job kind.toNat (home ++ (0 : BitVec 15))).postFault c
      [g, wordOf [(7, 4), (kind.toNat, 4), (t.toNat, 3), (tx.toNat, 16), (n, 9)]]))

/-- The head of what is held, if any, is no mark. -/
def noMarkFirst (hs : List Held) : Prop := ∀ h, hs.head? = some h → h.e.isMark = false

/-- A message packet of a core (R331, R363): MSG, or CTL of class high. -/
def messagePacket (s : State) (c : CoreIx) (d : BitVec 27) (cls : Cls) (lab : Label) (tag : BitVec 4) (ws : List Word) (ctl : Bool) : Packet :=
  { hdr := { dcore := d.extractLsb' 0 7, dcl := d.extractLsb' 7 8, dmod := d.extractLsb' 15 12, cls := if ctl then .high else cls,
             lab := lab, plen := BitVec.ofNat 5 ((ws.length + 1) / 2), kind := if ctl then 11 else 0, src := s.coreName c,
             job := (s.core c).job, tag := tag },
    words := if ws.length % 2 = 1 then ws ++ [0] else ws }

/-- Whether a packet within the module takes the supervisor control path (R131): CTL, and the system job's between bands. -/
def controlPath (s : State) (c : CoreIx) (p : Packet) (ctl : Bool) : Bool :=
  decide (p.hdr.dmod = s.cfg.modid) && (ctl || (decide (p.hdr.job = 0) && !s.inBand (s.partOf (clusterOf c)) p.hdr.dcl))

end Claims

/-- R312, R315 to R317, R327: a MSG at its core, one header in a cycle. Its job resident there and its kind that of the label's
entry, it joins its class queue in MSG mode; in COUNT mode it counts, and the one that reaches THOLD joins; for another job, or of a
kind other than that of the entry, it is discarded and reported (its inbox space is free again with its last flit, log 75). One that its queue or the inbox has no room for, or whose class has
records in the kitty, becomes a record there (R316), and a kitty that becomes full is reported once; while it is full the message
waits (full: fewer than 320 bytes free, log 15), and in EARLY service, with kitties of size 0, the report goes out where a spill would
be needed (R386). R369: for a saved team it goes to the saved kitty, a trump message is discarded and reported. R221: a payload flit
arrives wherever its message stands, in the ring too. R316: the kitty's oldest record of a class returns to its queue, with its
payload read from the ring (log 47). The events: messageArrival, payloadFlitArrival, kittyReturn. -/
def Obligations.Arrivals : Prop :=
  ∀ s : State,
    (∀ n f, Claims.landed s n f 0 →
      let c := Claims.dstOf f.p.hdr
      let k := s.core c
      let m : Message := { hdr := f.p.hdr, words := f.p.words, poison := f.p.poison, id := s.ids }
      let placed : Message := { m with placed := s.cycle.toNat + 1 }
      let u := { Claims.without s n with ids := s.ids + 1, jobs := Claims.received s m.hdr.job }
      let e := Claims.entryOf k m.hdr.lab
      let count := SMap.get 0 k.cnt m.hdr.lab.toNat + 1
      let fits := m.hdr.cls = .trump ↔ e.extractLsb' 15 2 = 3#2
      let discarded (cause : Nat) : Prop :=
        exec (.messageArrival n) s = .next (Claims.sunk s (u.report4 c m.hdr.job m.hdr.lab cause m.hdr.src) c (Claims.dropping k m))
      k.lastSink ≤ s.cycle.toNat →
      (Claims.notSaved s c m.hdr.job →
        (k.member = true → k.job = m.hdr.job →
          (Claims.room k m → ¬ fits → discarded 1) ∧
          (Claims.room k m → fits →
            (e.getLsbD 17 = false → exec (.messageArrival n) s =
              .next (Claims.sunk s u c (k.setQueue m.hdr.cls (k.queue m.hdr.cls ++ [placed])))) ∧
            (e.getLsbD 17 = true → count ≠ e.extractLsb' 40 16 → ∃ t, exec (.messageArrival n) s = .next t ∧
              t.core c = { Claims.dropping k m with cnt := SMap.set m.hdr.lab.toNat count k.cnt, counted := (t.core c).counted,
                                                    lastSink := s.cycle.toNat + 1 } ∧
              { t with cores := u.cores } = u) ∧
            (e.getLsbD 17 = true → count = e.extractLsb' 40 16 → ∃ t, exec (.messageArrival n) s = .next t ∧
              (t.core c).cnt = SMap.set m.hdr.lab.toNat 0 k.cnt ∧ { t with cores := u.cores } = u ∧
              (t.core c).queue m.hdr.cls = k.queue m.hdr.cls ++
                [{ placed with eff := { cmds := SMap.get [] k.counted m.hdr.lab.toNat } }])) ∧
          (m.hdr.cls ≠ .trump → Claims.needsKitty k m → k.kitty.size ≠ 0 → k.kitty.full = false → fits → e.getLsbD 17 = false →
            ∃ t, exec (.messageArrival n) s = .next t ∧ Claims.noMem s t = Claims.sunk s (Claims.fullReport u c k.job k.kitty m) c
                { k with kitty := Claims.withRecord k.kitty m } ∧ Claims.recorded s t k.kitty m) ∧
          (m.hdr.cls ≠ .trump → k.kitty.size ≠ 0 → k.kitty.full = true → exec (.messageArrival n) s = .next s) ∧
          (m.hdr.cls ≠ .trump → Claims.needsKitty k m → k.kitty.size = 0 → k.kitty.reported = false → exec (.messageArrival n) s =
            .next ((s.setCore c { k with kitty := { k.kitty with reported := true } }).report4 c k.job 0 2 0))) ∧
        (¬ (k.member = true ∧ k.job = m.hdr.job) → Claims.room k m → ¬ (c = 0 ∧ m.hdr.job = 0 ∧ f.supPath = true) → discarded 0)) ∧
      (∀ v kv, s.savedOf (clusterOf c) m.hdr.job = some v → SMap.find v.cores c.toNat = some kv → kv.drops = [] →
        ¬ (c = 0 ∧ m.hdr.job = 0 ∧ f.supPath = true) →
        (m.hdr.cls = .trump → exec (.messageArrival n) s =
          .next (Claims.sunk s (u.report4 c m.hdr.job m.hdr.lab 3 m.hdr.src) c k)) ∧
        (m.hdr.cls ≠ .trump → kv.kitty.size ≠ 0 → kv.kitty.full = false → ∃ t v', exec (.messageArrival n) s = .next t ∧
          t.savedOf (clusterOf c) m.hdr.job = some v' ∧ SMap.find v'.cores c.toNat = some { kv with kitty := Claims.withRecord kv.kitty m } ∧
          { Claims.noMem s t with clusters := u.clusters } = Claims.sunk s (Claims.fullReport u c m.hdr.job kv.kitty m) c k) ∧
        (m.hdr.cls ≠ .trump → kv.kitty.size ≠ 0 → kv.kitty.full = true → exec (.messageArrival n) s = .next s))) ∧
    (∀ c id, (s.cluster (clusterOf c)).saved = [] →
      let k := Claims.flitted id (s.core c)
      ((∀ r ∈ (s.core c).kitty.recs, r.id ≠ id) → exec (.payloadFlitArrival c id) s = .next (s.setCore c k)) ∧
      (∀ pre m post, (s.core c).kitty.recs = pre ++ m :: post → (∀ r ∈ pre, r.id ≠ id) → m.id = id → m.arrived < m.hdr.plen.toNat →
        Claims.ringOk (s.core c).kitty m.slot →
        ∃ t, exec (.payloadFlitArrival c id) s = .next t ∧ Claims.noMem s t = s.setCore c k ∧
          ∀ j < 2, t.word (Claims.ringPlace (s.core c).kitty m.slot (m.arrived + 1) + 8 * j) = m.words.getD (2 * m.arrived + j) 0)) ∧
    (∀ c cls pre m post, (s.core c).kitty.recs = pre ++ m :: post → m.hdr.cls = cls → (∀ r ∈ pre, r.hdr.cls ≠ cls) →
      (s.core c).owed = [] → ((s.core c).queue cls).length < (if cls = .trump then 16 else 64) → (s.core c).inboxRoom m = true →
      (s.core c).kitty.size ≠ 0 →
      ∃ t m', exec (.kittyReturn c cls) s = .next t ∧ (t.core c).queue cls = (s.core c).queue cls ++ [m'] ∧
        m'.hdr = m.hdr ∧ m'.id = m.id ∧ m'.arrived = m.arrived ∧ m'.eff = m.eff ∧ m'.placed = s.cycle.toNat + 1 ∧
        m'.words = (List.range m.words.length).map (fun i => if i < 2 * m.arrived then
          s.word (Claims.ringPlace (s.core c).kitty m.slot (1 + i / 2) + 8 * (i % 2)) else m.words.getD i 0) ∧
        (t.core c).kitty.recs = pre ++ post ∧ (∀ c', c' ≠ c → t.core c' = s.core c') ∧ { t with cores := s.cores } = s)

/-- R214, R215, R319, R320: the dealer starts, once in a cycle, of the highest class that has one, the oldest entry of the startable
label that comes next after the label that the class started last, on the thread of R214; an entry starts in a later cycle than that
in which it was placed. R321: a `recv` takes the message of its label that was placed first, and of several threads the one that
began to sleep earliest. What the completion carries takes effect at the dequeue (R35, R164): the flags, and the bytes below XB that
the fetch sees from then on. R323: of a team of two cores that hold entries of one spreading label alone, the one with more moves a
quarter of the difference, at most 8, of its oldest to the other, where they fit; that the windows are CYCLE divided by 256 is the
model's choice (log 60). The events: handlerStart, recvDelivery, spreadMove. -/
def Obligations.Starts : Prop :=
  ∀ (c : CoreIx) (s : State),
    let k := s.core c
    (∀ cls cls' t pre m post, Claims.dealing s c → k.lastStart ≤ s.cycle.toNat → k.lastIssue ≤ s.cycle.toNat →
      k.queue cls = pre ++ m :: post → Claims.noneOf m.hdr.lab pre → Claims.mayStart s k (k.queue cls) m →
      (let e := Claims.entryOf k m.hdr.lab
       Claims.threadFor k e t → cls'.code = (e.extractLsb' 15 2).toNat →
       (∀ c' ∈ Claims.higher cls, ∀ x, ¬ Claims.mayStart s k (k.queue c') x) →
       (∀ x, Claims.mayStart s k (k.queue cls) x → Claims.behind k cls m.hdr.lab ≤ Claims.behind k cls x.hdr.lab) →
       exec (.handlerStart c) s = .next (((s.setCore c { k.setQueue cls (pre ++ post) with
           lastLab := SMap.set cls.code m.hdr.lab k.lastLab, lastStart := s.cycle.toNat + 1 }).putTh c t
             (Claims.started (k.thread t) s.cycle.toNat e cls' m)).modCore c fun k => k.unveil m.eff.cmds))) ∧
    (∀ lab t since cls pre m post, k.frozen = false → k.held = false → (k.thread t).run = .recv lab since →
      (∀ u x, u ≠ t → (k.thread u).run = .recv lab x → since < x) → k.queue cls = pre ++ m :: post → Claims.noneOf lab pre →
      Claims.placedFirst s k lab cls m → m.eff.overflow = none →
      exec (.recvDelivery c lab) s = .next (((s.setCore c (k.setQueue cls (pre ++ post))).putTh c t
        { (k.thread t).passed 4 [] with msg := some m, popped := 0, fflags := (k.thread t).fflags ||| m.eff.flags }).modCore c
          fun k => k.unveil m.eff.cmds)) ∧
    (∀ b lab cls, s.team (clusterOf c) k.job = [c, b] → b ≠ c → k.member = true → k.spread ≤ s.cycle.toNat / 256 → cls ≠ .trump →
      (let o := s.core b
       let e := Claims.entryOf k lab
       let q := k.queue cls
       let n := Nat.min 8 ((q.length - (o.queue cls).length) / 4)
       (∀ c', ∀ m ∈ k.queue c' ++ o.queue c', m.hdr.lab = lab) → (∀ m ∈ q, m.hdr.cls = cls) →
       e.getLsbD 37 = true → e.getLsbD 17 = false → (e.extractLsb' 15 2).toNat = cls.code →
       (Claims.entryOf o lab).getLsbD 37 = true → (Claims.entryOf o lab).extractLsb' 15 2 = e.extractLsb' 15 2 →
       (o.queue cls).length ≤ q.length → (o.queue cls).length + n ≤ 64 →
       o.inboxUse false + ((q.take n).map fun m => m.hdr.plen.toNat).sum ≤ 992 →
       ∃ t, exec (.spreadMove c) s = .next t ∧ (t.core c).queue cls = q.drop n ∧
         (t.core b).queue cls = o.queue cls ++ (q.take n).map (fun m => { m with placed := s.cycle.toNat + 1 }) ∧
         (∀ x, x ≠ c → x ≠ b → t.core x = s.core x) ∧ { t with cores := s.cores } = s))

/-- R140, R141, R144, R146, R331, R343: what a commit does after its commit point. The near entries of a part are applied in order as
one step. A far store leaves as one WR packet; of consecutive whole words from a 16-aligned address as many as the model's free value
says leave as one block WR (log 14), a whole 64-byte block never split; a `put` leaves as one block WR, or as two beyond 248 bytes; a
posted atomic as one AMO. A far write keeps the class of the instance that committed it, goes to the own module's endpoint translated
at once (the place of a stage-1 error is log 6's choice, the entry found goes with the packet: log 43), and is recorded until its reply; one that the guard drops fails with status
7 (R132). A message leaves with the header of R331 and counts as sent (R327), an `mcast` one copy at a time, a trump message within
the limits of R122; a frozen core injects nothing. The event: commitInjection. -/
def Obligations.CommitInjection : Prop :=
  ∀ (c : CoreIx) (t : ThrIx) (s : State),
    let k := s.core c
    let th := s.getTh c t
    (k.frozen = true → exec (.commitInjection c t) s = .next s) ∧
    (k.frozen = false →
      (∀ a b x ws rest, th.held = ws.map (Claims.heldNear a b x) ++ rest → ws ≠ [] → Claims.noMarkFirst rest →
        (∀ h ∈ rest, h.e.isNear = true → ¬ (h.commit = a ∧ h.part = b)) →
        exec (.commitInjection c t) s = .next ((ws.foldl (fun u w => u.storeWord w.1 w.2.1 w.2.2) s).putTh c t { th with held := rest })) ∧
      (∀ a b x g d m rest tx, th.held = { commit := a, part := b, cls := x, e := .far g d m } :: rest → m ≠ BitVec.allOnes 16 →
        Claims.noMarkFirst rest → (∀ h ∈ rest, h.e.isNear = false) → Claims.mayLeave s c t g 8 tx →
        Claims.leaves s c t { commit := a, part := b, cls := x, e := .far g d m } tx 2 [g, d] m.toNat (popc 16 m.toNat / 2) []
          (rest.map (Held.sent g 8))) ∧
      (∀ a b x g d ds rest tx, th.held = Claims.heldRun a b x g (d :: ds) ++ rest → g.toNat + 8 * (ds.length + 1) < 2 ^ 64 →
        (∀ h w, rest.head? = some h → h.commit = a → h.part = b →
          h.e ≠ .far (g + BitVec.ofNat 64 (8 * (ds.length + 1))) w (BitVec.allOnes 16)) →
        Claims.noMarkFirst rest → (∀ h ∈ rest, h.e.isNear = false) →
        (∀ n, n ≤ ds.length + 1 → Claims.mayLeave s c t g (8 * n) tx) →
        ∃ n, 0 < n ∧ n ≤ 31 ∧ n ≤ ds.length + 1 ∧ (g.toNat % 16 ≠ 0 → n = 1) ∧
          (∀ blk, blk % 64 = 0 → g.toNat % 16 = 0 → g.toNat ≤ blk → blk + 64 ≤ g.toNat + 8 * (ds.length + 1) →
            g.toNat + 8 * n ≤ blk ∨ blk + 64 ≤ g.toNat + 8 * n) ∧
          Claims.leaves s c t { commit := a, part := b, cls := x, e := .far g d (BitVec.allOnes 16) } tx 2 (g :: (d :: ds).take n)
            (if n = 1 then 65535 else 8 * n) (8 * n) []
            (((Claims.heldRun a b x g (d :: ds)).drop n ++ rest).map (Held.sent g (8 * n)))) ∧
      (∀ a b x g bs psn old rest tx, th.held = { commit := a, part := b, cls := x, e := .put g bs psn old } :: rest → bs.length ≤ 256 →
        Claims.noMarkFirst rest → (∀ h ∈ rest, h.e.isNear = false) →
        (let n := if 248 < bs.length then bs.length / 2 else bs.length
         let words := (List.range (n / 8)).map fun i => BitVec.ofNat 64 (leVal ((bs.drop (8 * i)).take 8))
         let psn2 := (psn.filter fun i => decide (n / 8 ≤ i)).map (· - n / 8)
         let old2 := (old.filter fun i => decide (n ≤ i)).map (· - n)
         let second : Held := { commit := a, part := b, cls := x, e := .put (g + BitVec.ofNat 64 n) (bs.drop n) psn2 old2 }
         Claims.mayLeave s c t g n tx →
         Claims.leaves s c t { commit := a, part := b, cls := x, e := .put g bs psn old } tx 2 (g :: words) n n
           ((psn.filter fun i => decide (i < n / 8)).map (· + 1)) (if n < bs.length then second :: rest else rest))) ∧
      (∀ a b x g op dbl v rest tx, th.held = { commit := a, part := b, cls := x, e := .amo g op dbl v } :: rest →
        Claims.noMarkFirst rest → (∀ h ∈ rest, h.e.isNear = false) → Claims.mayLeave s c t g (if dbl then 8 else 4) tx →
        Claims.leaves s c t { commit := a, part := b, cls := x, e := .amo g op dbl v } tx 4 [g, v]
          (op.code + if dbl then 96 else 64) (if dbl then 8 else 4) [] rest) ∧
      (∀ a b x d ds cls lab tag ws rel ctl rest,
        th.held = { commit := a, part := b, cls := x, e := .msg (d :: ds) cls lab tag ws rel ctl } :: rest →
        Claims.noMarkFirst rest → (∀ h ∈ rest, h.e.isNear = false) → (rel = true → th.wrs = []) →
        (let p := Claims.messagePacket s c d cls lab tag ws ctl
         let sup := Claims.controlPath s c p ctl
         let trump := decide (cls = .trump) && !ctl
         let away := decide (p.hdr.dmod ≠ s.cfg.modid)
         let left := if ds = [] then rest else { commit := a, part := b, cls := x, e := .msg ds cls lab tag ws rel ctl } :: rest
         (sup = false → s.mayInject (clusterOf c) 0 trump = true) → (trump = true → s.trumpOk c away = true) →
         (s.guard c k.job false p.hdr.dmod p.hdr.dcl = true →
           let f : Flight := { p := p, loc := if sup then .dest else .router (clusterOf c) 0, since := s.cycle.toNat, supPath := sup }
           let u := { s.putTh c t { th with held := left } with
             net := s.net ++ [f]
             jobs := match SMap.find s.jobs k.job.toNat with
               | some j => if ctl then s.jobs else SMap.set k.job.toNat { j with sent := j.sent + 1 } s.jobs
               | none => s.jobs }
           exec (.commitInjection c t) s = .next (if trump then u.trumpSent c away else u)) ∧
         (s.guard c k.job false p.hdr.dmod p.hdr.dcl = false → exec (.commitInjection c t) s =
           .next ((s.putTh c t { th with held := left }).violation c k.job p.hdr.kind.toNat d)))))

/-- R326, Table 12.4: an arrival joins its group's phase; the last one releases it, one BAR packet to each member; at a member in
WAIT the release wakes every thread in `bar`, and the state is IDLE if one slept, else DONE. R260: a thread in `wait` goes on once
CYCLE has reached its deadline. R366: a trump instance that has retired 4,096 instructions is stopped, its uncommitted entries gone,
and reported; a frozen or held core retires nothing, and its watchdog waits (R132, R367). An arrival is combined at the group's first
member, and a phase's release is one BAR packet to each member: the model's choice (log 20). The events: barArrival, barrierRelease, waitDeadline, watchdogStop. -/
def Obligations.ThreadEvents : Prop :=
  ∀ s : State,
    (∀ n f gr, Claims.landed s n f 10 → f.p.hdr.aux.getLsbD 8 = false →
      (let grp := (f.p.hdr.aux.extractLsb' 0 8).toNat
       let src : CoreIx := f.p.hdr.src.extractLsb' 0 15
       let arr := if src ∈ gr.arrived then gr.arrived else gr.arrived ++ [src]
       SMap.find s.groups grp = some gr → gr.job = f.p.hdr.job →
       ((∃ m ∈ gr.members, m ∉ arr) → exec (.barArrival n) s =
         .next { Claims.without s n with groups := SMap.set grp { gr with arrived := arr } s.groups }) ∧
       ((∀ m ∈ gr.members, m ∈ arr) → ∃ fs : List Flight, exec (.barArrival n) s =
         .next { Claims.without s n with groups := SMap.set grp { gr with arrived := [] } s.groups, net := s.net.eraseIdx n ++ fs } ∧
         fs.map (fun x => (Claims.dstOf x.p.hdr, x.p.hdr.dmod, x.p.hdr.kind, x.p.hdr.aux, x.p.hdr.cls, x.p.hdr.job)) =
           gr.members.map fun m => (m, s.cfg.modid, 10, BitVec.ofNat 16 (grp + 256), f.p.hdr.cls, f.p.hdr.job)))) ∧
    (∀ n f, Claims.landed s n f 10 → f.p.hdr.aux.getLsbD 8 = true →
      (let grp := f.p.hdr.aux.extractLsb' 0 8
       let c := Claims.dstOf f.p.hdr
       let k := s.core c
       Claims.notSaved s c f.p.hdr.job → k.member = true → k.job = f.p.hdr.job → SMap.get BarSt.idle k.bars grp.toNat = .wait →
       exec (.barrierRelease n) s = .next ((Claims.without s n).setCore c { k with
         bars := SMap.set grp.toNat (if k.threads.toList.any fun th => decide (th.run = .bar grp) then .idle else .done) k.bars
         threads := k.threads.map fun th => if th.run = .bar grp then th.passed 4 [] else th }))) ∧
    (∀ c t d, (s.getTh c t).run = .wait d → d.toNat ≤ s.cycle.toNat → (s.core c).frozen = false → (s.core c).held = false →
      exec (.waitDeadline c t) s = .next (s.putTh c t ((s.getTh c t).passed 4 []))) ∧
    (∀ c l, (s.getTh c 7).inst = some (l, .trump) → 4096 ≤ (s.getTh c 7).wdog → (s.getTh c 7).run ≠ .free →
      ((s.core c).frozen = false → (s.core c).held = false → exec (.watchdogStop c) s =
        .next (((s.putTh c 7 { Thread.freed (s.getTh c 7) with buf := [], block := none }).modCore c fun k =>
          { k with lastStart := s.cycle.toNat + 1 }).report5 c 7 0 2 0 (s.getTh c 7).pc)) ∧
      (((s.core c).frozen = true ∨ (s.core c).held = true) → exec (.watchdogStop c) s = .next s))

namespace Claims

/-! ### The fabric (chapter 4) -/

/-- On a ring of n positions, whether a packet goes in the + direction (R116). -/
def plusOn (n src dst : Nat) : Prop := (dst + n - src) % n ≤ n - (dst + n - src) % n

/-- The next place of a packet in the router of cluster cl on its way to cluster t of the module, with the output port: cx
first, then cy; on the full-width torus by the ring, in a band's mesh by the sign of the difference (R116); `last` is where the router
of its cluster gives it up. -/
def nextHop (s : State) (cl t : BitVec 8) (last : Loc) (out : Nat) (loc : Loc) : Prop :=
  let w := s.pctl (s.partOf cl)
  let plus (a b : Nat) : Prop := if fld w.toNat 0 4 = 0 ∧ fld w.toNat 4 4 = 15 then plusOn 16 a b else a < b
  let x := cl.toNat % 16
  let y := cl.toNat / 16
  let tx := t.toNat % 16
  let ty := t.toNat / 16
  let at' (x y : Nat) : BitVec 8 := BitVec.ofNat 8 (16 * y + x)
  (t = cl → out = 0 ∧ loc = last) ∧
  (tx ≠ x → plus x tx → out = 1 ∧ loc = .router (at' ((x + 1) % 16) y) 1) ∧
  (tx ≠ x → ¬ plus x tx → out = 2 ∧ loc = .router (at' ((x + 15) % 16) y) 2) ∧
  (tx = x → ty ≠ y → plus y ty → out = 3 ∧ loc = .router (at' x ((y + 1) % 16)) 3) ∧
  (tx = x → ty ≠ y → ¬ plus y ty → out = 4 ∧ loc = .router (at' x ((y + 15) % 16)) 4)

/-- The direction of the next Predan hop to a module: the first of X, Y, Z that differs; 2d for +, 2d + 1 for − (R114, R116). -/
def podHop (s : State) (m : BitVec 12) (dir : Nat) : Prop :=
  let f (x : BitVec 12) (d : Nat) : Nat := fld x.toNat (4 * d) 4
  ∃ d, d < 3 ∧ f m d ≠ f s.cfg.modid d ∧ (∀ e, e < d → f m e = f s.cfg.modid e) ∧
    (plusOn (f s.cfg.podext d + 1) (f s.cfg.modid d) (f m d) → dir = 2 * d) ∧
    (¬ plusOn (f s.cfg.podext d + 1) (f s.cfg.modid d) (f m d) → dir = 2 * d + 1)

/-- A header that the device forms (R111). -/
def formed (h : Header) : Prop := Header.malformed h = false

/-- A link, and the machine with a link's state set. -/
def linkAt (s : State) (l : Nat) : Link := SMap.get {} s.links l
def withLink (s : State) (l : Nat) (k : Link) : State := { s with links := SMap.set l k s.links }
def switchAt (s : State) (i : Nat) : Switch := SMap.get {} s.switches i
def withSwitch (s : State) (i : Nat) (k : Switch) : State := { s with switches := SMap.set i k s.switches }

/-- The cluster of gateway i: (2i, 8) (R115). -/
def gateway (i : Nat) : BitVec 8 := BitVec.ofNat 8 (128 + 2 * i)

/-- A memory request (Table 4.2). -/
def isRequest (p : Packet) : Prop := 1 ≤ p.hdr.kind.toNat ∧ p.hdr.kind.toNat ≤ 5

/-- A packet from another module as it comes onto the wafer at gateway i: a memory request as the gateway's translator aims it (R90,
`State.aimed`: Translation states it), CTL and the system job's messages for another band on the supervisor control path (R131), anything
else in the gateway's router. -/
def entered (s : State) (i : Nat) (p : Packet) : Flight :=
  let part := s.partOf (gateway i)
  let sup := decide (p.hdr.kind = 11) || (decide (p.hdr.kind = 0 ∧ p.hdr.job = 0) && !s.inBand part p.hdr.dcl)
  let f : Flight := { p := p, since := s.cycle.toNat, part := part, supPath := sup, loc := if sup then .dest else .router (gateway i) 5 }
  if 1 ≤ p.hdr.kind.toNat ∧ p.hdr.kind.toNat ≤ 5 then s.aimed { f with ent := s.stage1 p part } (gateway i) 5 else f

/-- Whether the gateway's check passes a packet: the system job's; else the band has POD 1 and admits the module (R131). -/
def admitted (s : State) (i : Nat) (p : Packet) : Prop :=
  let w := s.partOf (if 1 ≤ p.hdr.kind.toNat ∧ p.hdr.kind.toNat ≤ 5 then gateway i else p.hdr.dcl)
  p.hdr.job = 0 ∨ ((s.pctl w).getLsbD 9 = true ∧ s.modsBit w (p.hdr.src.extractLsb' 15 12) = true)

/-- The machine with so many more messages under label 6, one machine check each. -/
def checked (s t : State) (n : Nat) : Prop :=
  ∃ fs : List Flight, fs.length = n ∧ (∀ f ∈ fs, f.p.hdr.lab = 6 ∧ f.p.hdr.kind = 0 ∧ f.supPath = true ∧ f.loc = .dest ∧
    f.p.hdr.dmod = s.cfg.modid ∧ dstOf f.p.hdr = 0) ∧ t = { s with net := s.net ++ fs }

/-! ### The home module (chapters 3 and 5) -/

def ownRequest (s : State) (f : Flight) : Prop := f.p.hdr.src.extractLsb' 15 12 = s.cfg.modid

/-- The n-th packet in flight is f, a memory request of a kind at its endpoint or controller, without a whole tile; no far write that
goes before it (R344) and no request of its source that came to its page's controller before it (R103) is left, and the cluster can
emit a reply (R118, R120). -/
def athome (s : State) (n : Nat) (f : Flight) (kind : Nat) : Prop :=
  s.net[n]? = some f ∧ f.loc = .home ∧ f.p.hdr.kind.toNat = kind ∧ f.p.tile = none ∧
    (∀ g ∈ s.net.take n, s.writeOrder g f = false) ∧ (∀ g ∈ s.net, pageOrder g f = false) ∧ s.mayReply f.p.hdr.dcl = true

/-- It is not yet translated, and no duplicate of a parked request; from another module, none of one under way or answered, and where its
reply is to be kept there is room in the cache of endpoint ep (R101, R128). -/
def isNew (s : State) (f : Flight) (ep : Nat) : Prop :=
  f.place = none ∧ (∀ k ∈ s.park, ¬ (k.flight.p.hdr.src = f.p.hdr.src ∧ k.flight.p.hdr.txid = f.p.hdr.txid)) ∧
    (¬ ownRequest s f →
      (∀ g ∈ s.net, g.p.hdr.src = f.p.hdr.src → g.p.hdr.txid = f.p.hdr.txid → g.place = none) ∧
      (f.p.hdr.kind ≠ 1 → s.cacheFull f.p ep = false ∧
        ∀ c ∈ s.ctc, ¬ (c.src = f.p.hdr.src ∧ c.txid = f.p.hdr.txid ∧ s.cycle.toNat < c.until_)))

/-- The bytes that a request without a whole tile covers: RD by its second word, a masked WR one word, a block WR by AUX, an
atomic by its width (Table 4.2). -/
def coveredBytes (p : Packet) : Nat :=
  if p.hdr.kind = 1 then (p.words.getD 1 0).toNat
  else if p.hdr.kind = 2 then (if p.hdr.plen.toNat ≤ 1 then 8 else (p.hdr.aux.extractLsb' 0 9).toNat)
  else if p.hdr.aux.extractLsb' 5 2 = 3#2 then 8 else 4

/-- Translation of a request answers `r` and leaves the machine u (R94). -/
def translates (s : State) (f : Flight) (r : Trans) (u : State) : Prop :=
  s.translate f.ent f.part ((f.p.words.getD 0 0).toNat % 2 ^ 48) (coveredBytes f.p) f.p.hdr.kind.toNat false = (r, u)

/-- A reply to a request: from the endpoint's cluster to the requester, with the request's class, job and TXID (Table 4.2). -/
def replyTo (s : State) (f : Flight) (ep : BitVec 8) (kind : BitVec 4) (ws : List Word) (psn : List Nat) (stat : BitVec 4)
    (aux : BitVec 16) : Packet :=
  let h := f.p.hdr
  { hdr := { dcore := h.src.extractLsb' 0 7, dcl := h.src.extractLsb' 7 8, dmod := h.src.extractLsb' 15 12, vn := 1, cls := h.cls,
             plen := BitVec.ofNat 5 (Nat.min 16 ((ws.length + 1) / 2)), kind := kind, src := s.coreName (coreIx ep 0), job := h.job,
             txid := h.txid, stat := stat, aux := aux },
    words := if ws.length % 2 = 1 then ws ++ [0] else ws, poison := psn }

/-- The machine with a reply on its way from its cluster's router. -/
def replied (s : State) (p : Packet) : State :=
  let f : Flight := { p := p, loc := .router (p.hdr.src.extractLsb' 7 8) 0, since := s.cycle.toNat }
  { s with net := s.net ++ [f] }

/-- The machine with the reply to a request on its way, and kept where the requester is of another module and the request no RD, for
twice the timer (R128). -/
def answered (s : State) (f : Flight) (ep : Nat) (p : Packet) : State :=
  let v := replied s p
  if f.p.hdr.src.extractLsb' 15 12 = s.cfg.modid ∨ f.p.hdr.kind = 1 then v
  else { v with ctc := v.ctc ++ [{ endpoint := ep, src := f.p.hdr.src, txid := f.p.hdr.txid, reply := p,
                                   until_ := s.cycle.toNat + 2 * s.cfg.timer * if s.care.svc = .full then 25000 else 12500 }] }

/-- A request is performed at a place in the machine u: translated there now, or before by the controller of another cluster (R116). -/
def settles (s : State) (f : Flight) (pl : Nat) (u : State) : Prop :=
  (f.place = some pl ∧ u = s) ∨
    (isNew s f (s.endpointOfPlace pl) ∧ translates s f (.perform pl) u ∧ s.clusterOfPlace pl = f.p.hdr.dcl)

/-- Of the first m words of an access, those that this step performs: not performed before, and not put off (log 50). -/
def nowOf (s : State) (f : Flight) (m : Nat) : List Nat :=
  (List.range m).filter fun i => (SMap.find f.got i).isNone && !s.later.contains i

/-- The words that are performed of an access are some of the first m. -/
def gotOk (f : Flight) (m : Nat) : Prop := (f.got.Pairwise fun a b => a.1 < b.1) ∧ ∀ e ∈ f.got, e.1 < m

/-- The n-th packet in flight replaced, the request having performed some of its words. -/
def partly (s : State) (n : Nat) (f : Flight) (pl : Nat) (got : SMap (Word × Bool)) : State :=
  { s with later := [], net := s.net.set n { f with place := some pl, got := got } }

/-- The value of an atomic's word at a place. -/
def atomicOld (s : State) (pl w : Nat) : Nat := (s.word (pl / 8 * 8)).toNat / 2 ^ (8 * (pl % 8)) % 2 ^ w

/-- The machine with an atomic's word written (R145). -/
def atomicWrote (s : State) (pl w v : Nat) (psn : Bool) : State :=
  s.storeWord (pl / 8 * 8) (BitVec.ofNat 64 (v * 2 ^ (8 * (pl % 8)))) (bytesMask (pl % 8) (w / 8)) psn

/-- The integer operations of Table 2.8 on w-bit words; FADD adds each element with one RNE rounding (R145). -/
def atomicNew (op : AmoOp) (w old v : Nat) : Nat :=
  let less : Prop := (BitVec.ofNat w old).toInt < (BitVec.ofNat w v).toInt
  let fadd (f : FF) (n : Nat) : Nat := ((List.range n).map fun i =>
    (FF.add f .rne (old / 2 ^ (f.width * i) % 2 ^ f.width) (v / 2 ^ (f.width * i) % 2 ^ f.width)).1 * 2 ^ (f.width * i)).sum
  match op with
  | .swap => v | .add => (old + v) % 2 ^ w | .and => old &&& v | .or => old ||| v | .xor => old ^^^ v
  | .min => if less then old else v | .max => if less then v else old
  | .minu => if old < v then old else v | .maxu => if old < v then v else old
  | .faddF32 => fadd .fp32 (w / 32) | .faddBf16 => fadd .bf16 (w / 16) | .faddF16 => fadd .f16 (w / 16)

end Claims

/-- R116, R118, R124, R125: a packet that is alone takes its next hop: within the module cx before cy, a memory request to its endpoint
or controller; a packet for another module to the first gateway of its band's list whose link is up, from there to the switch, onto the
Predan link of the first pod direction that differs (link 8·direction + gateway: logs 22, 61), and off a link that is up, and not past 16
failed replays, to the other side. Where every link of its direction is down it is lost; while one outside its list is up it waits
(log 71). The event: routerForward. -/
def Obligations.RouterForward : Prop :=
  ∀ (s : State) (f : Flight) (cl : BitVec 8) (port : Nat), s.net = [f] → Claims.formed f.p.hdr →
    let moved (loc : Loc) : List Flight := [{ f with loc := loc, since := s.cycle.toNat, arr := s.tick }]
    let last : Loc := if Packet.isRequest f.p then .home else .dest
    (∀ out loc, f.loc = .router cl port → f.p.hdr.dmod = s.cfg.modid → Claims.nextHop s cl f.p.hdr.dcl last out loc →
      exec (.routerForward 0) s = .next { s with rr := SMap.set (8 * cl.toNat + out) port s.rr, net := moved loc }) ∧
    (∀ dir i, f.loc = .router cl port → f.p.hdr.dmod ≠ s.cfg.modid → Claims.podHop s f.p.hdr.dmod dir →
      s.gatewayFor f.p.hdr.src cl dir = some i → i < 8 →
      (cl = Claims.gateway i → exec (.routerForward 0) s = .next { s with
        rr := SMap.set (8 * cl.toNat + 5) port s.rr, net := moved (.switch (BitVec.ofNat 3 i) 3) }) ∧
      (cl ≠ Claims.gateway i → ∀ out loc, Claims.nextHop s cl (Claims.gateway i) last out loc → exec (.routerForward 0) s =
        .next { s with rr := SMap.set (8 * cl.toNat + out) port s.rr, net := moved loc })) ∧
    (∀ dir, f.loc = .router cl port → f.p.hdr.dmod ≠ s.cfg.modid → Claims.podHop s f.p.hdr.dmod dir →
      s.gatewayFor f.p.hdr.src cl dir = none →
      ((∀ i, i < 8 → (Claims.linkAt s (8 * dir + i)).up = false) → ∃ t, exec (.routerForward 0) s = .next t ∧
        Claims.checked { s with net := [] } t 1) ∧
      ((∃ i, i < 8 ∧ (Claims.linkAt s (8 * dir + i)).up = true) → exec (.routerForward 0) s = .next s)) ∧
    (∀ dir i d, f.loc = .switch i d → Claims.podHop s f.p.hdr.dmod dir →
      (let k := Claims.linkAt s (8 * dir + i.toNat)
       (k.up = true → k.retraining = false → exec (.routerForward 0) s = .next { s with
          rr := SMap.set (2048 + 8 * i.toNat + dir) d s.rr, net := moved (.link (BitVec.ofNat 6 (8 * dir + i.toNat))) }) ∧
       (k.up = false → exec (.routerForward 0) s = .next { s with
          rr := SMap.set (2048 + 8 * i.toNat + 6) d s.rr, net := moved (.router (Claims.gateway i.toNat) 5) }))) ∧
    (∀ l, f.loc = .link l → (let k := Claims.linkAt s l.toNat
      (k.up = true → k.retraining = false → k.fails < 16 → exec (.routerForward 0) s =
        .next { Claims.withLink s l.toNat { k with fails := 0 } with net := [], podOut := s.podOut ++ [f.p] }) ∧
      (k.up = false ∨ k.retraining = true ∨ 16 ≤ k.fails → exec (.routerForward 0) s = .next s)))

/-- R111, R115, R120, R131: a packet from a Predan link. One for another module goes on to its switch; one for this module is checked
at the gateway, and a failure is discarded and reported under label 3, with the entering gateway's partition (log 72); a request-network
packet behind others waits in the arrival ring and comes back in arrival order; a ring full for 1 ms is a machine check. R124, R125: 16
failed replays in a row retrain a link; when that fails the link goes down and its packets, those at the model's place link (logs 22, 61), are
lost, one record each. R122: the pod cycle counter (which value is taken over is log 23). The translator of the gateway's cluster answers
a stage-1 error itself (log 6). The events: gatewayArrival, arrivalRingReentry, arrivalRingFullReport, linkCrcError, linkRetrain,
linkRetrained, linkDown, podCounterExchange. -/
def Obligations.Gateways : Prop :=
  ∀ (sw : BitVec 3) (l : BitVec 6) (p : Packet) (value : Word) (s : State),
    let i := sw.toNat
    let k := Claims.switchAt s i
    let x := Claims.linkAt s l.toNat
    let q := { p with tile := none }
    let full (r : List Packet) (since : Option Nat) : Option Nat := if ringFull r then since else none
    (Claims.formed p.hdr → (p.hdr.vn = 0 → ringFull k.ring = false) →
      (p.hdr.dmod ≠ s.cfg.modid → s.net = [] → ∃ f : Flight, ∃ d, f.p = q ∧ d < 3 ∧ f.loc = .switch sw d ∧
        exec (.gatewayArrival sw p) s = .next { s with net := [f] }) ∧
      (p.hdr.dmod = s.cfg.modid → ¬ Claims.admitted s i q → ∃ f : Flight, f.p.hdr.lab = 3 ∧ f.supPath = true ∧
        f.p.words = [wordOf [(p.hdr.src.toNat, 27), (p.hdr.job.toNat, 8), (s.partOf (Claims.gateway i), 4), (p.hdr.kind.toNat, 4)],
          wordOf [(Header.nat p.hdr % 2 ^ 27, 27)]] ∧
        exec (.gatewayArrival sw p) s = .next { s with net := s.net ++ [f] }) ∧
      (p.hdr.dmod = s.cfg.modid → Claims.admitted s i q →
        (p.hdr.vn = 0 → k.ring ≠ [] → exec (.gatewayArrival sw p) s =
          .next (Claims.withSwitch s i { k with ring := k.ring ++ [q], fullSince := full (k.ring ++ [q]) (some s.cycle.toNat) })) ∧
        ((p.hdr.vn = 0 → k.ring = []) → s.net = [] →
          exec (.gatewayArrival sw p) s = .next { s with net := [Claims.entered s i q] }))) ∧
    (∀ r rs, k.ring = r :: rs → s.net = [] → exec (.arrivalRingReentry sw) s =
      .next { Claims.withSwitch s i { k with ring := rs, fullSince := full rs k.fullSince } with net := [Claims.entered s i r] }) ∧
    (∀ since, s.care.svc = .full → k.fullSince = some since → since + 2500000 ≤ s.cycle.toNat →
      ∃ t, exec (.arrivalRingFullReport sw) s = .next t ∧ Claims.checked (Claims.withSwitch s i { k with fullSince := none }) t 1) ∧
    (x.up = true → x.retraining = false →
      exec (.linkCrcError l) s = .next (Claims.withLink s l.toNat { x with fails := x.fails + 1 })) ∧
    (x.up = true → 16 ≤ x.fails → exec (.linkRetrain l) s = .next (Claims.withLink s l.toNat { x with retraining := true })) ∧
    (x.retraining = true → exec (.linkRetrained l) s = .next (Claims.withLink s l.toNat { x with retraining := false, fails := 0 })) ∧
    (x.retraining = true → (let lost := s.net.filter fun f => decide (f.loc = .link l)
      ∃ t, exec (.linkDown l) s = .next t ∧ Claims.checked { Claims.withLink s l.toNat { up := false } with
        net := s.net.filter fun f => decide (f.loc ≠ .link l) } t (Nat.max 1 lost.length))) ∧
    ((s.cycle + k.podSkew).toNat < value.toNat →
      exec (.podCounterExchange sw value) s = .next (Claims.withSwitch s i { k with podSkew := value - s.cycle }))

/-- R94, R109, R116, R144 to R148, R352, R353: what the home does with a request that translates to a place, and its reply. RD returns
the bytes with their poison marks and a masked or a block WR stores them and answers ACK, word by word: a step performs those words of
the access that it does not put off (which it puts off is the model's `State.later`, log 50), and the reply goes out with the last. An
atomic reads, writes unless a `cas` compares unequal, and answers the old value or, posted, ACK, as one step; a poisoned operand marks the
word that it writes (R360, log 54); on a poisoned word it answers POISON and writes nothing. A request that fails translation answers
ERR with the status, from the cluster where it is (a stage-1 error from the translator's: log 6). A place in another cluster than the
controller's is reached by a new route from there. The reply to another module's request, RD aside, is kept (R128), where the cache
has room for it (log 69). The events:
rdRequest, wrRequest, amoRequest, amopRequest, casRequest. -/
def Obligations.HomeRequests : Prop :=
  ∀ (s : State) (n : Nat) (f : Flight),
    let requests : List (Instr × Nat) :=
      [(.rdRequest n, 1), (.wrRequest n, 2), (.amoRequest n, 3), (.amopRequest n, 4), (.casRequest n, 5)]
    let dcl := f.p.hdr.dcl
    (∀ x ∈ requests, Claims.athome s n f x.2 →
      (∀ st u, Claims.isNew s f f.ep → Claims.translates s f (.error st) u → exec x.1 s =
        .next (Claims.answered (Claims.without u n) f f.ep (Claims.replyTo u f dcl 9 [] [] (BitVec.ofNat 4 st) 0))) ∧
      (∀ pl u, Claims.isNew s f (s.endpointOfPlace pl) → Claims.translates s f (.perform pl) u → s.clusterOfPlace pl ≠ dcl →
        s.mayInject dcl 0 false = true → exec x.1 s = .next { u with net := u.net.set n { f with
          p := { f.p with hdr := { f.p.hdr with dcl := s.clusterOfPlace pl } }, place := some pl, ep := s.endpointOfPlace pl,
          loc := .router dcl 0, since := s.cycle.toNat } })) ∧
    (∀ pl u, Claims.settles s f pl u →
      let bytes := Claims.coveredBytes f.p
      let m := (pl % 8 + bytes + 7) / 8
      let data := (f.p.words.drop 1).flatMap fun w => leBytes 8 w.toNat
      let marks := (f.p.poison.filter fun i => decide (1 ≤ i)).map (· - 1)
      let done (t : State) (p : Packet) : State := Claims.answered { Claims.without t n with later := [] } f (s.endpointOfPlace pl) p
      let ack (t : State) : State := done t (Claims.replyTo u f dcl 7 [] [] 0 0)
      let w := if f.p.hdr.aux.extractLsb' 5 2 = 3#2 then 64 else 32
      let old := Claims.atomicOld u pl w
      let v := (f.p.words.getD 1 0).toNat % 2 ^ w
      let psn := decide (1 ∈ f.p.poison)
      let value (t : State) : State := done t (Claims.replyTo u f dcl 6 [BitVec.ofNat 64 old] [] 0 0)
      (Claims.athome s n f 1 → Claims.gotOk f m →
        (let at_ (i : Nat) : Word × Bool := (u.word (pl / 8 * 8 + 8 * i), u.poisoned (pl / 8 * 8 + 8 * i))
         let got (i : Nat) : Word × Bool := (SMap.find f.got i).getD (at_ i)
         let now := Claims.nowOf s f m
         (now.length + f.got.length = m → ∃ ws, ws.length = (bytes + 7) / 8 ∧ (∀ i, i < bytes →
             (ws.getD (i / 8) 0).extractLsb' (8 * (i % 8)) 8 = (got ((pl % 8 + i) / 8)).1.extractLsb' (8 * ((pl % 8 + i) % 8)) 8) ∧
           exec (.rdRequest n) s = .next (done u (Claims.replyTo u f dcl 6 ws ((List.range m).filter fun i => (got i).2) 0 0))) ∧
         (now.length + f.got.length < m → exec (.rdRequest n) s =
           .next (Claims.partly u n f pl (now.foldl (fun g i => SMap.set i (at_ i) g) f.got))))) ∧
      (Claims.athome s n f 2 →
        (let ps := if f.p.hdr.plen.toNat ≤ 1 then [(pl, f.p.words.getD 1 0, f.p.hdr.aux, psn)]
           else pieces pl (data.take (f.p.hdr.aux.extractLsb' 0 9).toNat) marks
         let now := Claims.nowOf s f ps.length
         let t := u.storeWords (now.filterMap fun i => ps[i]?)
         Claims.gotOk f ps.length →
         (now.length + f.got.length = ps.length → exec (.wrRequest n) s = .next (ack t)) ∧
         (now.length + f.got.length < ps.length → exec (.wrRequest n) s =
           .next (Claims.partly t n f pl (now.foldl (fun g i => SMap.set i (0, false) g) f.got))))) ∧
      (u.poisoned pl = true →
        (let bad := done u (Claims.replyTo u f dcl 9 [] [] 4 0)
         (Claims.athome s n f 3 → exec (.amoRequest n) s = .next bad) ∧ (Claims.athome s n f 4 → exec (.amopRequest n) s = .next bad) ∧
         (Claims.athome s n f 5 → exec (.casRequest n) s = .next bad))) ∧
      (u.poisoned pl = false →
        (∀ op : AmoOp, (f.p.hdr.aux.extractLsb' 0 5).toNat = op.code →
          (let t := Claims.atomicWrote u pl w (Claims.atomicNew op w old v) psn
           (Claims.athome s n f 3 → exec (.amoRequest n) s = .next (value t)) ∧
           (Claims.athome s n f 4 → exec (.amopRequest n) s = .next (ack t)))) ∧
        (Claims.athome s n f 5 →
          (old = (f.p.words.getD 2 0).toNat % 2 ^ w → exec (.casRequest n) s = .next (value (Claims.atomicWrote u pl w v psn))) ∧
          (old ≠ (f.p.words.getD 2 0).toNat % 2 ^ w → exec (.casRequest n) s = .next (value u)))))

namespace Claims
/-- PERFORM's answer at a physical address of a target (R94): the place of the first byte, or the status of the first or last byte. -/
def performed (s : State) (part : Nat) (job : BitVec 8) (tgt pa bytes : Nat) : Trans :=
  match s.physical part job tgt pa, s.physical part job tgt (pa + bytes - 1) with
  | .ok p, .ok _ => .perform p
  | .ok _, .error st | .error st, _ => .error st

/-- A request of a core that is outstanding under a TXID. -/
def outstanding (s : State) (c : CoreIx) (tx : BitVec 16) (r : Req) : Prop :=
  (s.core c).reqs.find? (fun q => decide (q.txid = tx)) = some r

/-- 10 µs in cycles of the service state (R386, R387). -/
def tenMicros (s : State) : Nat := if s.care.svc = .full then 25000 else 12500

/-- The machine after a request's final reply: reservation and TXID released, the TXID unused until twice the timer after the last
transmission (R119, R127). -/
def closed (s : State) (c : CoreIx) (r : Req) : State :=
  s.modCore c fun k => { k with
    reqs := k.reqs.filter fun q => decide (q.txid ≠ r.txid)
    quarantine := (r.txid, r.sentAt + 2 * s.cfg.timer * tenMicros s) :: k.quarantine.filter fun q => decide (s.cycle.toNat < q.2) }

/-- The read that waits under a TXID. -/
def waitsFor (th : Thread) (tx : BitVec 16) (p : PendingRead) : Prop :=
  th.reads.find? (fun r => decide (r.txid = tx ∧ r.kind ≠ .near ∧ r.failed = none)) = some p

/-- Byte i that a read receives: forwarded from the thread's own buffer, else of the reply (R138). -/
def byteFor (p : PendingRead) (ws : List Word) (i : Nat) : Byte :=
  match p.fwd.find? fun f => decide (f.1 = i) with
  | some f => f.2
  | none => (ws.getD (i / 8) 0).extractLsb' (8 * (i % 8)) 8

/-- The reads of a thread without one, and with one failed: one that had failed before keeps its status (R132, R137). -/
def readsWithout (th : Thread) (tx : BitVec 16) : List PendingRead :=
  th.reads.filter fun r => decide (r.txid ≠ tx ∨ r.kind = .near) || r.failed.isSome
def readsFailed (th : Thread) (tx : BitVec 16) (x : ReadFail) : List PendingRead :=
  th.reads.map fun r => if r.txid = tx ∧ r.kind ≠ .near ∧ r.failed = none then { r with failed := some x } else r

/-- A request's record changed. -/
def withRequest (s : State) (c : CoreIx) (tx : BitVec 16) (f : Req → Req) : State :=
  s.modCore c fun k => { k with reqs := k.reqs.map fun r => if r.txid = tx then f r else r }

/-- A request's packet on its way again (R126), from the router of its cluster; to the own module translated at once (R90). -/
def again (s : State) (c : CoreIx) (p : Packet) : State :=
  let part := s.partOf (clusterOf c)
  let f : Flight := { p := p, loc := .router (clusterOf c) 0, since := s.cycle.toNat, part := part, again := true }
  { s with net := s.net ++ [if p.hdr.dmod = s.cfg.modid then s.aimed { f with ent := s.stage1 p part } (clusterOf c) 0 else f] }

/-- A request whose stage 1 performs at a place: in the header the cluster of its endpoint, in the router. -/
def toPlace (s : State) (f : Flight) (cl : BitVec 8) (port : Nat) (pl : Nat) : Flight :=
  { f with p := { f.p with hdr := { f.p.hdr with dcl := s.clusterOfPlace pl } }, ep := s.endpointOfPlace pl, loc := .router cl port,
           page := none }

/-- A memory request of a kind that comes to its endpoint for the first time, with what it needs to be answered later. -/
def parks (s : State) (n : Nat) (f : Flight) (kind : Nat) (r : Trans) (u : State) : Prop :=
  athome s n f kind ∧ isNew s f f.ep ∧ translates s f r u

end Claims

/-- R90, R93, R94, R116: TRANSLATE from the entry that stage 1 found on (looked up as the request leaves: log 43): NOMAP, BOUND, PERM;
an unpaged range performs at its target; a paged one by the page entry, as memory and the controller's copy agree: VALID sets A, and D
unless the request reads, and nothing else in memory changes; POISON is an error, any other state parks, and so does a page with parked
requests. A request leaves its translator for the endpoint of its place or for the controller of its page entry; one that stage 1
refuses is answered where it is (log 6). -/
def Obligations.Translation : Prop :=
  ∀ (s : State) (i part va bytes kind : Nat) (l h : Word), 1 ≤ kind → kind ≤ 5 →
    let base := (l.extractLsb' 21 27).toNat * 2 ^ 21
    let lim := ((l.extractLsb' 21 27).toNat + (h.extractLsb' 0 27).toNat + 1) * 2 ^ 21
    let tbase := (h.extractLsb' 27 29).toNat
    let job := l.extractLsb' 8 8
    let t := s.translate (some (i, l, h)) part va bytes kind false
    let bit := if kind = 1 then 4 else if kind = 2 then 5 else 6
    let pa := tbase * 4096 + (va - base) / 65536 * 8
    let pl := pagePlace pa
    let asked (g : Flight) : Prop := g.ent = some (i, l, h) ∧ g.part = part ∧ va = (g.p.words.getD 0 0).toNat % 2 ^ 48 ∧
      bytes = Claims.coveredBytes g.p ∧ g.p.tile = none ∧ g.p.hdr.kind.toNat = kind
    let answeredAt (g : Flight) (cl : BitVec 8) (port : Nat) : Prop := s.aimed g cl port =
      { g with p := { g.p with hdr := { g.p.hdr with dcl := cl } }, ep := 3000 + cl.toNat, loc := .home, page := none }
    s.translate none part va bytes kind false = (.error 1, s) ∧
    (∀ g cl port, g.ent = none → answeredAt g cl port) ∧
    (lim < va + bytes → t = (.error 2, s)) ∧
    (va + bytes ≤ lim → l.getLsbD bit = false → t = (.error 3, s)) ∧
    (∀ g cl port, asked g → (lim < va + bytes ∨ l.getLsbD bit = false) → answeredAt g cl port) ∧
    (va + bytes ≤ lim → l.getLsbD bit = true →
      (l.getLsbD 3 = false →
        (let r := Claims.performed s part job (l.extractLsb' 1 2).toNat (tbase * 2 ^ 21 + (va - base)) bytes
         t = (r, s) ∧ ∀ g cl port, asked g →
           (∀ st, r = .error st → answeredAt g cl port) ∧ (∀ p, r = .perform p → s.aimed g cl port = Claims.toPlace s g cl port p))) ∧
      (l.getLsbD 3 = true → va / 65536 ≠ (va + bytes - 1) / 65536 → t = (.error 2, s)) ∧
      (l.getLsbD 3 = true → va / 65536 = (va + bytes - 1) / 65536 → s.care.hbmOk = false → t = (.error 6, s)) ∧
      (l.getLsbD 3 = true → va / 65536 = (va + bytes - 1) / 65536 → s.care.hbmOk = true →
        (∀ g cl port, asked g → s.aimed g cl port =
          { g with p := { g.p with hdr := { g.p.hdr with dcl := stackCluster (pa / 2 ^ 36) } }, ep := 1 + pa / 2 ^ 36,
                   loc := .router cl port, page := some pl }) ∧
        (let e := s.word pl
         let st := e.extractLsb' 0 2
         SMap.find s.pcache pl = some e →
         ∃ u, { u with pcache := s.pcache, mem := s.mem, poison := s.poison, dir := s.dir } = s ∧
           (∀ p, p < pl ∨ pl + 8 ≤ p → u.byte p = s.byte p ∧ u.poisoned p = s.poisoned p) ∧
           ((∃ k ∈ s.park, k.page = pl) → t = (.park (pa / 2 ^ 36) i pl st.toNat, u)) ∧
           ((∀ k ∈ s.park, k.page ≠ pl) →
             (st = 0#2 → u.word pl = e ||| (if kind = 1 then 0x10 else 0x30) ∧ t = (Claims.performed s part job
               (e.extractLsb' 2 1).toNat ((e.extractLsb' 16 28).toNat * 65536 + va % 65536) bytes, u)) ∧
             (st = 3#2 → t = (.error 4, u)) ∧
             (st = 1#2 ∨ st = 2#2 → t = (.park (pa / 2 ^ 36) i pl st.toNat, u))))))

/-- R98 to R103, R128: a request that parks takes a slot, its requester a PARK notice, and the system job, for the first of a page,
the fault notice of Table 3.9; with 256 slots in use it is answered NACK. Behind released requests of its page it is released too
(R102). A parked one is noticed again every 20 µs, answered TIMEOUT beyond the limit, and translated again, from stage 1 on (log 43),
and performed once released, in the order of parking. An entry of the completed-transaction cache lapses in time; until then a duplicate
is answered from it, whichever endpoint keeps it (log 51). A replay waits for room in it (log 69). The events: rdRequest, wrRequest, amoRequest, amopRequest, casRequest,
parkNoticeRepeat, parkLimitExpiry, parkedRequestReplay, completedTransactionCacheExpiry. -/
def Obligations.Parking : Prop :=
  ∀ (s : State) (n : Nat),
    let requests : List (Instr × Nat) :=
      [(.rdRequest n, 1), (.wrRequest n, 2), (.amoRequest n, 3), (.amopRequest n, 4), (.casRequest n, 5)]
    (∀ f, ∀ x ∈ requests, ∀ st i pl state u, Claims.parks s n f x.2 (.park st i pl state) u →
        let used := (s.park.filter fun k => decide (k.stack.toNat = st)).length
        let slot : ParkSlot := { stack := BitVec.ofNat 5 st, flight := { f with page := some pl }, entry := i, page := pl,
                                 since := s.cycle.toNat, noticed := s.cycle.toNat,
                                 released := s.park.any fun k => decide (k.page = pl) && k.released }
        let notice := Claims.replyTo s f f.p.hdr.dcl 8 [] [] 0 0
        let v := { Claims.without u n with park := s.park ++ [slot] }
        (256 ≤ used → exec x.1 s =
          .next (Claims.replied (Claims.without u n) (Claims.replyTo s f f.p.hdr.dcl 9 [] [] 8 (BitVec.ofNat 16 s.cfg.retry)))) ∧
        (used < 256 → (∃ k ∈ s.park, k.page = pl) → exec x.1 s = .next (Claims.replied v notice)) ∧
        (used < 256 → (∀ k ∈ s.park, k.page ≠ pl) → st < 24 → i < 4096 → state < 4 → ∃ g : Flight,
          g.p.hdr.lab = 1 ∧ g.p.hdr.cls = .high ∧ g.supPath = true ∧
          g.p.words = [BitVec.ofNat 64 (state + 2 ^ 8 * f.p.hdr.job.toNat + 2 ^ 16 * ((f.p.words.getD 0 0).toNat % 2 ^ 48 / 2 ^ 16)),
            BitVec.ofNat 64 (st + 2 ^ 16 * (used + 1) + 2 ^ 32 * i)] ∧
          exec x.1 s = .next (let w := Claims.replied v notice
                              { w with net := w.net ++ [g] }))) ∧
    (∀ f c, ∀ x ∈ requests.drop 1, Claims.athome s n f x.2 → f.place = none → ¬ Claims.ownRequest s f →
      (∀ k ∈ s.park, ¬ (k.flight.p.hdr.src = f.p.hdr.src ∧ k.flight.p.hdr.txid = f.p.hdr.txid)) →
      (∀ g ∈ s.net, g.p.hdr.src = f.p.hdr.src → g.p.hdr.txid = f.p.hdr.txid → g.place = none) →
      s.ctc.find? (fun c => decide (c.src = f.p.hdr.src ∧ c.txid = f.p.hdr.txid ∧ s.cycle.toNat < c.until_)) = some c →
      s.mayReply (c.reply.hdr.src.extractLsb' 7 8) = true → exec x.1 s = .next (Claims.replied (Claims.without s n) c.reply)) ∧
    (∀ k, s.park[n]? = some k →
      let dcl := k.flight.p.hdr.dcl
      (k.noticed + 2 * Claims.tenMicros s ≤ s.cycle.toNat → s.mayReply dcl = true → exec (.parkNoticeRepeat k.stack n) s =
        .next (Claims.replied { s with park := s.park.set n { k with noticed := s.cycle.toNat } }
          (Claims.replyTo s k.flight dcl 8 [] [] 0 0))) ∧
      (1 ≤ k.flight.p.hdr.kind.toNat → k.since + 100 * s.cfg.parklim * Claims.tenMicros s < s.cycle.toNat → s.mayReply dcl = true →
        exec (.parkLimitExpiry k.stack n) s = .next (Claims.answered { s with park := s.park.eraseIdx n } k.flight (1 + k.stack.toNat)
          (Claims.replyTo s k.flight dcl 9 [] [] 7 0))) ∧
      (k.released = true → k.flight.p.tile = none → (∀ j ∈ s.park.take n, j.page ≠ k.page) →
        (∀ g ∈ s.net, pageOrder g k.flight = false) → s.mayReply dcl = true → k.flight.got = [] → s.later = [] → ∀ pl u u',
          (let f := { k.flight with ent := s.stage1 k.flight.p k.flight.part }
           let va := (f.p.words.getD 0 0).toNat % 2 ^ 48
           let kind := f.p.hdr.kind.toNat
           let r : State := { s with park := s.park.eraseIdx n, net := s.net ++ [f] }
           (∀ pa, s.firstStage f.ent f.part va (Claims.coveredBytes f.p) kind = .page pa → pagePlace pa = k.page) →
           s.translate f.ent f.part va (Claims.coveredBytes f.p) kind true = (.perform pl, u') →
           r.translate f.ent f.part va (Claims.coveredBytes f.p) kind true = (.perform pl, u) →
           s.clusterOfPlace pl = dcl → r.cacheFull f.p (s.endpointOfPlace pl) = false →
           kind = 2 → f.p.hdr.plen.toNat ≤ 1 → exec (.parkedRequestReplay k.stack n) s =
            .next (Claims.answered { u.storeWord pl (f.p.words.getD 1 0) f.p.hdr.aux (decide (1 ∈ f.p.poison)) with net := s.net }
              f (s.endpointOfPlace pl) (Claims.replyTo u f dcl 7 [] [] 0 0))))) ∧
    (∀ c, s.ctc[n]? = some c → c.until_ ≤ s.cycle.toNat →
      exec (.completedTransactionCacheExpiry n) s = .next { s with ctc := s.ctc.eraseIdx n })

/-- R119, R126, R127, R137, R141, R142, R146, R149: what a reply does at its issuer. RDATA completes a far load, a `get` or a blocking
atomic; ACK ends a far write; NACK sets the retry-after; any other error fails a read, goes into the completion of a `get`, posts the
fault message of a write, or is what a blocking atomic traps with; a park notice restarts the timer. An expired timer retransmits to
another module, counts within the own one, and the fourth expiry completes with TIMEOUT. A core that cannot place a message of its own
holds it (`State.postSelf`: R317, log 47; log 53 for the completion of a `get`). A request to the own module that goes again is
translated at its cluster (log 6). The events: rdataReply, ackReply, parkNotice, errReply, farTimerExpiry, nackResend. -/
def Obligations.Replies : Prop :=
  ∀ (s : State) (n : Nat) (f : Flight) (r : Req) (t : ThrIx),
    let c := Claims.dstOf f.p.hdr
    let tx := f.p.hdr.txid
    let th := s.getTh c t
    let u := Claims.closed (Claims.without s n) c r
    Claims.outstanding s c tx r → r.owner = .thread t → s.later = [] →
    (Claims.landed s n f 6 → th.block = none → f.p.poison = [] → ∀ p, Claims.waitsFor th tx p →
      (p.kind = .far →
        (∀ d, p.dest = .s d → ∀ x : Word, 1 ≤ p.bytes → p.bytes ≤ 8 →
          (∀ i, i < p.bytes → x.extractLsb' (8 * i) 8 = Claims.byteFor p f.p.words i) →
          (∀ i, 8 * p.bytes ≤ i → i < 64 → x.getLsbD i = (p.sext && x.getLsbD (8 * p.bytes - 1))) →
          exec (.rdataReply n) s = .next (u.putTh c t { th with reads := Claims.readsWithout th tx, s := th.s.set d.toNat x d.isLt })) ∧
        (∀ d q, p.dest = .v d q → p.bytes = 64 → ∀ x : Vec,
          (∀ i, i < 64 → x.extractLsb' (8 * i) 8 = if q.getLsbD (i / 8) then Claims.byteFor p f.p.words i
            else (th.vreg d).extractLsb' (8 * i) 8) →
          exec (.rdataReply n) s = .next (u.putTh c t { th with reads := Claims.readsWithout th tx, v := th.v.set d.toNat x d.isLt }))) ∧
      (∀ near lab cls, p.kind = .get near lab cls → f.got = [] →
        exec (.rdataReply n) s = .next (((u.putTh c t { th with reads := Claims.readsWithout th tx }).storeBytes near
          ((List.range p.bytes).map (Claims.byteFor p f.p.words)) []).postSelf c lab cls [0, p.addr]))) ∧
    (Claims.landed s n f 6 → ∀ b, th.block = some b → b.txid = tx → (∀ p, ¬ Claims.waitsFor th tx p) →
      exec (.rdataReply n) s = .next (u.putTh c t { th.retired 4 (List.replicate b.pops 29) b.dest (f.p.words.getD 0 0) 0 with block := none })) ∧
    (Claims.landed s n f 7 → exec (.ackReply n) s =
      .next (u.putTh c t { th with wrs := th.wrs.filter fun w => decide (w.txid ≠ tx) })) ∧
    (Claims.landed s n f 8 → exec (.parkNotice n) s =
      .next (Claims.withRequest (Claims.without s n) c tx fun r => { r with expiries := 0, timer := s.cycle.toNat })) ∧
    (Claims.landed s n f 9 →
      (f.p.hdr.stat = 8 → exec (.errReply n) s = .next (Claims.withRequest (Claims.without s n) c tx fun r =>
        { r with nack := some (s.cycle.toNat + 64 * (f.p.hdr.aux.extractLsb' 0 8).toNat) })) ∧
      (f.p.hdr.stat ≠ 8 →
        (∀ p, th.block = none → Claims.waitsFor th tx p → p.kind = .far → exec (.errReply n) s =
          .next (u.putTh c t { th with reads := Claims.readsFailed th tx (.status f.p.hdr.stat) })) ∧
        (∀ p near lab cls, th.block = none → Claims.waitsFor th tx p → p.kind = .get near lab cls → exec (.errReply n) s =
          .next ((u.putTh c t { th with reads := Claims.readsWithout th tx }).postSelf c lab cls
            [f.p.hdr.stat.setWidth 64, p.addr])) ∧
        (∀ w, th.block = none → (∀ p, ¬ Claims.waitsFor th tx p) → th.wrs.find? (fun w => decide (w.txid = tx)) = some w →
          exec (.errReply n) s = .next ((u.putTh c t { th with wrs := th.wrs.filter fun w => decide (w.txid ≠ tx) }).postFault c
            [w.gva, BitVec.ofNat 64 (f.p.hdr.stat.toNat + 2 ^ 4 * w.kind.toNat + 2 ^ 8 * t.toNat + 2 ^ 11 * w.txid.toNat
              + 2 ^ 27 * (w.bytes % 512))])) ∧
        (∀ b, th.block = some b → b.txid = tx → (∀ p, ¬ Claims.waitsFor th tx p) → (∀ w ∈ th.wrs, w.txid ≠ tx) →
          exec (.errReply n) s = .next (u.putTh c t { th with block := some { b with err := some f.p.hdr.stat } })))) ∧
    (r.timer + s.cfg.timer * Claims.tenMicros s ≤ s.cycle.toNat →
      (let v := Claims.withRequest s c tx fun r => { r with expiries := r.expiries + 1, timer := s.cycle.toNat }
       (r.expiries < 3 → r.pkt.hdr.dmod = s.cfg.modid → exec (.farTimerExpiry c tx) s = .next v) ∧
       (r.expiries < 3 → r.pkt.hdr.dmod ≠ s.cfg.modid → s.mayInject (clusterOf c) 0 false = true → exec (.farTimerExpiry c tx) s =
         .next (Claims.again (Claims.withRequest v c tx fun r => { r with sentAt := s.cycle.toNat, nack := none }) c r.pkt)) ∧
       (∀ p, 3 ≤ r.expiries → th.block = none → Claims.waitsFor th tx p → p.kind = .far → exec (.farTimerExpiry c tx) s =
         .next ((Claims.closed s c r).putTh c t { th with reads := Claims.readsFailed th tx (.status 7) })))) ∧
    (∀ x, r.nack = some x → x ≤ s.cycle.toNat → s.mayInject (clusterOf c) 0 false = true → exec (.nackResend c tx) s = .next (Claims.again
      (Claims.withRequest s c tx fun r => { r with sentAt := s.cycle.toNat, timer := s.cycle.toNat, nack := none }) c r.pkt))

namespace Claims


/-- Command k of a cluster's engine is e, and no other has its number. -/
def commandAt (s : State) (cl : BitVec 8) (k : Nat) (e : EngCmd) : Prop :=
  (s.cluster cl).eng[k]? = some e ∧ clusterOf e.core = cl ∧
    ∀ (j : Nat) (f : EngCmd), (s.cluster cl).eng[j]? = some f → f.id = e.id → j = k

/-- It is queued, untouched, the next to become active, with room among the 16 active ones, and nothing holds it (R155, R367). -/
def canStart (s : State) (cl : BitVec 8) (k : Nat) (e : EngCmd) : Prop :=
  e.phase = .queued ∧ e.was = none ∧ e.pos = 0 ∧ e.sub = 0 ∧ e.stage = [] ∧ e.spsn = [] ∧ e.ent = none ∧ e.reqs = [] ∧
    e.fail = none ∧ e.doneUnits = 0 ∧ e.hold = false ∧ (s.core e.core).held = false ∧
    (∀ (j : Nat) (f : EngCmd), j < k → (s.cluster cl).eng[j]? = some f → f.phase ≠ .queued) ∧
    ((s.cluster cl).eng.filter fun f => decide (f.phase ≠ .queued)).length < 16

/-- A landing entry is free, the command has none, none of an earlier command overlaps n bytes at a place, and none before it has yet
to read what describes its work (R165, R166; log 73). -/
def landingFree (s : State) (cl : BitVec 8) (e : EngCmd) (p n : Nat) : Prop :=
  (s.cluster cl).land.length < 64 ∧ (∀ l ∈ (s.cluster cl).land, l.owner ≠ e.id ∧ (l.owner < e.id → l.hits p n = false)) ∧
    ∀ f ∈ (s.cluster cl).eng, f.id < e.id → f.phase ≠ .slot ∧ f.phase ≠ .desc

/-- The engine's queue with command k replaced. -/
def withCommand (s : State) (cl : BitVec 8) (k : Nat) (e : EngCmd) : State :=
  s.modCluster cl fun x => { x with eng := x.eng.set k e }

/-- A command that a start check ended: status and WHERE (R161). -/
def refused (e : EngCmd) (st : Nat) (w : Word) : EngCmd := { e with phase := .ended, fail := some (st, 0, w), failAt := 0 }
/-- A command that has done its only block. -/
def didOne (e : EngCmd) : EngCmd := { e with phase := .ended, pos := 1, doneUnits := 1 }

/-- Command k is at work, with units left. -/
def atWork (s : State) (cl : BitVec 8) (k : Nat) (e : EngCmd) : Prop :=
  commandAt s cl k e ∧ e.phase = .work ∧ e.hold = false ∧ (s.core e.core).held = false ∧ e.fail = none ∧ e.pos < e.blocks

/-- One step of command k stages n near bytes of a place, with their poison, where no earlier command may write there (R163, R166). -/
def nearReads (s : State) (cl : BitVec 8) (k : Nat) (e : EngCmd) (p n pos : Nat) : Prop :=
  s.landWait e p n = false → exec (.engineCommandStart cl k 1) s = .next (withCommand s cl k { e with
    stage := putRun pos (s.bytes p n) e.stage
    spsn := e.spsn ++ ((List.range n).filter fun i => s.poisoned (p + i)).map (pos + ·)
    sub := e.sub + 1 })

/-- One step of command k writes staged bytes, with their poison, to a near place: not code bytes below XB, which the fetch would
not see yet (R158). -/
def nearWrites (s : State) (cl : BitVec 8) (k : Nat) (e : EngCmd) (p n pos : Nat) : Prop :=
  s.landWait e p n = false → ¬ (ownTcm e.core p = true ∧ p % 2 ^ 17 < (s.core e.core).xbBytes) →
  exec (.engineCommandStart cl k 1) s = .next (withCommand (s.storeBytes p (e.staged pos n) (e.stagedPsn pos n)) cl k { e with
    psn := e.psn || !(e.stagedPsn pos n).isEmpty, sub := e.sub + 1 })

/-- One step of command k sends a request for n bytes at a far address, in the class and for the job of the issuing handler, recorded
until its reply (R157); an address out of reach stops the command with ADDR (R163). -/
def farSends (s : State) (cl : BitVec 8) (k : Nat) (e : EngCmd) (kind : BitVec 4) (g : Word) (n flits : Nat) (ws : List Word)
    (aux : Nat) (stage : Option Nat) (psn : List Nat) : Prop :=
  let g := gvaOf s g
  (¬ farAllowed s g → exec (.engineCommandStart cl k 1) s =
    .next (withCommand s cl k { e with fail := some (5, 0, g), failAt := e.pos * 2 ^ 33 + e.sub })) ∧
  (farAllowed s g → s.engWaits e g n flits = false → s.guard e.core e.job true (g.extractLsb' 52 12) 0 = true →
    ∀ tx, s.freeTxid e.core = some tx →
      let all := g :: ws
      let p : Packet :=
        { hdr := { dmod := g.extractLsb' 52 12, cls := if e.reqCls = .trump then .high else e.reqCls,
                   plen := BitVec.ofNat 5 ((all.length + 1) / 2), kind := kind, src := s.coreName e.core, job := e.job, txid := tx,
                   aux := BitVec.ofNat 16 aux },
          words := if all.length % 2 = 1 then all ++ [0] else all, poison := psn }
      exec (.engineCommandStart cl k 1) s = .next (withCommand (sentFor s e.core (.engine e.id) p) cl k { e with
        reqs := e.reqs ++ [{ txid := tx, gva := g, bytes := n, order := e.pos * 2 ^ 33 + e.sub, stage := stage }]
        sub := e.sub + 1, psn := e.psn || !psn.isEmpty }))

/-- 16 staged bytes at most, as a far write of a command. -/
def farPuts (s : State) (cl : BitVec 8) (k : Nat) (e : EngCmd) (g : Word) (pos : Nat) : Prop :=
  farSends s cl k e 2 g 16 1 (e.words pos 16) 16 none ((e.stagedPsn pos 16).map (· + 1))

/-- A far read of n bytes into the staged bytes. -/
def farGets (s : State) (cl : BitVec 8) (k : Nat) (e : EngCmd) (g : Word) (n pos : Nat) : Prop :=
  farSends s cl k e 1 g n ((n + 15) / 16 + 1) [BitVec.ofNat 64 n] 0 (some pos) []

/-- What the reads of a block give the writes of it, the reads being over. -/
def computes (s : State) (cl : BitVec 8) (k : Nat) (e e' : EngCmd) : Prop :=
  (∀ r ∈ e.reqs, r.stage = none) → exec (.engineCommandStart cl k 1) s = .next (withCommand s cl k { e' with sub := 2 ^ 32 })

/-- The ZC record of a tile without poison (R176): MAP, a bit for each k-step with a byte that is not zero, then those k-steps. -/
def recordOf (f : Tag) (bs : List Byte) : List Byte :=
  let z := 8 * tagWidth f
  let step (j : Nat) : List Byte := (bs.drop (z * j)).take z
  let present := (List.range (512 / tagWidth f)).filter fun j => (step j).any fun b => decide (b ≠ 0)
  leBytes 16 (present.map fun j => 2 ^ j).sum ++ present.flatMap step

/-- The data-moving commands at work, one act at a time: which bytes of which operand, in the order of the block's acts (act i of the
reads, and from 2^32 on of the writes, as the model counts them). -/
def movers (s : State) (cl : BitVec 8) (k : Nat) (e : EngCmd) : Prop :=
  let u := e.pos
  let c := e.core
  let far (g : Word) (n : Nat) : Word := g + BitVec.ofNat 64 n
  let read (i : Nat) : Prop := e.sub = i ∧ i < 2 ^ 32
  let write (i : Nat) : Prop := e.sub = 2 ^ 32 + i
  (∀ dir f cls d a b lab, e.insn = .xcopy dir f cls d a b lab → e.bv.toNat % 16 = 0 → s.wholeUnit e dir u = false → e.ent = none →
    (let n := Nat.min 4096 (e.bv.toNat - 4096 * u)
     (∀ i p, s.engNear c e.av e.bv.toNat false = some p → dir.srcNear = true → 8 * i < n → read i →
       nearReads s cl k e (p + 4096 * u + 8 * i) 8 (8 * i)) ∧
     (∀ i, dir.srcNear = false → 16 * i < n → read i → farGets s cl k e (far (far e.av (4096 * u)) (16 * i)) 16 (16 * i)) ∧
     (∀ i p, s.engNear c e.dv e.bv.toNat true = some p → dir.dstNear = true → 8 * i < n → write i →
       nearWrites s cl k e (p + 4096 * u + 8 * i) 8 (8 * i)) ∧
     (∀ i, dir.dstNear = false → 16 * i < n → write i → farPuts s cl k e (far (far e.dv (4096 * u)) (16 * i)) (16 * i)))) ∧
  (∀ dir f cls d a b lab p, e.insn = .xcopy dir f cls d a b lab → s.wholeUnit e dir u = true → dir.dstNear = true → e.ent = none →
    s.engNear c e.dv e.bv.toNat true = some p → s.landWait e (p + 4096 * u) 4096 = false → write 0 →
    exec (.engineCommandStart cl k 1) s = .next (withCommand (s.wholeTile (p + 4096 * u) (e.staged 0 4096) f false (e.stagedPsn 0 4096))
      cl k { e with psn := e.psn || !(e.stagedPsn 0 4096).isEmpty, sub := e.sub + 1 })) ∧
  (∀ x64 cls d a b c' lab pb pd, e.insn = .xgather x64 cls d a b c' lab →
    (let es := if x64 then 8 else 4
     let rows := e.cv.toNat % 2 ^ 13
     let len := e.cv.toNat / 2 ^ 16 % 2 ^ 13
     let row := far e.av (leVal (e.staged (2 ^ 20) es) * 8 * (e.cv.toNat / 2 ^ 32))
     s.engNear c e.bv (rows * es) false = some pb → s.engNear c e.dv (rows * (8 * len)) false = some pd →
     (read 0 → nearReads s cl k e (pb + es * u) es (2 ^ 20)) ∧
     (∀ i, i < len → read (i + 1) → (∀ r ∈ e.reqs, r.stage = none) ∨ 0 < i → farGets s cl k e (far row (8 * i)) 8 (8 * i)) ∧
     (∀ i, i < len → write i → nearWrites s cl k e (pd + 8 * len * u + 8 * i) 8 (8 * i)))) ∧
  (∀ x64 acc f cls d a b c' lab pa pb, e.insn = .xscatter x64 acc f cls d a b c' lab → e.dv.toNat % 8 = 0 →
    (let es := if x64 then 8 else 4
     let rows := e.cv.toNat % 2 ^ 13
     let len := e.cv.toNat / 2 ^ 16 % 2 ^ 13
     let row := far e.dv (leVal (e.staged (2 ^ 20) es) * 8 * (e.cv.toNat / 2 ^ 32))
     let op : AmoOp := match f with
       | .bf16 => .faddBf16 | .f16 => .faddF16 | .f32 => .faddF32 | _ => .add
     s.engNear c e.bv (rows * es) false = some pb → s.engNear c e.av (rows * (8 * len)) false = some pa →
     (read 0 → nearReads s cl k e (pb + es * u) es (2 ^ 20)) ∧
     (∀ i, i < len → read (i + 1) → nearReads s cl k e (pa + 8 * len * u + 8 * i) 8 (8 * i)) ∧
     (∀ i, i < len → write i → farSends s cl k e (if acc then 4 else 2) (far row (8 * i)) 8 1
       [BitVec.ofNat 64 (leVal (e.staged (8 * i) 8))] (if acc then op.code + 96 else 0xFFFF) none
       (if (e.stagedPsn (8 * i) 8).isEmpty then [] else [1])))) ∧
  (∀ near f cls d a b lab pa, e.insn = .xpack near f cls d a b lab →
    (let tiles := e.bv.toNat % 2 ^ 13
     let slot := 16 * (e.bv.toNat / 2 ^ 16 % 2 ^ 9)
     let at_ := far e.dv (u * slot)
     let rec_ := recordOf f (e.staged 0 4096)
     s.engNear c e.av (4096 * tiles) false = some pa →
     (∀ i, i < 512 → read i → nearReads s cl k e (pa + 4096 * u + 8 * i) 8 (8 * i)) ∧
     (e.sub = 512 → e.spsn = [] → rec_.length ≤ slot → computes s cl k e { e with stage := putRun 0 rec_ [] }) ∧
     (e.sub = 512 → e.spsn = [] → slot < rec_.length → computes s cl k e { e with
       fail := some (10, 0, if near then at_ else gvaOf s at_), failAt := e.pos * 2 ^ 33 + 512
       aux0 := BitVec.ofNat 64 u, aux1 := BitVec.ofNat 64 rec_.length }) ∧
     (∀ i pd, near = true → s.engNear c e.dv (tiles * slot) false = some pd → 8 * i < e.stage.length → e.stage.length % 16 = 0 →
       write i → nearWrites s cl k e (pd + u * slot + 8 * i) 8 (8 * i)) ∧
     (∀ i, near = false → 16 * i < e.stage.length → e.stage.length % 16 = 0 → write i →
       farPuts s cl k e (far at_ (16 * i)) (16 * i)))) ∧
  (∀ near f cls d a b lab pd, e.insn = .xunpack near f cls d a b lab →
    (let tiles := e.bv.toNat % 2 ^ 13
     let slot := 16 * (e.bv.toNat / 2 ^ 16 % 2 ^ 9)
     let map := leVal (e.staged 0 16)
     let n := popc 128 map * (8 * tagWidth f)
     s.engNear c e.dv (4096 * tiles) false = some pd →
     (∀ i pa, near = true → s.engNear c e.av (tiles * slot) false = some pa → read i → (∀ r ∈ e.reqs, r.stage = none) →
       (i < 2 ∨ (map < 2 ^ (512 / tagWidth f) ∧ 16 + n ≤ slot ∧ 8 * i < 16 + n)) → nearReads s cl k e (pa + u * slot + 8 * i) 8 (8 * i)) ∧
     (near = false → read 0 → farGets s cl k e (far e.av (u * slot)) 16 0) ∧
     (∀ i, near = false → read i → 0 < i → (∀ r ∈ e.reqs, r.stage = none) ∨ 1 < i → map < 2 ^ (512 / tagWidth f) → 16 + n ≤ slot →
       16 * i < 16 + n → farGets s cl k e (far (far e.av (u * slot)) (16 * i)) 16 (16 * i)) ∧
     (map < 2 ^ (512 / tagWidth f) → 16 + n ≤ slot → (if near then 16 + n ≤ 8 * e.sub else 16 + n ≤ 16 * e.sub) → e.sub < 2 ^ 32 →
       e.spsn = [] → (∀ r ∈ e.reqs, r.stage = none) → ∃ e' : EngCmd, exec (.engineCommandStart cl k 1) s = .next (withCommand s cl k e') ∧
         e'.sub = 2 ^ 32 ∧ e'.ent = (if map = 0 then some 0 else none) ∧ ∀ x, x < 4096 → (e'.staged 0 4096).getD x 0 =
           let z := 8 * tagWidth f
           if map.testBit (x / z) then (e.staged 0 (16 + n)).getD (16 + z * popc (x / z) map + x % z) 0 else 0) ∧
     (write 0 → s.landWait e (pd + 4096 * u) 4096 = false → hasDir (pd + 4096 * u) = true → e.ent ≠ none →
       exec (.engineCommandStart cl k 1) s = .next (withCommand (s.setTile (pd + 4096 * u) (BitVec.ofNat 64 (1 + 16 * f.code))) cl k
         { e with sub := e.sub + 1 })) ∧
     (write 0 → s.landWait e (pd + 4096 * u) 4096 = false → hasDir (pd + 4096 * u) = true → e.ent = none →
       exec (.engineCommandStart cl k 1) s = .next (withCommand (s.wholeTile (pd + 4096 * u) (e.staged 0 4096) f false
         (e.stagedPsn 0 4096)) cl k { e with psn := e.psn || !(e.stagedPsn 0 4096).isEmpty, sub := e.sub + 1 })))) ∧
  (∀ cls d a b c' lab, e.insn = .xmapLd cls d a b c' lab → ∀ i, i < e.mapElems → read i →
    (∀ g, e.element (e.mapFirst + i) = some g → farGets s cl k e g (mapSize e.desc) (mapSize e.desc * i)) ∧
    (e.element (e.mapFirst + i) = none → e.fillBad = false → exec (.engineCommandStart cl k 1) s = .next (withCommand s cl k { e with
      stage := putRun (mapSize e.desc * i) (leBytes (mapSize e.desc) (mapFill e.desc % 2 ^ (8 * mapSize e.desc))) e.stage
      sub := e.sub + 1 }))) ∧
  (∀ cls d a b c' lab, e.insn = .xmapSt cls d a b c' lab → ∀ i, i < e.mapElems → write i →
    (∀ g, e.element (e.mapFirst + i) = some g → g.toNat % 8 = 0 → mapSize e.desc = 4 → farSends s cl k e 2 g 8 1
      [BitVec.ofNat 64 (leVal (e.staged (4 * i) 4))] 0xFF none (if (e.stagedPsn (4 * i) 4).isEmpty then [] else [1])) ∧
    (e.element (e.mapFirst + i) = none → exec (.engineCommandStart cl k 1) s = .next (withCommand s cl k { e with sub := e.sub + 1 }))) ∧
  (∀ f cls d a b c' lab, e.insn = .xembed f cls d a b c' lab →
    (let row := far (descBase e.desc) (entryIdx e.desc u * descStride e.desc)
     let bytes := descRow e.desc
     let w := entryW e.desc u
     let xs := elements (descFmt e.desc) (e.staged 0 bytes)
     (∀ i, 16 * i < bytes → read i → farGets s cl k e (far row (16 * i)) (Nat.min 16 (bytes - 16 * i)) (16 * i)) ∧
     (bytes ≤ 16 * e.sub → e.sub < 2 ^ 32 → entryEnd e.desc u = false → e.spsn = [] → e.descPsn.contains (4 + u) = false →
       (∀ r ∈ e.reqs, r.stage = none) → ∃ e' : EngCmd, exec (.engineCommandStart cl k 1) s = .next (withCommand s cl k e') ∧
         e'.sub = 2 ^ 32 ∧ e'.sums = (List.range xs.length).map fun x =>
           let t := (widenTag (descFmt e.desc) (xs.getD x 0)).1
           if u = e.bagEntry then (FF.mul .fp32 .rne w t).1 else (FF.fma .fp32 .rne w t (e.sums.getD x 0)).1) ∧
     (∀ i p, 8 * i < e.outRow → write i → entryEnd e.desc u = true →
       s.engNear c e.dv (((List.range e.cv.toNat).filter (entryEnd e.desc)).length * e.outStride) false = some p →
       nearWrites s cl k e (p + e.bag * e.outStride + 8 * i) (Nat.min 8 (e.outRow - 8 * i)) (8 * i)))) ∧
  (∀ toHost near cls d a b c' lab ep, e.insn = .xstream toHost near cls d a b c' lab → s.endpoint e = some ep → Config.hostError s.tick = false →
    (let n := Nat.min 4096 (e.cv.toNat - 4096 * u)
     let host := hostPlace (ep.1 + e.bv.toNat + 4096 * u)
     (toHost = false → read 0 → exec (.engineCommandStart cl k 1) s = .next (withCommand s cl k { e with
       stage := putRun 0 (s.bytes host n) e.stage
       spsn := e.spsn ++ ((List.range n).filter fun i => s.poisoned (host + i)).map (0 + ·)
       sub := e.sub + 1 })) ∧
     (toHost = true → write 0 → exec (.engineCommandStart cl k 1) s = .next (withCommand (s.storeBytes host (e.staged 0 n)
       (e.stagedPsn 0 n)) cl k { e with psn := e.psn || !(e.stagedPsn 0 n).isEmpty, sub := e.sub + 1 })) ∧
     (∀ i p, near = true → s.engNear c e.dv e.cv.toNat false = some p → 8 * i < n → e.cv.toNat % 8 = 0 →
       (toHost = true → read i → nearReads s cl k e (p + 4096 * u + 8 * i) 8 (8 * i)) ∧
       (toHost = false → write i → nearWrites s cl k e (p + 4096 * u + 8 * i) 8 (8 * i))) ∧
     (∀ i, near = false → 16 * i < n → e.cv.toNat % 16 = 0 →
       (toHost = true → read i → farGets s cl k e (far e.dv (4096 * u + 16 * i)) 16 (16 * i)) ∧
       (toHost = false → write i → farPuts s cl k e (far e.dv (4096 * u + 16 * i)) (16 * i)))))

/-- Array n of a cluster. -/
def arrayOf (s : State) (cl : BitVec 8) (n : BitVec 2) : MatArray := (s.cluster cl).arrays[n.toNat]'n.isLt
/-- An array changed, and the landing ranges of a command released. -/
def withArrayAt (s : State) (cl : BitVec 8) (n : BitVec 2) (id : Nat) (f : MatArray → MatArray) : State :=
  s.modCluster cl fun x => { x with
    arrays := x.arrays.set n.toNat (f (x.arrays[n.toNat]'n.isLt)) n.isLt
    land := x.land.filter fun l => decide (l.owner ≠ id) }
/-- One array of a cluster replaced. -/
def setArray (s : State) (cl : BitVec 8) (n : BitVec 2) (A : MatArray) : State :=
  s.modCluster cl fun x => { x with arrays := x.arrays.set n.toNat A n.isLt }
/-- The oldest command of an array is e, and no other has its number. -/
def oldest (s : State) (cl : BitVec 8) (n : BitVec 2) (e : MatCmd) (rest : List MatCmd) : Prop :=
  (arrayOf s cl n).cmds = e :: rest ∧ clusterOf e.core = cl ∧ ∀ f ∈ rest, f.id ≠ e.id
/-- The oldest command of an array is at work: begun, ready, not ended. -/
def working (s : State) (cl : BitVec 8) (n : BitVec 2) (e : MatCmd) (rest : List MatCmd) : Prop :=
  oldest s cl n e rest ∧ e.started = true ∧ e.ready = true ∧ e.ended = false

/-- Cell i of a bank, 128 to a row. -/
def cell (A : MatArray) (m : Bool) (i : Nat) : BitVec 32 := SMap.get 0 (A.acc m) i

/-- A scale byte of k-step q for a row or column, of a region with n bytes for 32 k-steps; none of an unscaled format (R286). -/
def scaleOf (s : State) (e : MatCmd) (region : Word) (n q i : Nat) : Nat :=
  if scaledTag (matFmts e.insn).1 then ((s.matBytes e (e.at (region.toNat + n * (q / 32))) n).getD i 0).toNat else 0

/-- The term of row i and column j that k-step q makes with the west element of row-group g (R284 to R286): the row-groups hold 64
elements each, the north k-steps 128; a k-step absent from a ZC record gives 0 (R302). -/
def gridTerm (s : State) (e : MatCmd) (g q i j : Nat) : FVal × FVal :=
  let f := matFmts e.insn
  let a := match e.westGroup g with
    | some p => (elements f.1 (s.matBytes e p (8 * tagWidth f.1))).getD i 0
    | none => 0
  let b := (elements f.2 (s.matBytes e (e.at (e.bv.toNat + 16 * tagWidth f.2 * q)) (16 * tagWidth f.2))).getD j 0
  (operand f.1 a (scaleOf s e e.westScale 64 q i), operand f.2 b (scaleOf s e e.northScale 128 q j))

/-- The k-step that slot t of a 2:4 operand names for row i by its metadata (R303). -/
def slotStep (s : State) (e : MatCmd) (t i : Nat) : Nat :=
  let md := s.matBytes e (e.at (e.dv.toNat + 32 * (t / 2))) 32
  4 * (t / 2) + (md.getD (i / 2) 0).toNat / 2 ^ (4 * (i % 2) + 2 * (t % 2)) % 4

/-- The terms of a cell in a grid cycle: the r k-steps of the cycle, or for `mops.s24` its r slots. -/
def gridTerms (s : State) (e : MatCmd) (i j : Nat) : List (FVal × FVal) :=
  let r := rateOf (matFmts e.insn).1
  (List.range r).map fun x =>
    let g := r * e.pos + x
    match e.insn with
    | .mopsS24 .. => gridTerm s e g (slotStep s e g i) i j
    | _ => gridTerm s e g g i j

/-- No operand of the cycle is poisoned. -/
def cleanFeed (s : State) (e : MatCmd) : Prop := (s.feed e e.pos).rowPsn = [] ∧ (s.feed e e.pos).colPsn = []

/-- The state of the stochastic rounding after n cells (R299). -/
def xAfter (x : BitVec 32) : Nat → BitVec 32
  | 0 => x
  | n + 1 => xorshift (xAfter x n)

/-- An integer as an operand value. -/
def intVal (z : Int) : FVal := .fin (decide (z < 0)) z.natAbs 0

/-- The arithmetic of a cell (R289, R290): the INT32 sum is exact and clamped once; the FP32 sum of finite terms is exact and rounded
once to nearest even, −0 becoming +0; a NaN gives the canonical NaN. -/
def cellArithmetic : Prop :=
  (∀ (acc : BitVec 32) (xs : List (Int × Int)),
    let z := acc.toInt + (xs.map fun p => p.1 * p.2).sum
    (stepInt acc.toNat (xs.map fun p => (intVal p.1, intVal p.2))).1 =
      if z < -2 ^ 31 then 0x80000000 else if 2 ^ 31 ≤ z then 0x7FFFFFFF else (BitVec.ofInt 32 z).toNat) ∧
  (∀ (acc : Nat) (xs : List ((Bool × Nat × Int) × (Bool × Nat × Int))) (n : Bool) (m : Nat) (x : Int),
    FF.read .fp32 acc = .fin n m x →
    let r := FF.roundDy .fp32 .rne false (sumDy (.fin n m x :: xs.map fun p =>
      .fin (p.1.1 != p.2.1) (p.1.2.1 * p.2.2.1) (p.1.2.2 + p.2.2.2)))
    stepFp acc (xs.map fun p => (.fin p.1.1 p.1.2.1 p.1.2.2, .fin p.2.1 p.2.2.1 p.2.2.2)) =
      (if r.1 = 0x80000000 then 0 else r.1, r.2)) ∧
  (∀ (acc : Nat) (ts : List (FVal × FVal)), (FF.read .fp32 acc).isNan = true ∨ (∃ t ∈ ts, t.1.isNan = true ∨ t.2.isNan = true) →
    (stepFp acc ts).1 = 0x7FC00000)

/-- The arrays at work (R289 to R295, R299 to R307): a grid cycle adds to every cell its terms; a skipped one changes no cell; `mload`
of a tile gives its cells the values of the source elements; `mdrain` of a tile writes the converted cells, each under SR with the next
value of X. -/
def arraysAtWork (s : State) (cl : BitVec 8) : Prop :=
  (∀ arr e rest m, working s cl arr e rest → matBank e.insn = some m → matUnit e.insn = .grid → e.pos < e.cycles → cleanFeed s e →
    let A := arrayOf s cl arr
    (A.acc m).Pairwise (fun x y => x.1 < y.1) →
    (e.cycleKind e.pos = .skip → exec (.matrixCommandStart cl arr 0 1) s =
      .next (setArray s cl arr { A with cmds := { e with pos := e.pos + 1 } :: rest })) ∧
    (e.cycleKind e.pos ≠ .skip → s.cycle.toNat / 1024 ≤ (s.cluster cl).govWin → (s.cluster cl).govUsed < (s.cluster cl).govNow →
      ∃ t, exec (.matrixCommandStart cl arr 0 1) s = .next t ∧ { t with clusters := s.clusters } = s ∧
        (t.cluster cl).govUsed = (s.cluster cl).govUsed + 1 ∧ (arrayOf t cl arr).acc (!m) = A.acc (!m) ∧
        (arrayOf t cl arr).psn m = A.psn m ∧ (∃ fl, (arrayOf t cl arr).cmds = { e with pos := e.pos + 1, flags := e.flags ||| fl } :: rest) ∧
        ∀ i j, i < 64 → j < 128 → cell (arrayOf t cl arr) m (128 * i + j) = BitVec.ofNat 32
          (if A.isInt m then stepInt (cell A m (128 * i + j)).toNat (gridTerms s e i j)
            else stepFp (cell A m (128 * i + j)).toNat (gridTerms s e i j)).1)) ∧
  (∀ arr e rest m f a lab, working s cl arr e rest → e.insn = .mload arr m f a lab →
    (let n := 32768 / tagWidth f
     let p := e.at (e.av.toNat + 4096 * e.pos)
     let A := arrayOf s cl arr
     4096 * e.pos < 1024 * tagWidth f → s.matBad e p 4096 = [] →
     ∃ t, exec (.matrixCommandStart cl arr 0 1) s = .next t ∧ { t with clusters := s.clusters } = s ∧
       (arrayOf t cl arr).cmds = { e with pos := e.pos + 1 } :: rest ∧ (arrayOf t cl arr).acc (!m) = A.acc (!m) ∧
       ∀ i, i < 8192 → cell (arrayOf t cl arr) m i = if i / n = e.pos then
         loadCell f ((elements f (s.matBytes e p 4096)).getD (i % n) 0) else cell A m i)) ∧
  (∀ arr e rest m f rm relu scale a lab, working s cl arr e rest → e.insn = .mdrain arr m f rm relu scale a lab →
    (let n := 32768 / tagWidth f
     let A := arrayOf s cl arr
     let p := e.at (e.av.toNat + 4096 * e.pos)
     let x (i : Nat) : BitVec 32 := if rm = .sr then xAfter A.x (i + 1) else A.x
     let drained (i : Nat) : Nat × Flags := drainCell (A.isInt m) f relu scale.toInt (Rm.mode e.frm ((x i).extractLsb' 16 16) rm)
       (cell A m (n * e.pos + i))
     4096 * e.pos < 1024 * tagWidth f → A.psn m = [] → (A.acc m).Pairwise (fun x y => x.1 < y.1) → 8 ≤ tagWidth f →
     ∃ fl, exec (.matrixCommandStart cl arr 0 1) s = .next (setArray
       (s.wholeTile p ((List.range n).flatMap fun i => leBytes (tagWidth f / 8) (drained i).1) f true []) cl arr { A with
         x := if rm = .sr then xAfter A.x n else A.x
         cmds := { e with pos := e.pos + 1, flags := e.flags ||| fl } :: rest })))

/-- It has not started, and nothing holds it. -/
def fresh (s : State) (cl : BitVec 8) (e : MatCmd) : Prop :=
  e.started = false ∧ e.ended = false ∧ (s.cluster cl).grace = []

end Claims

/-- R155, R161, R162, R165 to R187, R210, R211, R282, R283, R287 to R307: the units at work. A tile command of one tile sets its
directory entry and ends; the start checks end every tile command with ALIGN, LIMIT or NEAR; an `xcopy` of 16 bytes within the scratchpad
moves them; the other commands at work read, send and write the bytes that their descriptions name (in far requests of 16 bytes and near
accesses of 8: log 8), and one that has no units left or has failed ends once no request of it is out. A command that has ended registers
its completion, payload as in Table 6.4, and waits while the kitty is full. The oldest command of an array: `mzero` clears its bank,
`mseed` sets X and leaves the queue, a `mop` off a tile boundary ends with ALIGN, one whose window's grid cycles are used up waits, and
grid cycles, loads and drains do to the cells and the tiles what R289 to R307 say (a cell keeps one form of each value: log 66); completions are registered in queue order, payload as
in Table 11.1. A new window takes G, halved under throttling (R404). The events: engineCommandStart, engineCompletion,
matrixCommandStart, matrixCompletion, governorWindow. -/
def Obligations.UnitSteps : Prop :=
  Claims.cellArithmetic ∧ ∀ (s : State) (cl : BitVec 8) (n : Nat),
    Claims.arraysAtWork s cl ∧
    (∀ k e, Claims.atWork s cl k e → Claims.movers s cl k e) ∧
    (∀ k e, Claims.commandAt s cl k e → e.phase = .work → e.hold = false → (s.core e.core).held = false →
      e.fail ≠ none ∨ e.blocks ≤ e.pos → e.reqs = [] → exec (.engineCommandStart cl k 1) s =
        .next (Claims.withCommand (s.modCluster cl fun x => { x with land := x.land.filter fun l => decide (l.owner ≠ e.id) }) cl k
          { e with phase := .ended })) ∧
    (∀ k e, Claims.commandAt s cl k e →
      (Claims.canStart s cl k e →
        (∀ p f diag a b c lab, e.cv = 1 → s.nearPlace e.core e.av 4096 = some p → e.av.toNat < 0x1000000 → e.av.toNat % 4096 = 0 →
          Claims.landingFree s cl e p 4096 → 5 ≤ n →
          let old := (s.entry p).toNat / 16 % 16
          let x := e.bv.toNat % 2 ^ tagWidth f
          let sp := (tagSpecial f x).toNat
          ((e.insn = .tzero a c lab → (Tag.ofCode old).isSome → exec (.engineCommandStart cl k n) s =
            .next (Claims.withCommand (s.setTile p (BitVec.ofNat 64 (1 + 16 * old))) cl k (Claims.didOne e))) ∧
          (e.insn = .tfill f a b c lab → exec (.engineCommandStart cl k n) s = .next (Claims.withCommand
            (s.setTile p (BitVec.ofNat 64 (if x = 0 then 1 + 16 * f.code else 2 + 4 * sp + 16 * f.code + 2 ^ 32 * x)))
            cl k (Claims.didOne e))) ∧
          (e.insn = .tident f diag a c lab → exec (.engineCommandStart cl k n) s =
            .next (Claims.withCommand (s.setTile p (BitVec.ofNat 64 (3 + 16 * f.code + 2 ^ 8 * diag.toNat)))
              cl k (Claims.didOne e))))) ∧
        (∀ f diag a b c lab,
          ∀ i ∈ [(Instr.tzero a c lab, false), (.tfill f a b c lab, false), (.tident f diag a c lab, true)], e.insn = i.1 → 1 ≤ n →
          (let tiles := e.cv.toNat % 2 ^ 13
           let rest := if i.2 then e.cv.toNat - (e.cv.getLsbD 16).toNat * 2 ^ 16 else e.cv.toNat
           let ends (st : Nat) (w : Word) : Prop :=
             exec (.engineCommandStart cl k n) s = .next (Claims.withCommand s cl k (Claims.refused e st w))
           (e.av.toNat % 4096 ≠ 0 → ends 4 e.av) ∧
           (e.av.toNat % 4096 = 0 → tiles = 0 ∨ 2 ^ 13 ≤ rest → ends 6 0) ∧
           (e.av.toNat % 4096 = 0 → tiles ≠ 0 → rest < 2 ^ 13 →
             0x1000000 < e.av.toNat + 4096 * tiles ∨ s.nearPlace e.core e.av (4096 * tiles) = none → ends 3 e.av))) ∧
        (∀ dir f cls d a b lab p q, e.insn = .xcopy dir f cls d a b lab → dir.srcNear = true → dir.dstNear = true → e.bv = 16 →
          e.av.toNat % 16 = 0 → e.dv.toNat % 16 = 0 → e.av ≠ e.dv → e.av.toNat < 0x1000000 → e.dv.toNat < 0x1000000 →
          s.nearPlace e.core e.av 16 = some p → s.nearPlace e.core e.dv 16 = some q →
          (∀ i, i < 16 → s.poisoned (p + i) = false) → Claims.landingFree s cl e q 16 → Claims.landingFree s cl e p 16 → 8 ≤ n →
          exec (.engineCommandStart cl k n) s =
            .next (Claims.withCommand (s.storeBytes q (s.bytes p 16)) cl k (Claims.didOne e)))) ∧
      (e.phase = .ended → e.cls ≠ .trump → (s.core e.core).kitty.size ≠ 0 →
        ((s.core e.core).kitty.full = true → exec (.engineCompletion cl k) s = .next s) ∧
        (let x := e.fail.getD (0, 0, 0)
         (s.core e.core).kitty.full = false → e.doneCount < 2 ^ 32 → x.1 < 16 → x.2.1 < 16 →
          ∀ f dir y z cls diag d a b c lab,
          ∀ p ∈ (Claims.engineCommands f dir y z cls diag d a b c lab).zip [9, 10, 11, 16, 17, 17, 18, 19, 20, 21, 22, 23],
            e.insn = p.1.1 →
            let aux : Word × Word := if p.2 = 20 ∧ x.1 ≠ 10 then (0, 0) else (e.aux0, e.aux1)
            exec (.engineCompletion cl k) s =
              .next ((s.modCluster cl fun z => { z with eng := z.eng.eraseIdx k }).selfMsg e.core e.lab e.cls
                [BitVec.ofNat 64 (x.1 + 2 ^ 4 * x.2.1 + 2 ^ 8 * e.psn.toNat + 2 ^ 16 * p.2 + 2 ^ 32 * e.doneCount), x.2.2, aux.1, aux.2]
                { flags := e.flags, cmds := [e.id], overflow := if x.1 = 10 then some x.2.2 else none })))) ∧
    (∀ arr e rest, Claims.oldest s cl arr e rest →
      (Claims.fresh s cl e → 1 ≤ n →
        (∀ m lab, e.insn = .mzero arr m lab → exec (.matrixCommandStart cl arr 0 n) s =
          .next (Claims.withArrayAt s cl arr e.id fun A =>
            let B := { A with cmds := { e with started := true, ended := true } :: rest }
            if m then { B with acc1 := [], psn1 := [] } else { B with acc0 := [], psn0 := [] })) ∧
        (∀ a, e.insn = .mseed arr a → exec (.matrixCommandStart cl arr 0 n) s =
          .next (Claims.setArray s cl arr { Claims.arrayOf s cl arr with
            cmds := rest, x := if e.av.extractLsb' 0 32 = 0#32 then 1 else e.av.extractLsb' 0 32 })) ∧
        (∀ m fA fB a b c lab, e.insn = .mop arr m fA fB a b c lab → e.av.toNat % 4096 ≠ 0 →
          exec (.matrixCommandStart cl arr 0 n) s =
            .next (Claims.setArray s cl arr { Claims.arrayOf s cl arr with
              cmds := { e with started := true, ended := true, status := 4, wher := e.av } :: rest }))) ∧
      (∀ m fA fB a b c lab, e.insn = .mop arr m fA fB a b c lab → e.started = true → e.ready = true → e.ended = false →
        e.pos < e.cycles → e.cycleKind e.pos ≠ .skip → s.cycle.toNat / 1024 ≤ (s.cluster cl).govWin →
        (s.cluster cl).govNow ≤ (s.cluster cl).govUsed → exec (.matrixCommandStart cl arr 0 n) s = .next s) ∧
      (∀ m fA fB rm relu scale a b c d lab, ∀ p ∈ [(Instr.mop arr m fA fB a b c lab, 1, e.cv.toNat % 2 ^ 13),
          (.mopsZc arr m fA fB d a b c lab, 2, e.cv.toNat % 2 ^ 13), (.mopsS24 arr m fA fB d a b c lab, 2, e.cv.toNat % 2 ^ 13),
          (.mzero arr m lab, 3, 0), (.mload arr m fA a lab, 4, tagWidth fA / 4),
          (.mdrain arr m fA rm relu scale a lab, 5, tagWidth fA / 4)],
        e.insn = p.1 → e.ended = true → (s.core e.core).kitty.size ≠ 0 → (s.core e.core).kitty.full = false →
        exec (.matrixCompletion cl arr) s = .next ((Claims.setArray s cl arr
            { Claims.arrayOf s cl arr with cmds := rest }).selfMsg e.core e.lab .normal
          [BitVec.ofNat 64 (e.status % 16 + 2 ^ 8 * e.psn.toNat + 2 ^ 16 * p.2.1 + 2 ^ 21 * arr.toNat + 2 ^ 23 * m.toNat
            + 2 ^ 24 * e.flags.toNat + 2 ^ 32 * (if e.status = 0 then p.2.2 else 0)), e.wher] { flags := e.flags })) ∧
      (e.ended = false → exec (.matrixCompletion cl arr) s = .next s)) ∧
    ((s.cluster cl).govWin < s.cycle.toNat / 1024 → exec (.governorWindow cl) s = .next (s.modCluster cl fun z =>
      { z with govUsed := 0, govWin := s.cycle.toNat / 1024,
               govNow := if s.care.throttled then Nat.max 64 (z.gov / 2) else z.gov }))

namespace Claims

/-- An MSI-X vector raised; a bit of MEVENT set, with vector 1 (R382, R383). -/
def raised (s : State) (v : Nat) : State := { s with care := { s.care with vectors := s.care.vectors ++ [v] } }
def meventSet (s : State) (b : Nat) : State :=
  { s with care := { s.care with mevent := s.care.mevent ||| 1#6 <<< b, vectors := s.care.vectors ++ [1] } }

/-- An ingress queue, and the machine with one changed. -/
def queueOf (s : State) (q : BitVec 14) : IQueue := SMap.get {} s.queues q.toNat
def withQueue (s : State) (q : BitVec 14) (x : IQueue) : State := { s with queues := SMap.set q.toNat x s.queues }

/-- A queue that entered ERROR: its tokens discarded with cause 4 (R394). -/
def errored (x : IQueue) : IQueue :=
  { x with tokens := [], out := x.out + BitVec.ofNat 16 x.tokens.length, drop := x.drop + BitVec.ofNat 8 x.tokens.length,
           state := .error, cause := 4, load := none, tail := false, job := 0 }
/-- A queue that is UNBOUND. -/
def unbound (x : IQueue) : IQueue := { x with state := .unbound, job := 0, load := none, tail := false }

/-- The image of an image-table entry: the loader's copy of it, unless it was withdrawn, or its bytes in host memory (R388, R389). -/
def imageOf (s : State) (e : BitVec 512) : List Byte :=
  match SMap.find s.store (e.extractLsb' 0 32).toNat with
  | some c => if c.withdrawn then (List.range (e.extractLsb' 32 32).toNat).map (fun i => s.memByte (hostPlace ((e.extractLsb' 64 64).toNat + i)))
    else c.bytes
  | none => (List.range (e.extractLsb' 32 32).toNat).map fun i => s.memByte (hostPlace ((e.extractLsb' 64 64).toNat + i))

/-- A message for a job, on its way at its target core's router, and counted as sent (R310, R395). -/
def injectedAt (s : State) (job : BitVec 8) (c : CoreIx) (cls : Cls) (lab : Label) (tag : BitVec 4) (ws : List Word) : Flight :=
  { p := { hdr := { dcore := c.extractLsb' 0 7, dcl := clusterOf c, dmod := s.cfg.modid, cls := cls, lab := lab,
                    plen := BitVec.ofNat 5 ((ws.length + 1) / 2), src := s.coreName c, job := job, tag := tag },
           words := if ws.length % 2 = 1 then ws ++ [0] else ws },
    loc := .router (clusterOf c) 0, since := s.cycle.toNat }

/-- A core with no instance and nothing queued (R327). -/
def workless (k : Core) : Prop :=
  (∀ t, (k.thread t).run = .free) ∧ (∀ cls, k.queue cls = []) ∧ k.kitty.recs = [] ∧ k.owed = []

/-- A message of another class that the loader or the ingress unit injected for a core is still on its way to it (R310). -/
def otherAhead (s : State) (c : CoreIx) (cls : Cls) : Prop :=
  ∃ f ∈ s.net, f.p.hdr.kind = 0 ∧ f.p.hdr.src = s.coreName c ∧ f.p.hdr.dmod = s.cfg.modid ∧ dstOf f.p.hdr = c ∧ f.p.hdr.cls ≠ cls

/-- Whether a message for a core may be injected at its cluster: space for it, and the trump limits (R118, R122). -/
def mayEnter (s : State) (c : CoreIx) (cls : Cls) : Prop :=
  s.mayInject (clusterOf c) 0 (decide (cls = .trump)) = true ∧ (cls = .trump → s.trumpOk c false = true)

/-- A message injected for a job: it counts as sent (R327), and a trump message against the limits (R122). -/
def entered1 (s : State) (jn : BitVec 8) (j : Job) (c : CoreIx) (cls : Cls) (lab : Label) (tag : BitVec 4) (ws : List Word) : State :=
  let u := { s with jobs := SMap.set jn.toNat { j with sent := j.sent + 1 } s.jobs, net := s.net ++ [injectedAt s jn c cls lab tag ws] }
  if cls = .trump then u.trumpSent c false else u

end Claims

/-- R309, R310, R316, R327, R328, R388 to R390, R394, R396: an image without its magic fails to load, MEVENT bit 3 and its queue
ERROR; a load that can go on prepares a job whose cores are its own, each with its kitty, held until its gate opens, and the loader
keeps the image's copy; the gate takes the endpoint slots, lets the dealer start, and binds the queue, of a job of several modules
only after OPEN; initial messages are released in record order, where the target's cluster has room and the trump limits allow, and
count as sent; a job of one module, DONE and quiet, retires: its cores return to the system job, its range entries lose V, its
groups go and its BAR packets in flight, its queue is UNBOUND. That a load can go on, its memory and its kitties' places are the
model's own plan of the loader's choices, and so is whether a copy that no job uses is still there (log 26); a core's trigger entries
at its return are log 30; that a start message enters at its target core's router and names that core in SRC is log 63, that one of one class
waits for those of another on their way log 68. The events: imageLoad, launchGateOpen, initialMessageRelease, jobRetirement. -/
def Obligations.LaunchEvents : Prop :=
  ∀ (s : State) (q : BitVec 14) (job : BitVec 8),
    (∀ ent e, (Claims.queueOf s q).state = .loading → (Claims.queueOf s q).load = some (ent, e) → e.extractLsb' 148 12 = 0#12 →
      (SMap.find s.store (e.extractLsb' 0 32).toNat = none ∨ (∃ j ∈ s.jobs, j.2.handle = e.extractLsb' 0 32) →
        (Claims.queueOf s q).tail = false →
        (let bs := Claims.imageOf s e
         bs.length < 64 ∨ leVal (bs.take 4) ≠ 0x4A424947 →
          exec (.imageLoad q) s = .next (let t := Claims.withQueue (Claims.meventSet s 3) q (Claims.errored (Claims.queueOf s q))
            if (Claims.queueOf s q).tokens = [] then t else Claims.raised t 2))) ∧
      (∀ p, (s.evictFor (e.extractLsb' 0 32).toNat).plan ent e = .go p → ∃ t j, exec (.imageLoad q) s = .next t ∧
        SMap.find t.jobs p.job.toNat = some j ∧
        j.cores = p.img.cores.map (·.1) ∧ j.gate = false ∧ j.queue = some q ∧ j.handle = p.e.extractLsb' 0 32 ∧
        (Claims.queueOf t q).load = none ∧
        SMap.find t.store (p.e.extractLsb' 0 32).toNat =
          some { bytes := Claims.imageOf (s.evictFor (e.extractLsb' 0 32).toNat) p.e, used := s.tick } ∧
        (∀ c ∈ j.cores, (t.core c).member = true ∧ (t.core c).job = p.job ∧
          (t.core c).held = true ∧ (t.core c).frozen = false ∧ Claims.workless (t.core c) ∧ (t.core c).sup = false) ∧
        ∀ i x, p.img.cores[i]? = some x →
          ((t.core x.1).kitty.base, (t.core x.1).kitty.size) = p.kitties.getD i (0, 0))) ∧
    (∀ j, SMap.find s.jobs job.toNat = some j → j.gate = false →
      (j.nmod ≠ 0 → j.opened = false → exec (.launchGateOpen job) s = .next s) ∧
      (j.nmod = 0 ∨ j.opened = true → ∃ t slots, exec (.launchGateOpen job) s = .next t ∧
        (∀ n, n < 256 → SMap.find slots n = SMap.find s.slots (256 * j.entry + n)) ∧
        t.jobs = SMap.set job.toNat { j with gate := true, slots := slots } s.jobs ∧
        (∀ c, t.core c = if c ∈ j.cores then { s.core c with held := false } else s.core c) ∧
        t.queues = (match j.queue with
          | some r => SMap.set r.toNat { Claims.queueOf s r with state := .bound, job := job, tail := false } s.queues
          | none => s.queues) ∧
        { t with jobs := s.jobs, cores := s.cores, queues := s.queues } = s)) ∧
    (∀ j m rest, SMap.find s.jobs job.toNat = some j → j.gate = true → j.inits = m :: rest →
      (Claims.mayEnter s m.core m.cls → ¬ Claims.otherAhead s m.core m.cls → exec (.initialMessageRelease job) s =
        .next (Claims.entered1 s job { j with inits := rest } m.core m.cls m.lab m.tag m.words)) ∧
      (¬ Claims.mayEnter s m.core m.cls ∨ Claims.otherAhead s m.core m.cls → exec (.initialMessageRelease job) s = .next s)) ∧
    (∀ j, SMap.find s.jobs job.toNat = some j → j.gate = true → j.nmod = 0 → j.tail = none →
      (j.done = false ∨ j.sent ≠ j.recv ∨ j.inits ≠ [] → exec (.jobRetirement job) s = .next s) ∧
      (∀ r, j.done = true → j.sent = j.recv → j.inits = [] → (∀ c ∈ j.cores, Claims.workless (s.core c)) →
        (∀ c ∈ j.cores, let x := s.cluster (clusterOf c)
          (∀ k ∈ x.eng, k.job ≠ job) ∧ (∀ v ∈ x.saved, v.job ≠ job) ∧ (∀ g ∈ x.grace, g.job ≠ job) ∧
            ∀ a ∈ x.arrays.toList, ∀ k ∈ a.cmds, k.core ∉ j.cores) →
        (∀ i e, (i, e) ∈ s.ranges → e.1.extractLsb' 8 8 = job →
          (∀ k ∈ s.park, k.entry ≠ i) ∧ ∀ f ∈ s.net, f.ent.map (·.1) ≠ some i) →
        j.queue = some r → (Claims.queueOf s r).tokens = [] →
        ∃ t, exec (.jobRetirement job) s = .next t ∧ (∀ x, SMap.find t.jobs x = if x = job.toNat then none else SMap.find s.jobs x) ∧
          (∀ c, if c ∈ j.cores then (t.core c).job = 0 ∧ (t.core c).member = true ∧ (t.core c).sup = true ∧
              (∀ l, (SMap.get 0 (t.core c).trig l).getLsbD 38 = false) ∧
              ∀ i, (t.core c).thread i = (s.core c).thread i
            else t.core c = s.core c) ∧
          t.ranges = s.ranges.map (fun e =>
            if e.2.1.extractLsb' 8 8 = job then (e.1, e.2.1 &&& ~~~ 1#64, e.2.2) else e) ∧
          t.groups = s.groups.filter (fun g => decide (g.2.job ≠ job)) ∧
          t.net = s.net.filter (fun f => decide (f.p.hdr.kind ≠ 10 ∨ f.p.hdr.job ≠ job)) ∧
          t.queues = SMap.set r.toNat (Claims.unbound (Claims.queueOf s r)) s.queues ∧ t.mem = s.mem))

namespace Claims

/-- A field of n bytes at an offset of a token (Table 15.6). -/
def tokenField (t : List Byte) (o n : Nat) : Nat := leVal ((t.drop o).take n)
/-- A token that its queue discards at release (R392): reserved bits, a target or label out of range, too many words. -/
def malformed (t : List Byte) : Prop :=
  2 ^ 15 ≤ tokenField t 4 2 ∨ 128 ≤ tokenField t 6 1 ∨ 32 ≤ tokenField t 7 1 ∨ tokenField t 8 8 ≠ 0 ∨
    (let w := tokenField t 7 1 / 4 % 8
     6 < w ∨ (tokenField t 7 1 % 4 = 3 ∧ 4 < w))

/-- A field of n bytes of the mailbox, and the mailbox with bytes from an offset on. -/
def box (s : State) (o n : Nat) : Nat := leVal ((List.range n).map fun i => SMap.get 0 s.care.mbox (o + i))
/-- A mailbox command done: its status at 0xFF0, vector 0 (R402). -/
def finished (s : State) (status : Nat) : State :=
  { s with care := { s.care with
      mboxCmd := none, vectors := s.care.vectors ++ [0]
      mbox := (List.range 8).foldl (fun m i => SMap.set (0xFF0 + i) (BitVec.ofNat 8 (status / 256 ^ i)) m) s.care.mbox } }
/-- The image that a firmware command names: its bytes in host memory. -/
def firmware (s : State) : List Byte := (List.range (box s 16 8)).map fun i => s.memByte (hostPlace (box s 8 8 + i))
/-- It may be booted (R401). -/
def bootable (img : List Byte) : Prop := img.length ≤ 2 ^ 26 ∧ Config.firmwareValid img = true

/-- A service state entered, with MEVENT bit 0 (R383, R385). -/
def serviceState (s : State) (v : Svc) : State := meventSet { s with care := { s.care with svc := v } } 0
/-- EARLY entered: every core is one of the system job (R328, R385, log 30). -/
def early (s : State) : State :=
  let sys (k : Core) : Core := { k with member := true, sup := true, job := 0 }
  let t := serviceState s .early
  { t with idle := sys t.idle, cores := t.cores.map fun e => (e.1, sys e.2) }

/-- The bits of word j of an image-table entry that the host writes (Table 15.4). -/
def entryMask (j : Nat) : Word := if j < 3 then BitVec.allOnes 64 else if j = 3 then 1 else 0

end Claims

/-- R383, R388, R389, R391 to R396, R401 to R404, Table 15.3: what the host does. Tokens are accepted in early and full service
(outside them the model ignores them, log 31), discarded when malformed, or name the image of an UNBOUND queue; a BOUND queue releases
them after the initial messages, while their target's cluster has room and the trump limits allow (R118, R122); QCTL resets a queue in
ERROR; ones written clear MEVENT; a power cap within bounds sets every G; mailbox, image table and endpoint slots take their bytes,
BYTES of 0 evicts the copy of an image that no job uses, and DIR of a slot stays; a doorbell starts a command; the mailbox commands;
an image is written to flash between two steps of its command, and a recovered module boots it. Where a token's message enters is
log 63, a write of one aligned word log 31, what RESET keeps beside flash log 32, the module's signatures and certificates log 11.
The events: tokenWrite, tokenRelease, qctlReset, meventClear, powercapWrite, hostRegisterWrite, attest, fwupdate, recover, cert,
reset. -/
def Obligations.HostEvents : Prop :=
  ∀ (s : State) (q : BitVec 14) (off : BitVec 26) (bytes : List Byte) (value : Word),
    let x := Claims.queueOf s q
    let put (y : IQueue) : State := Claims.withQueue s q y
    (off.extractLsb' 12 14 = q →
      let y := { x with tokens := x.tokens ++ [bytes], acc := x.acc + 1 }
      let h := BitVec.ofNat 32 (Claims.tokenField bytes 0 4)
      let fits := bytes.length = 64 ∧ off.toNat % 64 = 0
      (s.care.svc ≠ .early → s.care.svc ≠ .full → exec (.tokenWrite off bytes) s = .next s) ∧
      (s.care.svc = .early ∨ s.care.svc = .full →
        (¬ fits → exec (.tokenWrite off bytes) s = .next (put { x with drop := x.drop + 1, cause := 5 })) ∧
        (fits → 64 ≤ x.tokens.length → exec (.tokenWrite off bytes) s = .next (put { x with drop := x.drop + 1, cause := 1 })) ∧
        (fits → x.tokens.length < 64 →
          (x.state = .loading ∨ x.state = .bound → exec (.tokenWrite off bytes) s = .next (put y)) ∧
          (x.state = .unbound → x.tokens = [] →
            (∀ e, h ≠ 0 → s.images.find? (fun e => decide (e.2.extractLsb' 0 32 = h ∧ e.2.extractLsb' 32 32 ≠ 0#32)) = some e →
              exec (.tokenWrite off bytes) s = .next (put { y with state := .loading, load := some e, tail := false })) ∧
            (h = 0 ∨ (∀ e ∈ s.images, ¬ (e.2.extractLsb' 0 32 = h ∧ e.2.extractLsb' 32 32 ≠ 0#32)) →
              exec (.tokenWrite off bytes) s = .next (Claims.raised (put (Claims.errored y)) 2))) ∧
          (x.state = .error → x.tokens = [] → exec (.tokenWrite off bytes) s = .next (Claims.raised
            (put { x with acc := x.acc + 1, out := x.out + 1, drop := x.drop + 1, cause := 4 }) 2))))) ∧
    (∀ t rest j, x.state = .bound → x.tokens = t :: rest → SMap.find s.jobs x.job.toNat = some j →
      (j.inits ≠ [] → exec (.tokenRelease q) s = .next s) ∧
      (j.inits = [] →
        let y (c : BitVec 4) := { x with tokens := rest, out := x.out + 1, drop := x.drop + 1, cause := c }
        (Claims.malformed t → exec (.tokenRelease q) s = .next (put (y 2))) ∧
        (∀ cls, ¬ Claims.malformed t → Cls.ofCode (Claims.tokenField t 7 1 % 4) = some cls →
          let c : CoreIx := BitVec.ofNat 15 (Claims.tokenField t 4 2)
          let lab : Label := BitVec.ofNat 7 (Claims.tokenField t 6 1)
          (⟨c, lab, cls⟩ ∉ j.targets → exec (.tokenRelease q) s = .next (put (y 3))) ∧
          (⟨c, lab, cls⟩ ∈ j.targets →
            (¬ Claims.mayEnter s c cls → exec (.tokenRelease q) s = .next s) ∧
            (Claims.mayEnter s c cls → exec (.tokenRelease q) s = .next
              (Claims.entered1 (put { x with tokens := rest, out := x.out + 1 }) x.job j c cls lab 0
                ((List.range (Claims.tokenField t 7 1 / 4 % 8)).map fun i => BitVec.ofNat 64 (Claims.tokenField t (16 + 8 * i) 8)))))))) ∧
    (x.state = .error → value.getLsbD 0 = true →
      exec (.qctlReset q value) s = .next (put { x with tokens := [], state := .unbound, load := none, job := 0 })) ∧
    (x.state ≠ .error ∨ value.getLsbD 0 = false → exec (.qctlReset q value) s = .next s) ∧
    (let t := { s with care := { s.care with mevent := s.care.mevent &&& ~~~ value.extractLsb' 0 6 } }
     exec (.meventClear value) s = .next t ∧ exec (.hostRegisterWrite 8 value) s = .next t) ∧
    (value.toNat < 4000 ∨ 24000 < value.toNat → exec (.powercapWrite value) s = .next s) ∧
    (4000 ≤ value.toNat → value.toNat ≤ 24000 → ∃ t, exec (.powercapWrite value) s = .next t ∧
      { t with clusters := s.clusters } = { s with care := { s.care with powercap := value.toNat } } ∧
      ∀ cl, (t.cluster cl).gov = Nat.max 64 (64 * (4096 * value.toNat / (24000 * 64))) ∧
        { t.cluster cl with gov := (s.cluster cl).gov, govUsed := (s.cluster cl).govUsed, govWin := (s.cluster cl).govWin,
                            govNow := (s.cluster cl).govNow } = s.cluster cl ∧
        (s.cycle.toNat / 1024 ≤ (s.cluster cl).govWin → (t.cluster cl).govNow = (s.cluster cl).govNow)) ∧
    (∀ o : BitVec 25, o.toNat % 8 = 0 →
      (0x1000 ≤ o.toNat → o.toNat < 0x1FF8 → ∃ t, exec (.hostRegisterWrite o value) s = .next t ∧
        { t with care := { t.care with mbox := s.care.mbox } } = s ∧
        ∀ i, SMap.get 0 t.care.mbox i = if o.toNat - 0x1000 ≤ i ∧ i < o.toNat - 0x1000 + 8
          then value.extractLsb' (8 * (i - (o.toNat - 0x1000))) 8 else SMap.get 0 s.care.mbox i) ∧
      (0x100000 ≤ o.toNat → o.toNat < 0x104000 → ∃ t, exec (.hostRegisterWrite o value) s = .next t ∧
        { t with images := s.images, store := s.store } = s ∧
        ∀ n j, j < 8 → (SMap.get 0 t.images n).extractLsb' (64 * j) 64 =
          if n = (o.toNat - 0x100000) / 64 then
            (if j = (o.toNat - 0x100000) / 8 % 8 then value else (SMap.get 0 s.images n).extractLsb' (64 * j) 64) &&& Claims.entryMask j
          else (SMap.get 0 s.images n).extractLsb' (64 * j) 64) ∧
      (0x100000 ≤ o.toNat → o.toNat < 0x104000 → o.toNat % 64 = 0 → value.extractLsb' 32 32 = 0#32 →
        (∀ j ∈ s.jobs, j.2.handle ≠ value.extractLsb' 0 32) →
        ∃ t, exec (.hostRegisterWrite o value) s = .next t ∧ SMap.find t.store (value.extractLsb' 0 32).toNat = none) ∧
      (0x200000 ≤ o.toNat → o.toNat < 0x400000 → ∃ t, exec (.hostRegisterWrite o value) s = .next t ∧ { t with slots := s.slots } = s ∧
        let n := (o.toNat - 0x200000) / 32
        (∀ i, i ≠ n → SMap.get 0 t.slots i = SMap.get 0 s.slots i) ∧
        ∀ j, j < 4 → (SMap.get 0 t.slots n).extractLsb' (64 * j) 64 =
          if j = o.toNat / 8 % 4 ∧ j < 2 then value else (SMap.get 0 s.slots n).extractLsb' (64 * j) 64)) ∧
    (s.care.mboxCmd = none →
      let c := Claims.box s 0 8
      (s.care.svc = .boot → exec (.hostRegisterWrite 0x1FF8 1) s = .next (Claims.finished s 1)) ∧
      (s.care.svc = .early ∨ s.care.svc = .full → c ∈ [1, 2, 4, 5] →
        exec (.hostRegisterWrite 0x1FF8 1) s = .next { s with care := { s.care with mboxCmd := some c } }) ∧
      (s.care.svc = .early ∨ s.care.svc = .full → c ∉ [1, 2, 4, 5] →
        exec (.hostRegisterWrite 0x1FF8 1) s = .next (Claims.finished s 3)) ∧
      (s.care.svc = .recovery → exec (.hostRegisterWrite 0x1FF8 1) s =
        .next (if c = 3 then { s with care := { s.care with mboxCmd := some 3 } } else Claims.finished s 3))) ∧
    (s.care.mboxCmd ≠ none → exec (.hostRegisterWrite 0x1FF8 1) s = .next s) ∧
    (s.care.mboxCmd = some 1 → ∃ t, exec .attest s = .next t ∧ { t with care := s.care } = s ∧ t.care.mboxCmd = none ∧
      t.care.vectors = s.care.vectors ++ [0] ∧ Claims.box t 0xFF0 8 = 0 ∧ Claims.box t 0x100 4 = 0x54455441 ∧
      Claims.box t 0x104 4 = 1 ∧ (∀ i, i < 32 → Claims.box t (0x108 + i) 1 = Claims.box s (8 + i) 1) ∧
      Claims.box t 0x128 8 = Config.serial.toNat ∧
      Claims.box t 0x130 8 = s.cfg.modid.toNat + 2 ^ 12 * Svc.code s.care.svc + 2 ^ 32 * (Config.securityVersion s.care.flash).toNat ∧
      Claims.box t 0x138 32 = (Config.sm3 s.care.flash).toNat ∧ Claims.box t 0x158 32 = (Config.sm3 Config.fuseMap).toNat) ∧
    (s.care.mboxCmd = some 2 →
      (s.care.flashWriting = false → Claims.bootable (Claims.firmware s) → exec .fwupdate s =
        .next { s with care := { s.care with flashNew := Claims.firmware s, flashWriting := true } }) ∧
      (s.care.flashWriting = false → ¬ Claims.bootable (Claims.firmware s) → exec .fwupdate s = .next (Claims.finished s 2)) ∧
      (s.care.flashWriting = true → exec .fwupdate s = .next (Claims.finished { s with care := { s.care with
        flash := s.care.flashNew, flashNew := [], flashWriting := false, flashBad := false } } 0))) ∧
    (s.care.mboxCmd = some 3 → s.care.svc = .recovery →
      (s.care.flashWriting = false → ¬ Claims.bootable (Claims.firmware s) → exec .recover s = .next (Claims.finished s 2)) ∧
      (s.care.flashWriting = false → Claims.bootable (Claims.firmware s) → exec .recover s =
        .next { s with care := { s.care with flashNew := Claims.firmware s, flashWriting := true } }) ∧
      (s.care.flashWriting = true → exec .recover s = .next
        (let v := Claims.serviceState { Claims.finished s 0 with care := { (Claims.finished s 0).care with
           flash := s.care.flashNew, flashNew := [], flashWriting := false, flashBad := false, verified := true } } .boot
         if s.care.bist then Claims.early v else v))) ∧
    (s.care.mboxCmd = some 4 → ∃ t, exec .cert s = .next t ∧ { t with care := s.care } = s ∧ t.care.mboxCmd = none ∧
      t.care.vectors = s.care.vectors ++ [0] ∧ Claims.box t 0xFF0 8 = 0 ∧
      ∀ i, i < 0xEF0 → ∀ b, Config.certChain[i]? = some b → SMap.get 0 t.care.mbox (0x100 + i) = b) ∧
    (s.care.mboxCmd = some 5 → ∃ t, exec .reset s = .next t ∧ t.care.svc = .reset ∧ t.care.mboxCmd = none ∧
      t.care.flash = s.care.flash ∧ t.care.flashBad = s.care.flashBad ∧ t.care.mevent = 1 ∧ t.care.powered = s.care.powered ∧
      t.care.vectors = s.care.vectors ++ [1, 0] ∧ Claims.box t 0xFF0 8 = 0 ∧ t.mem = s.mem ∧ t.cores = [] ∧ t.idle = State.reset.idle ∧ t.clusters = [] ∧ t.net = [] ∧ t.ranges = [] ∧
      t.jobs = [] ∧ t.queues = [] ∧ t.cycle = 0 ∧ t.cfg = { modid := s.cfg.modid } ∧ ∀ p, placeKind p = 1 → t.entry p = 1)

namespace Claims

/-- FULL entered, where EARLY and HBM, LPDDR and the links are trained (R385, R387). -/
def fullIfTrained (s : State) : State :=
  if s.care.svc = .early ∧ s.care.hbmOk = true ∧ s.care.lpOk = true ∧ s.care.linkOk = true then serviceState s .full else s

end Claims

/-- R208, R360, R383 to R385, R387, R400, R402, R404: the service states and the care of the module. With power the module is in RESET,
power good enters BOOT; firmware verified and BIST done enter EARLY; failures enter RECOVERY and FAILED, where CLOK counts the clusters
that passed; HBM enters service with every tile of it ZERO; HBM, LPDDR and the links all trained enter FULL, in whatever order they
come; a tier that fails keeps the module in EARLY with MEVENT bit 0; throttling sets MEVENT bit 2, a shutdown stops the clocks with
vector 1; a scrub corrects and counts, or poisons with a machine check of source 5; a counter that grew by more than 1,024 within an hour sets MEVENT bit 1; a power failure keeps flash, whose write under way is bad. R124, R205, R362: a
soft error in a flit on the wafer is corrected and counted, poisons the words of a payload flit, or loses the packet of a header with a
machine check of source 2; one in a directory entry poisons its whole tile with a machine check of source 4. That every core is the system job's from EARLY on
is log 30, what a loss of power keeps log 32. The events: powerGood, firmwareVerification,
bistCompletion, hbmTrainingComplete, trainingFailure, earlyToFull, thermalThrottle, thermalThrottleEnd, thermalShutdown, patrolScrub,
softErrorThreshold, powerFail. -/
def Obligations.CareEvents : Prop :=
  ∀ s : State,
    (s.care.powered = false → exec .powerGood s = .next { s with care := { s.care with powered := true } }) ∧
    (s.care.powered = true →
      (s.care.svc = .reset → exec .powerGood s = .next (Claims.serviceState s .boot)) ∧
      (s.care.svc ≠ .reset → exec .powerGood s = .next s)) ∧
    (s.care.svc = .boot → s.care.verified = false →
      (s.care.flashBad = false → Claims.bootable s.care.flash →
        (let v := { s with care := { s.care with verified := true } }
         exec .firmwareVerification s = .next (if s.care.bist then Claims.early v else v))) ∧
      (s.care.flashBad = true ∨ ¬ Claims.bootable s.care.flash →
        exec .firmwareVerification s = .next (Claims.serviceState s .recovery))) ∧
    (∀ clok, s.care.svc = .boot ∨ s.care.svc = .recovery → s.care.bist = false → clok.toNat ≤ 256 →
      (let v := { s with care := { s.care with bist := true, clok := clok } }
       exec (.bistCompletion clok true) s = .next (Claims.serviceState v .failed) ∧
       exec (.bistCompletion clok false) s = .next (if s.care.svc = .boot ∧ s.care.verified = true then Claims.early v else v))) ∧
    (s.care.svc = .early → s.care.hbmFail = false → s.care.hbmOk = false → ∃ t, exec .hbmTrainingComplete s = .next t ∧
      t.care = (Claims.fullIfTrained { s with care := { s.care with hbmOk := true } }).care ∧ { t with care := s.care, dir := s.dir, poison := s.poison } = s ∧
      (∀ p, (placeKind p = 4 → t.entry p = 1 ∧ t.poisoned p = false) ∧
        (placeKind p ≠ 4 → t.entry p = s.entry p ∧ t.poisoned p = s.poisoned p))) ∧
    (s.care.svc = .early →
      (s.care.hbmOk = false →
        exec (.trainingFailure .hbm) s = .next (Claims.meventSet { s with care := { s.care with hbmFail := true } } 0)) ∧
      (s.care.lpOk = false →
        exec (.trainingFailure .lpddr) s = .next (Claims.meventSet { s with care := { s.care with lpFail := true } } 0)) ∧
      (s.care.linkOk = false → ∃ t, exec .earlyToFull s = .next t ∧ { t with care := s.care, links := s.links } = s ∧
        (∀ i, i < 48 → SMap.find t.links i = some { up := true }) ∧
        t.care = (Claims.fullIfTrained { s with care := { s.care with linkOk := true, lpOk := !s.care.lpFail } }).care)) ∧
    exec .thermalThrottle s = .next (Claims.meventSet { s with care := { s.care with throttled := true } } 2) ∧
    exec .thermalThrottleEnd s = .next { s with care := { s.care with throttled := false } } ∧
    exec .thermalShutdown s = .next (Claims.raised { s with care := { s.care with stopped := true } } 1) ∧
    (∀ a, placeKind (a / 8 * 8) = 1 →
      (let cl : BitVec 8 := BitVec.ofNat 8 (a % 2 ^ 64 / 2 ^ 24)
       (∃ t, exec (.patrolScrub a true) s = .next t ∧ t.poisoned a = true ∧
         (∀ b, b / 8 ≠ a / 8 → t.poisoned b = s.poisoned b) ∧ { t with net := s.net, poison := s.poison } = s ∧
         ∃ f : Flight, t.net = s.net ++ [f] ∧ f.supPath = true ∧ f.p.hdr.lab = 6 ∧ f.p.hdr.cls = .high ∧
           f.p.words = [BitVec.ofNat 64 (5 + 2 ^ 8 * cl.toNat + 2 ^ 16 * 0xFF), BitVec.ofNat 64 (a / 8 * 8 % 2 ^ 64 % 2 ^ 24), 0, 0]) ∧
       ∃ t, exec (.patrolScrub a false) s = .next t ∧ { t with cfg := s.cfg } = s ∧
         { t.cfg with secnt := s.cfg.secnt, secLog := s.cfg.secLog } = s.cfg ∧
         (let x := SMap.get 0 s.cfg.secnt cl.toNat
          SMap.get 0 t.cfg.secnt cl.toNat = if (x.extractLsb' 16 16) = 0xFFFF#16 then x else x + 0x10000))) ∧
    (let hour := 36000 * 10000 * (if s.care.svc = .full then 25000 else 12500)
     let grew (e : Nat × List Nat) : Prop := 1024 < (e.2.filter fun t => decide (s.cycle.toNat < t + hour)).length
     ((∃ e ∈ s.cfg.secLog, grew e) → exec .softErrorThreshold s = .next (Claims.meventSet s 1)) ∧
     ((∀ e ∈ s.cfg.secLog, ¬ grew e) → exec .softErrorThreshold s = .next s)) ∧
    (∀ n f cl port, s.net[n]? = some f → f.loc = .router cl port →
      (∃ t, s.upset (.corrected n) = t ∧ { t with cfg := s.cfg } = s ∧
        (let x := SMap.get 0 s.cfg.secnt cl.toNat
         SMap.get 0 t.cfg.secnt cl.toNat = if x.extractLsb' 48 16 = 0xFFFF#16 then x else x + 0x1000000000000)) ∧
      (∀ k, 2 * k < f.p.words.length → s.upset (.payload n k) = { s with
        net := s.net.set n { f with p := { f.p with poison := f.p.poison ++ [2 * k, 2 * k + 1] } } }) ∧
      (∃ g : Flight, s.upset (.header n) = { Claims.without s n with net := (Claims.without s n).net ++ [g] } ∧ g.supPath = true ∧
        g.p.hdr.lab = 6 ∧ g.p.hdr.cls = .high ∧
        g.p.words = [BitVec.ofNat 64 (2 + 2 ^ 8 * cl.toNat), 0, Header.lo f.p.hdr, Header.hi f.p.hdr])) ∧
    (∀ p ok, placeKind p = 1 →
      ∃ t : State, ∃ g : Flight, s.upset (.entry p ok) = { t with net := s.net ++ [g] } ∧ (∀ q, q / 4096 = p / 4096 → t.poisoned q = true) ∧
        t.entry p = mkEnt 0 true true (if ok then entFmt (s.entry p) else .raw) 0 0 ∧
        (∀ q, q / 4096 ≠ p / 4096 → t.entry q = s.entry q ∧ t.poisoned q = s.poisoned q ∧ t.memByte q = s.memByte q) ∧
        g.p.hdr.lab = 6 ∧ g.p.words = [BitVec.ofNat 64 (4 + 2 ^ 8 * (p % 2 ^ 64 / 2 ^ 24 % 256) + 2 ^ 16 * 0xFF),
          BitVec.ofNat 64 (p / 4096 * 4096 % 2 ^ 64 % 2 ^ 24), 0, 0]) ∧
    (∃ t, exec .powerFail s = .next t ∧ t.care.svc = .reset ∧ t.care.powered = false ∧ t.care.flash = s.care.flash ∧
      t.care.flashBad = (s.care.flashBad || s.care.flashWriting) ∧ t.cores = [] ∧ t.idle = State.reset.idle ∧ t.clusters = [] ∧ t.net = [] ∧
      t.jobs = [] ∧ t.dir = [] ∧ t.poison = [] ∧ (∀ p, placeKind p ≠ 6 → t.memByte p = 0) ∧ (∀ p, placeKind p = 6 → t.memByte p = s.memByte p))

namespace Claims

/-- The answer to a control packet: class high, under the reply label, status and bytes (R363). -/
def answer (s : State) (f : Flight) (status : Nat) (bytes : Nat := 0) : Flight :=
  let a := f.p.hdr.src
  let own := decide (a.extractLsb' 15 12 = s.cfg.modid)
  { p := { hdr := { dcore := a.extractLsb' 0 7, dcl := a.extractLsb' 7 8, dmod := a.extractLsb' 15 12, cls := .high,
                    lab := (f.p.words.getD 0 0).extractLsb' 0 7, plen := 1, src := s.coreName (dstOf f.p.hdr) },
           words := [BitVec.ofNat 64 status, BitVec.ofNat 64 bytes] },
    loc := if own then .dest else .router f.p.hdr.dcl 0, since := s.cycle.toNat, supPath := own }

/-- A control packet of the system job to a module: operation and job, and a second word (R398). Its reply label is the model's free
value (log 28). -/
def order (s : State) (op : Label) (job : BitVec 8) (m : BitVec 12) (w : Word := 0) : Flight :=
  let own := decide (m = s.cfg.modid)
  { p := { hdr := { dmod := m, cls := .high, lab := op, plen := 1, kind := 11, src := s.coreName 0 },
           words := [BitVec.ofNat 64 (Config.replyLabel.toNat + 2 ^ 8 * job.toNat), w] },
    loc := if own then .dest else .router 0 0, since := s.cycle.toNat, supPath := own }

/-- The machine with packets more on their way. -/
def withPackets (s : State) (fs : List Flight) : State := { s with net := s.net ++ fs }
/-- The control packet n asks for an operation; the machine without it, answered. -/
def asks (s : State) (n : Nat) (f : Flight) (op : Label) : Prop := landed s n f 11 ∧ f.p.hdr.lab = op
def reply (s : State) (n : Nat) (f : Flight) (status : Nat) : State :=
  { without s n with net := (without s n).net ++ [answer s f status] }

/-- The job that a control packet names; what a coordinator knows of it, and a change of that. -/
def jobOf (f : Flight) : BitVec 8 := (f.p.words.getD 0 0).extractLsb' 8 8
def launchRecord (s : State) (f : Flight) : Launch := SMap.get {} s.launches (jobOf f).toNat
def withLaunch (s : State) (f : Flight) (l : Launch) : State := { s with launches := SMap.set (jobOf f).toNat l s.launches }
def sender (f : Flight) : BitVec 12 := f.p.hdr.src.extractLsb' 15 12

/-- A job of several modules has quiesced: two equal readings of each module, as many messages received as sent (R327). -/
def quiesced (nmod : Nat) (rs : List QRep) : Prop :=
  let a := rs.filter fun r => !r.reading
  let b := rs.filter fun r => r.reading
  a.length = nmod + 1 ∧ b.length = nmod + 1 ∧
    (∀ x ∈ a, ∃ y ∈ b, y.mod = x.mod ∧ y.sent = x.sent ∧ y.recv = x.recv) ∧
    (a.map fun r => r.sent.toNat).sum = (a.map fun r => r.recv.toNat).sum

/-- The newest reading of each kind of each module, with one more (R398). -/
def withReport (l : Launch) (r : QRep) : Launch :=
  { l with reps := (l.reps.filter fun x => !(decide (x.mod = r.mod) && (x.reading == r.reading || !r.reading))) ++ [r] }

/-- The partition words as a PAPPLY would leave them: LO, HI and V of each (Table 4.5). -/
def stagedWord (s : State) (p : Nat) : Word := (SMap.find s.cfg.staged p).getD (SMap.get 0 s.cfg.pctl p)
def holds (w : Word) (c : Nat) : Prop := w.getLsbD 8 = true ∧ (w.extractLsb' 0 4).toNat ≤ c ∧ c ≤ (w.extractLsb' 4 4).toNat
/-- No user job has a team in a column whose partition a PAPPLY would change (R399). -/
def bandsStay (s : State) : Prop :=
  ∀ k ∈ s.cores, k.2.member = true → k.2.job ≠ 0 →
    ∀ p, p < 16 → (holds (stagedWord s p) (k.1 / 128 % 16) ↔ holds (SMap.get 0 s.cfg.pctl p) (k.1 / 128 % 16))

end Claims

/-- R329, R363 to R365, R398, R399: the control operations and their answers. FREEZE, RELEASE in both modes, an operation not listed
(OP); READY, with OPEN to every module once all are ready; OPEN, RETIRE, TLH, QREPORT, with RETIRE to every module once they have
quiesced; ABORT at a module, which frees its prepared cores and sets MEVENT bit 5; CFGW of the registers of Table 15.7, bounded, whose
mirror shows the new value at once; and PAPPLY, which a team in a column that would change its partition keeps from acting. How a
coordinator takes late tellings, and the answer JOB, are the model's (log 34), as are OP for a CFGW elsewhere and dropped reserved bits
(log 33) and which event answers an operation not listed (log 64); that unequal tail handles are told by a second word of RETIRE, and
the reply labels of the loader's packets, are log 28.
The events: freeze, release, ready, open_, abort, qreport, retire, tlh, cfgw, papply. -/
def Obligations.ControlOps : Prop :=
  ∀ (s : State) (n : Nat) (f : Flight),
    let u := Claims.without s n
    let c := Claims.dstOf f.p.hdr
    let w0 := f.p.words.getD 0 0
    let w1 := f.p.words.getD 1 0
    let l := Claims.launchRecord s f
    let m := Claims.sender f
    let reply (st : Nat) : State := Claims.reply s n f st
    (Claims.asks s n f 0x10 → exec (.freeze n) s = .next (Claims.withPackets (u.modCore c fun k => { k with frozen := true })
      [Claims.answer s f 0])) ∧
    (Claims.landed s n f 11 → 0x14 < f.p.hdr.lab.toNat → exec (.freeze n) s = .next (reply 4)) ∧
    (Claims.asks s n f 0x11 →
      ((s.core c).frozen = false → exec (.release n) s = .next (reply 2)) ∧
      ((s.core c).frozen = true → (∀ k ∈ (s.cluster (clusterOf c)).eng, k.core = c → k.hold = false) →
        ∃ t, exec (.release n) s = .next t ∧ t.net = u.net ++ [Claims.answer s f 0] ∧ (∀ cl, t.cluster cl = s.cluster cl) ∧
          { t with cores := s.cores, clusters := s.clusters, net := s.net } = s ∧ (∀ d, d ≠ c → t.core d = s.core d) ∧
          { t.core c with frozen := true, threads := (s.core c).threads } = s.core c ∧ (t.core c).frozen = false ∧
          ∀ i, (w0.getLsbD 8 = false → (t.core c).thread i = { (s.core c).thread i with skip := some ((s.core c).thread i).pc }) ∧
            (w0.getLsbD 8 = true →
              (((s.core c).thread i).run = .free → (t.core c).thread i = (s.core c).thread i) ∧
              (((s.core c).thread i).run ≠ .free → let th := (t.core c).thread i
                th.run = .free ∧ th.inst = none ∧ th.buf = [] ∧ th.held = [] ∧ th.reads = [] ∧ th.out = [] ∧ th.block = none ∧
                  th.s = ((s.core c).thread i).s ∧ th.v = ((s.core c).thread i).v)))) ∧
    (Claims.asks s n f 0 → l.aborted = false →
      let k := match SMap.find s.jobs (Claims.jobOf f).toNat with
        | some j => j.nmod
        | none => l.nmod
      let l' := { l with readys := if m ∈ l.readys then l.readys else l.readys ++ [m], nmod := k }
      let t := Claims.withLaunch (reply 0) f l'
      (s.cfg.modid ∈ l'.readys → k < l'.readys.length → exec (.ready n) s =
        .next (Claims.withPackets t (l'.readys.map (Claims.order s 1 (Claims.jobOf f))))) ∧
      (s.cfg.modid ∉ l'.readys ∨ l'.readys.length ≤ k → exec (.ready n) s = .next t)) ∧
    (Claims.asks s n f 1 →
      (∀ j, SMap.find s.jobs (Claims.jobOf f).toNat = some j → exec (.open_ n) s =
        .next { reply 0 with jobs := SMap.set (Claims.jobOf f).toNat { j with opened := true } s.jobs }) ∧
      (SMap.find s.jobs (Claims.jobOf f).toNat = none → exec (.open_ n) s = .next (reply 1))) ∧
    (Claims.asks s n f 4 →
      (∀ j, SMap.find s.jobs (Claims.jobOf f).toNat = some j →
        (w1.getLsbD 0 = false → exec (.retire n) s =
          .next { reply 0 with jobs := SMap.set (Claims.jobOf f).toNat { j with retireOk := true } s.jobs }) ∧
        (w1.getLsbD 0 = true → exec (.retire n) s = .next (Claims.meventSet
          { reply 0 with jobs := SMap.set (Claims.jobOf f).toNat { j with retireOk := true, tail := none } s.jobs } 4))) ∧
      (SMap.find s.jobs (Claims.jobOf f).toNat = none → exec (.retire n) s = .next (reply 1))) ∧
    (Claims.asks s n f 2 → ∀ j, SMap.find s.jobs (Claims.jobOf f).toNat = some j → j.coord ≠ s.cfg.modid → j.gate = false →
      j.queue = none → ∃ t, exec (.abort n) s = .next t ∧ t.net = u.net.filter (fun x => decide (x.p.hdr.kind ≠ 10 ∨ x.p.hdr.job ≠ Claims.jobOf f)) ++ [Claims.answer s f 0] ∧
        SMap.find t.jobs (Claims.jobOf f).toNat = none ∧ t.care = (Claims.meventSet s 5).care ∧ t.mem = s.mem ∧
        (∀ d, if d ∈ j.cores then (t.core d).job = 0 ∧ (t.core d).member = true ∧ (t.core d).sup = true else t.core d = s.core d) ∧
        ∀ x, SMap.find t.launches x = if x = (Claims.jobOf f).toNat then none else SMap.find s.launches x) ∧
    (Claims.asks s n f 3 → ∀ j, SMap.find s.jobs (Claims.jobOf f).toNat = some j →
      let r : QRep := { mod := m, sent := w1, recv := f.p.words.getD 2 0, reading := (f.p.words.getD 3 0).getLsbD 0 }
      let l' := Claims.withReport l r
      let t := Claims.withLaunch (reply 0) f l'
      (Claims.quiesced j.nmod l'.reps → ∀ un : Word, (un = 0 ↔ ∀ x ∈ l.tlhs, ∀ y ∈ l.tlhs, x.2 = y.2) → un.toNat < 2 →
        exec (.qreport n) s = .next (Claims.withPackets t (((l'.reps.filter fun x => !x.reading).map (·.mod)).map fun d =>
          Claims.order s 4 (Claims.jobOf f) d un))) ∧
      (¬ Claims.quiesced j.nmod l'.reps → exec (.qreport n) s = .next t)) ∧
    (Claims.asks s n f 5 → exec (.tlh n) s =
      .next (Claims.withLaunch (reply 0) f { l with tlhs := (l.tlhs.filter fun x => decide (x.1 ≠ m)) ++ [(m, w1)] })) ∧
    (Claims.asks s n f 8 →
      let g := (w0.extractLsb' 16 16).toNat
      let v := w1.toNat
      let cfg (h : Cfg → Cfg) : Out := .next { reply 0 with cfg := h s.cfg }
      (c ≠ 0 ∨ m ≠ s.cfg.modid → exec (.cfgw n) s = .next (reply 4)) ∧
      (c = 0 → m = s.cfg.modid →
        (g = 1 → exec (.cfgw n) s = cfg fun x => { x with podext := w1.extractLsb' 0 12 }) ∧
        (g = 2 → 1 ≤ v → v ≤ 100 → exec (.cfgw n) s = cfg fun x => { x with timer := v }) ∧
        (g = 3 → 1 ≤ v → v ≤ 1000 → exec (.cfgw n) s = cfg fun x => { x with parklim := v }) ∧
        (g = 4 → 1 ≤ v → v ≤ 255 → exec (.cfgw n) s = cfg fun x => { x with retry := v }) ∧
        (0x10 ≤ g → g < 0x20 → exec (.cfgw n) s = cfg fun x => { x with staged := SMap.set (g - 0x10) (w1 &&& 0x3FF) x.staged }) ∧
        (0x10 ≤ g → g < 0x20 → ({ s with cfg := { s.cfg with staged := SMap.set (g - 0x10) (w1 &&& 0x3FF) s.cfg.staged } } : State).readBar0
          (0x800000 + 8 * g) = w1 &&& 0x3FF) ∧
        (0x1000 ≤ g → g < 0x1400 → exec (.cfgw n) s = cfg fun x => { x with mods := SMap.set (g - 0x1000) w1 x.mods }) ∧
        (∀ cl : BitVec 8, g = 0x2000 + cl.toNat → (∀ i, i < 4 → (s.cluster cl).aown.getLsbD (32 + i) = false) →
          exec (.cfgw n) s = .next ((reply 0).modCluster cl fun x => { x with aown := w1 &&& 0xFFFFFFFFF })) ∧
        (∀ cl : BitVec 8, g = 0x2100 + cl.toNat → 64 ≤ v → v ≤ 4096 → s.cycle.toNat / 1024 ≤ (s.cluster cl).govWin →
          exec (.cfgw n) s = .next ((reply 0).modCluster cl fun x => { x with gov := v })) ∧
        (g = 0 ∨ (g = 2 ∧ (v < 1 ∨ 100 < v)) ∨ (g = 3 ∧ (v < 1 ∨ 1000 < v)) ∨ (g = 4 ∧ (v < 1 ∨ 255 < v)) ∨
          (0x2100 ≤ g ∧ g < 0x2200 ∧ (v < 64 ∨ 4096 < v)) ∨ (0x2200 ≤ g ∧ g < 0x2318) ∨ (0x2400 ≤ g ∧ g < 0x2440) →
          exec (.cfgw n) s = .next (reply 2)) ∧
        ((4 < g ∧ g < 0x10) ∨ (0x20 < g ∧ g < 0x1000) ∨ 0x2440 ≤ g → exec (.cfgw n) s = .next (reply 4)) ∧
        (g = 0x20 →
          (w1 ≠ 1 → exec (.papply n) s = .next (reply 2)) ∧
          (∀ d, d < 16 → (¬ ∃ p, p < 16 ∧ Claims.holds (Claims.stagedWord s p) d) → exec (.papply n) s = .next (reply 2)) ∧
          (¬ Claims.bandsStay s → exec (.papply n) s = .next (reply 2)) ∧
          (w1 = 1 → Claims.bandsStay s →
            (∀ d, d < 16 → ∃ p, p < 16 ∧ Claims.holds (Claims.stagedWord s p) d ∧
              ∀ r, r < 16 → Claims.holds (Claims.stagedWord s r) d → r = p) →
            (∀ p, p < 16 → (Claims.stagedWord s p).getLsbD 8 = true →
              (Claims.stagedWord s p).extractLsb' 0 4 ≤ (Claims.stagedWord s p).extractLsb' 4 4) →
            ∃ t, exec (.papply n) s = .next t ∧ { t with cfg := s.cfg } = reply 0 ∧ t.cfg.staged = [] ∧
              { t.cfg with staged := s.cfg.staged, pctl := s.cfg.pctl } = s.cfg ∧
              ∀ p, SMap.get 0 t.cfg.pctl p = if p < 16 then Claims.stagedWord s p else SMap.get 0 s.cfg.pctl p))))

namespace Claims

/-- The cores of a job's team in a cluster (R308), each with its core. -/
def inTeam (s : State) (cl : BitVec 8) (job : BitVec 8) (c : CoreIx) : Prop :=
  clusterOf c = cl ∧ (s.core c).member = true ∧ (s.core c).job = job

/-- Grace in cycles: 0 selects 20 µs, above 100 µs is 100 µs (R367); 2,500 cycles a µs, half of it in early service (R386). -/
def graceCycles (s : State) (us : Nat) : Nat :=
  (if us = 0 then 20 else Nat.min us 100) * (if s.care.svc = .full then 2500 else 1250)

/-- The grace that a PREEMPT begins (R367). -/
def graceFor (s : State) (f : Flight) (a : SaveArea) : Grace :=
  let w := f.p.words.getD 0 0
  { job := jobOf f, area := a, until_ := s.cycle.toNat + graceCycles s (w.extractLsb' 16 7).toNat,
    src := f.p.hdr.src, lab := w.extractLsb' 0 7,
    en := (s.team f.p.hdr.dcl (jobOf f)).map fun c => (c.toNat, ((s.core c).trig.filter fun e => e.2.getLsbD 38).map (·.1)) }

/-- A core as its team's save keeps it: EN as step 1 recorded it, and a slot for every group of its job that it belongs to (R367,
R373); nothing else differs. -/
def recordedAs (s : State) (g : Grace) (c : CoreIx) (k : Core) : Prop :=
  let k0 := s.core c
  let noEn : Word := ~~~ (1#64 <<< 38)
  { k with trig := k0.trig, bars := k0.bars } = k0 ∧
    (∀ l, (SMap.get 0 k.trig l) &&& noEn = (SMap.get 0 k0.trig l) &&& noEn) ∧
    (∀ l e, SMap.find k0.trig l = some e → ((SMap.get 0 k.trig l).getLsbD 38 = true ↔ l ∈ SMap.get [] g.en c.toNat)) ∧
    (∀ b, SMap.get BarSt.idle k.bars b = SMap.get BarSt.idle k0.bars b) ∧
    ∀ b x, (b, x) ∈ s.groups → x.job = g.job → c ∈ x.members → SMap.find k.bars b = some (SMap.get BarSt.idle k0.bars b)

/-- Every thread of a core has nothing buffered, nothing committed on its way, and no blocking atomic. -/
def settledCore (k : Core) : Prop :=
  k.frozen = false ∧ k.reqs = [] ∧ ∀ i, (k.thread i).buf = [] ∧ (k.thread i).held = [] ∧ (k.thread i).block = none ∧ (k.thread i).wrs = []

end Claims

/-- R155, R367, R369, R373, R377: PREEMPT answers JOB without a team, AREA for an area off its alignment, or begins the grace and
records which labels are armed; at its end the team of a cluster stops, and once settled is saved, EN as recorded: its cores are free,
arrivals go to the saved team, and the answer gives the bytes of R371. RESTORE answers AREA for a wrong magic, STATE for a team that is
not saved, or brings the team back from whatever area holds it, held until RESUME, which answers JOB without a team and STATE when it is
not held; it waits while the engine's queue has no room for the team's commands. What the cluster keeps beside the area is log 36, the
STATE of a second PREEMPT log 35, that RESTORE checks the area before the state log 33, that a free core is the system job's log 30. The
saving is stated for a team without engine commands or arrays. The events: preempt, preemptGraceEnd, restore, resume. -/
def Obligations.Preemption : Prop :=
  ∀ (s : State) (n : Nat) (f : Flight) (cl : BitVec 8),
    let u := Claims.without s n
    let va := (f.p.words.getD 1 0).toNat
    let job := Claims.jobOf f
    let none_ : Prop := ∀ c, ¬ Claims.inTeam s cl job c
    (Claims.asks s n f 0x12 → f.p.hdr.dcl = cl →
      (none_ → exec (.preempt n) s = .next (Claims.reply s n f 1)) ∧
      (¬ none_ → (∃ g ∈ (s.cluster cl).grace, g.job = job) → exec (.preempt n) s = .next (Claims.reply s n f 2)) ∧
      (¬ none_ → (∀ g ∈ (s.cluster cl).grace, g.job ≠ job) →
        (va % 4096 ≠ 0 → exec (.preempt n) s = .next (Claims.reply s n f 3)) ∧
        (∀ a, s.areaAt cl va (0x1300000 + 4096 * s.teamTiles cl job) = some a → exec (.preempt n) s =
          .next (u.modCluster cl fun x => { x with grace := x.grace ++ [Claims.graceFor s f a] })))) ∧
    (∀ g, (s.cluster cl).grace = [g] →
      (s.cycle.toNat < g.until_ → exec (.preemptGraceEnd cl) s = .next s) ∧
      (g.until_ ≤ s.cycle.toNat → (∀ c, Claims.inTeam s cl g.job c → Claims.settledCore (s.core c)) →
        (g.stopping = false → ∃ t, exec (.preemptGraceEnd cl) s = .next t ∧
          { t with cores := s.cores, clusters := s.clusters } = s ∧
          (t.cluster cl).grace = [{ g with stopping := true }] ∧
          ∀ c, (Claims.inTeam s cl g.job c → t.core c = { s.core c with held := true }) ∧
            (¬ Claims.inTeam s cl g.job c → t.core c = s.core c)) ∧
        (g.stopping = true → (∀ k ∈ (s.cluster cl).eng, k.job ≠ g.job) →
          (∀ i, i < 4 → ¬ ((s.cluster cl).aown.getLsbD (32 + i) = true ∧ (s.cluster cl).aown.extractLsb' (8 * i) 8 = g.job)) →
          ∃ t v, exec (.preemptGraceEnd cl) s = .next t ∧ (t.cluster cl).saved = (s.cluster cl).saved ++ [v] ∧
            v.job = g.job ∧ v.area = g.area ∧ v.eng = [] ∧ v.arrays = [] ∧ (t.cluster cl).grace = [] ∧
            { t with cores := s.cores, clusters := s.clusters, mem := s.mem, dir := s.dir, poison := s.poison, net := s.net } = s ∧
            (∀ c, (Claims.inTeam s cl g.job c → (∃ k, SMap.find v.cores c.toNat = some k ∧ Claims.recordedAs s g c k) ∧
                (t.core c).job = 0 ∧ (t.core c).member = true ∧ (t.core c).sup = true ∧ (∀ i, (t.core c).thread i = {}) ∧ ∀ cls, (t.core c).queue cls = []) ∧
              (¬ Claims.inTeam s cl g.job c → t.core c = s.core c)) ∧
            ∃ h : Flight, t.net = s.net ++ [h] ∧ h.p.hdr.dcore = g.src.extractLsb' 0 7 ∧ h.p.hdr.dcl = g.src.extractLsb' 7 8 ∧
              h.p.hdr.dmod = g.src.extractLsb' 15 12 ∧ h.p.hdr.lab = g.lab ∧ h.p.hdr.cls = .high ∧
              h.p.words = [0, BitVec.ofNat 64 (0x1300000 + 4096 * s.teamTiles cl g.job)]))) ∧
    (Claims.asks s n f 0x13 → f.p.hdr.dcl = cl → ∀ v, s.savedOf cl job = some v → 64 < (s.cluster cl).eng.length + v.eng.length →
      exec (.restore n) s = .next s) ∧
    (Claims.asks s n f 0x13 → f.p.hdr.dcl = cl → ∀ tiles a,
      ((∀ v ∈ (s.cluster cl).saved, v.job ≠ job) ∧ tiles = 0) ∨
        (∃ v c k rest, s.savedOf cl job = some v ∧ v.cores = (c, k) :: rest ∧ k.winTiles = tiles ∧
          (s.cluster cl).eng.length + v.eng.length ≤ 64) →
      (va % 4096 ≠ 0 → exec (.restore n) s = .next (Claims.reply s n f 3)) ∧
      (s.areaAt cl va (0x1300000 + 4096 * tiles) = some a →
        let head := s.word (a.place 0)
        (head.extractLsb' 0 32 ≠ 0x45564153#32 ∨ head.extractLsb' 32 16 ≠ 1#16 →
          exec (.restore n) s = .next (Claims.reply s n f 3)) ∧
        (head.extractLsb' 0 32 = 0x45564153#32 → head.extractLsb' 32 16 = 1#16 →
          ((∀ v ∈ (s.cluster cl).saved, v.job ≠ job) ∨ ¬ none_ ∨ head.extractLsb' 48 8 ≠ job ∨ head.extractLsb' 56 8 ≠ cl →
            exec (.restore n) s = .next (Claims.reply s n f 2)) ∧
          (∀ v, s.savedOf cl job = some v → s.mayRestore cl job v a = true → v.cores.Pairwise (fun x y => x.1 < y.1) →
            (∀ e ∈ v.cores, e.1 < 2 ^ 15) → ∃ t, exec (.restore n) s = .next t ∧ t.net = u.net ++ [Claims.answer s f 0] ∧
              (∀ w ∈ (t.cluster cl).saved, w.job ≠ job) ∧
              (∀ e ∈ v.cores, (t.core (BitVec.ofNat 15 e.1)).job = e.2.job ∧ (t.core (BitVec.ofNat 15 e.1)).member = e.2.member ∧
                (t.core (BitVec.ofNat 15 e.1)).held = true) ∧
              ∀ c, (∀ e ∈ v.cores, e.1 ≠ c.toNat) → t.core c = s.core c)))) ∧
    (Claims.asks s n f 0x14 → f.p.hdr.dcl = cl →
      (none_ → exec (.resume n) s = .next (Claims.reply s n f 1)) ∧
      (∀ c, Claims.inTeam s cl job c → (s.core c).held = false → exec (.resume n) s = .next (Claims.reply s n f 2)) ∧
      (∀ j, ¬ none_ → SMap.find s.jobs job.toNat = some j → j.gate = true →
        (∀ c, Claims.inTeam s cl job c → (s.core c).held = true ∧ ∀ i, ((s.core c).thread i).block = none) →
        (∀ g ∈ (s.cluster cl).grace, g.job ≠ job) → ∃ t, exec (.resume n) s = .next t ∧ t.net = u.net ++ [Claims.answer s f 0] ∧
          { t with cores := s.cores, net := s.net } = s ∧
          ∀ c, (Claims.inTeam s cl job c → t.core c = { s.core c with held := false }) ∧
            (¬ Claims.inTeam s cl job c → t.core c = s.core c)))

namespace Claims

/-- The move that comes next, and the moves after it: the agenda's, or the model's free one (log 3). -/
def nextIs (s : State) (m : Move) (ms : List Move) : Prop :=
  s.agenda = m :: ms ∨ (s.agenda = [] ∧ ms = [] ∧ Config.nextMove s.tick = m)

/-- The clock at a move: it has gone on by the model's free cycles (log 4), to a cycle no earlier than `floor`, but not past one in which
a dealer has something to do (`State.nextDue`: R320). -/
def clock (s : State) (floor : Nat) : BitVec 64 :=
  let c := Nat.max (s.cycle.toNat + Config.elapsed s.tick) floor
  BitVec.ofNat 64 (match s.nextDue with
    | some d => Nat.min c d
    | none => c)

/-- The machine before an issue of a thread: its core issues once in a cycle (R229, R230), and the thread is the one that executes. -/
def atIssue (s : State) (ms : List Move) (c : CoreIx) (t : ThrIx) : State :=
  { s with agenda := ms, tick := s.tick + 1, cur := { core := c, thr := t }, cycle := clock s (s.core c).lastIssue }

/-- The machine before any other move. -/
def atMove (s : State) (ms : List Move) : State := { s with agenda := ms, tick := s.tick + 1, cycle := clock s 0 }

/-- The machine as an instruction finds it: the core has issued in this cycle, from this thread (R322). -/
def atExec (w : State) : State :=
  w.modCore w.cur.core fun k => { k with lastIssue := w.cycle.toNat + 1, rot := if w.cur.thr = 7 then k.rot else w.cur.thr }

/-- A thread that issues when its turn comes. -/
def ready (k : Core) (now : Nat) (u : ThrIx) : Prop :=
  (k.thread u).run = .ready ∧ (k.thread u).opens ≤ now ∧ (k.thread u).block = none

/-- A thread issues in the cycle of w: it is READY, or STALLED and tries again (R213); no other of its core has, no start and no
delivery to a `recv` is due before (R319 to R321); thread 7 comes first, then the rotation (R322); its core is neither frozen nor held
(R365), its watchdog not due (R366). -/
def mayIssue (w : State) (c : CoreIx) (t : ThrIx) : Prop :=
  let k := w.core c
  let th := k.thread t
  let now := w.cycle.toNat
  let turn (u : ThrIx) : Nat := (u.toNat + 6 - k.rot.toNat) % 7
  k.frozen = false ∧ k.held = false ∧ (th.run = .ready ∨ th.run = .stalled) ∧ th.opens ≤ now ∧ k.lastIssue ≤ now ∧
    (t = 7 ∨ (¬ ready k now 7 ∧ ∀ u : ThrIx, u ≠ 7 → ready k now u → turn t ≤ turn u)) ∧
    (dealing w c → k.lastStart ≤ now → ∀ cls m, ¬ mayStart w k (k.queue cls) m) ∧
    (∀ u lab since, (k.thread u).run = .recv lab since → ∀ cls, ∀ m ∈ k.queue cls, m.hdr.lab = lab → now < m.placed) ∧
    ((∀ l, th.inst ≠ some (l, .trump)) ∨ th.wdog < 4096)

/-- The 32-bit word at a TCM offset, little-endian (R11, R43), as the fetch sees it: what an engine completion brought below XB is seen
from its dequeue on (R158). -/
def codeAt (s : State) (c : CoreIx) (o : Nat) : Nat := leVal ((List.range 4).map fun i => match SMap.find (s.core c).veil (o + i) with
  | some (x :: _) => x.2
  | _ => s.memByte (tcmPlace c (o + i)))
/-- Its major opcode says that the instruction is a long form (R44). -/
def isLong (w : Nat) : Prop := w / 2 ^ 26 % 64 = 63

end Claims

/-- R43 to R45, R59, R71, R146, R322, R356: a step of a thread that may issue. A blocking atomic that failed traps first. Fetch at or
above XB takes the overlay trap, with the address of the word; words that decode to nothing, and a long form at LEND of an active loop,
the illegal-instruction trap; a decoded instruction that is illegal now or that nothing holds is executed: the step is `exec` of it; one
whose read has not come stalls. An event of the agenda is `exec` of it. The order of the moves and the clock are free (logs 3 and 4), and
so are which words of an access are put off (log 50) and when a soft error strikes. -/
def Obligations.StepRunsDecoded : Prop :=
  ∀ (s : State) (ms : List Move),
    (∀ c t, Claims.nextIs s (.issue c t) ms → s.care.stopped = false →
      let w := Claims.atIssue s ms c t
      let pc := w.th.pc
      let xb := 64 * (s.core c).xb.toNat
      let w0 := Claims.codeAt s c pc.toNat
      let w1 := Claims.codeAt s c (pc.toNat + 4)
      let bits : Nat := w0 + if w0 / 2 ^ 26 % 64 = 63 then 2 ^ 32 * w1 else 0
      Claims.mayIssue w c t →
      (∀ b st, w.th.block = some b → b.err = some st →
        step s = .next ((w.setTh { w.th with pend := none, block := none }).trapped 6 b.gva pc (2 ^ 8 * st.toNat))) ∧
      (w.th.block = none → w.th.pend = none →
        (xb ≤ pc.toNat → step s = .next (w.trapped 4 pc pc)) ∧
        (pc.toNat < xb → Claims.isLong w0 → xb ≤ pc.toNat + 4 → step s = .next (w.trapped 4 (pc + 4) pc)) ∧
        (pc.toNat < xb → (Claims.isLong w0 → pc.toNat + 4 < xb) → (∀ p ∈ (s.core c).pcc.toList, p.getLsbD 0 = false) →
          (∀ i, decodeWords w0 w1 = .ok i → ¬ (Claims.isLong w0 ∧ w.th.lact = true ∧ w.th.pc = w.th.lend) →
            (w.illegalNow i = true ∨ w.holdOf i = .go → step s = exec i (Claims.atExec w)) ∧
            (w.th.reads = [] → w.th.msg = none → w.holdOf i = .go) ∧
            (∀ d r, w.th.reads = [r] → i = .add d d d → d ≠ 0 → r.dest = .s d → r.failed = none → r.met = false →
              step s = .next (w.setTh { w.th with run := .stalled }))) ∧
          ((∀ i, decodeWords w0 w1 ≠ .ok i) ∨ (Claims.isLong w0 ∧ w.th.lact = true ∧ w.th.pc = w.th.lend) →
            step s = .next ((Claims.atExec w).trapped 1 (BitVec.ofNat 64 bits) pc))))) ∧
    (∀ i, Claims.nextIs s (.event i) ms → Instr.isEvent i = true → s.care.stopped = false → step s = exec i (Claims.atMove s ms)) ∧
    (∀ ws, Claims.nextIs s (.defer ws) ms → s.care.stopped = false → step s = .next { Claims.atMove s ms with later := ws }) ∧
    (∀ u, Claims.nextIs s (.upset u) ms → s.care.stopped = false → step s = .next ((Claims.atMove s ms).upset u))

/-- Words that the spec writes out (R143, R144, R146, R149, R152, R211, R236 to R257, R301 to R307, R330, R332, R336), and the
instructions that it says they are. -/
def Obligations.DecodeSpecWords : Prop :=
  (∀ p ∈ [((0x00C43801 : Nat), Instr.add 6 4 7), (0x00E74819, .adds 7 7 9), (0x00853428, .fadd .f32 .dyn 4 5 6),
      (0x25203F80, .lui 9 0x3F80), (0x20850003, .slli 4 5 3), (0x048534B0, .bool3 4 5 6 0x96), (0x08853480, .fshlImm 4 5 6 8),
      (0x0C8520B0, .ext 4 5 8 11), (0x28919200, .cmp 1 .lt 6 9), (0x314B0100, .sel 10 1 11 0), (0x34853300, .lea 4 5 6 3),
      (0x8800000A, .jal 10), (0x8FE90000, .jalr 31 9 0), (0x96500008, .loopImm 5 8), (0x44E56000, .stn .d 7 5 0),
      (0x58853803, .stnb 4 5 3 true 3), (0xAC200004, .csrr 4 .fflags), (0x48876000, .ldf .d false 4 7 0),
      (0x68873080, .vldf 2 7 3 128), (0x50A83078, .amoFetch .add true 5 8 6), (0xA227186A, .get .normal 7 12 3 10),
      (0x9CA00004, .fence .pod), (0xA0252800, .send .normal 5 20 0), (0xA1650E02, .sendv .trump 5 7 0 2), (0xA3001A00, .recv 13),
      (0xA806_0000, .bar 3)], decodeTableWord 32 p.1 = some p.2) ∧
  (∀ p ∈ [((0x0000000CFD20280C : Nat), Instr.tzero 5 6 12), (0x0000020DFD4029CC, .tfill .bf16 5 7 6 13),
      (0x00011094FC20214C, .mop 1 false .bf16 .bf16 4 5 6 20), (0x0009DF15FC47214C, .mopsS24 2 true .e4m3 .e4m3 7 4 5 6 21),
      (0x03F61216FCA04000, .mdrain 0 true .bf16 .rne true 0xFD 8 22), (0x00000080FCC05000, .mseed 1 10)],
    decodeTableWord 64 p.1 = some p.2)

/-- Chapter 2: every well-formed instruction that has words decodes from them to itself, with every operand at every value that the
encoding admits; the first word alone says how long it is. -/
def Obligations.DecodeEncode : Prop :=
  ∀ i x, i.wf = true → encode i = some x →
    decodeWords (x % 2 ^ 32) (x / 2 ^ 32) = .ok i ∧
    (Claims.isLong (x % 2 ^ 32) → x < 2 ^ 64 ∧ decodeTableWord 64 x = some i) ∧
    (¬ Claims.isLong (x % 2 ^ 32) → x < 2 ^ 32 ∧ decodeTableWord 32 x = some i)

/-- R188, R222, R338: every step keeps the memories in their canonical form, addresses rising, no zero byte listed, so that equal
memories are equal data. -/
def Obligations.StepKeepsMemory : Prop := ∀ s t : State, s.inv → step s = .next t → t.inv

/-- R91, R130, R194, R225 to R229, R311, R383, R384, R388, R393, R399 and the reset columns of their tables: what reset leaves, and
that its memory is canonical. -/
def Obligations.ResetState : Prop :=
  let r := State.reset
  r.inv ∧ r.care.svc = .reset ∧ r.cycle = 0 ∧ r.care.powercap = 24000 ∧ r.cfg.timer = 5 ∧ r.cfg.parklim = 10 ∧ r.cfg.retry = 16 ∧
  r.cfg.podext = 0 ∧ (∀ p, SMap.get 0 r.cfg.pctl p = if p = 0 then 0x1F0 else 0) ∧ (∀ n, SMap.get 0 r.cfg.mods n = 0) ∧
  (∀ n, SMap.get (0, 0) r.ranges n = (0, 0)) ∧ (∀ n, SMap.get 0 r.images n = 0) ∧ (∀ n, SMap.get 0 r.slots n = 0) ∧
  (∀ q, (Claims.queueOf r q).state = .unbound ∧ (Claims.queueOf r q).acc = 0 ∧ (Claims.queueOf r q).out = 0) ∧
  (∀ cl, (r.cluster cl).aown = 0 ∧ (r.cluster cl).gov = 4096) ∧ (∀ p, placeKind p = 1 → r.entry p = 1) ∧
  ∀ c, let k := r.core c
    k.sup = false ∧ k.xb = 0 ∧ k.tvEn = false ∧ k.tvEntry = 0 ∧ k.cf = 0 ∧ k.job = 0 ∧ (∀ i, i < 4 → k.pcc[i]? = some 0) ∧
    (∀ l, SMap.get 0 k.trig l = 0) ∧
    ∀ t, let th := k.thread t
      th.fflags = 0 ∧ th.frm = 0 ∧ th.split = false ∧ th.trap = false ∧ th.ine = false ∧ th.oov = false ∧ th.lact = false ∧
        th.tcause = 0 ∧ th.taddr = 0 ∧ th.tepc = 0

namespace Claims
end Claims
end

