-- ==== Sys2Proof/Laws/Arms.lean ====
section
/-! SUPPORT. The dispatch, one line for each instruction: what `exec` answers is what the instruction's own meaning
answers. -/

namespace Sys2Proof.Machine

theorem exec_add (d a b : SReg) (s : State) : exec (.add d a b) s = Sys2Proof.Machine.execAdd d a b s := rfl
theorem exec_sub (d a b : SReg) (s : State) : exec (.sub d a b) s = Sys2Proof.Machine.execSub d a b s := rfl
theorem exec_mul (d a b : SReg) (s : State) : exec (.mul d a b) s = Sys2Proof.Machine.execMul d a b s := rfl
theorem exec_mulh (d a b : SReg) (s : State) : exec (.mulh d a b) s = Sys2Proof.Machine.execMulh d a b s := rfl
theorem exec_mulhu (d a b : SReg) (s : State) : exec (.mulhu d a b) s = Sys2Proof.Machine.execMulhu d a b s := rfl
theorem exec_mulhsu (d a b : SReg) (s : State) : exec (.mulhsu d a b) s = Sys2Proof.Machine.execMulhsu d a b s := rfl
theorem exec_div (d a b : SReg) (s : State) : exec (.div d a b) s = Sys2Proof.Machine.execDiv d a b s := rfl
theorem exec_divu (d a b : SReg) (s : State) : exec (.divu d a b) s = Sys2Proof.Machine.execDivu d a b s := rfl
theorem exec_rem (d a b : SReg) (s : State) : exec (.rem d a b) s = Sys2Proof.Machine.execRem d a b s := rfl
theorem exec_remu (d a b : SReg) (s : State) : exec (.remu d a b) s = Sys2Proof.Machine.execRemu d a b s := rfl
theorem exec_and (d a b : SReg) (s : State) : exec (.and d a b) s = Sys2Proof.Machine.execAnd d a b s := rfl
theorem exec_or (d a b : SReg) (s : State) : exec (.or d a b) s = Sys2Proof.Machine.execOr d a b s := rfl
theorem exec_xor (d a b : SReg) (s : State) : exec (.xor d a b) s = Sys2Proof.Machine.execXor d a b s := rfl
theorem exec_andn (d a b : SReg) (s : State) : exec (.andn d a b) s = Sys2Proof.Machine.execAndn d a b s := rfl
theorem exec_orn (d a b : SReg) (s : State) : exec (.orn d a b) s = Sys2Proof.Machine.execOrn d a b s := rfl
theorem exec_sll (d a b : SReg) (s : State) : exec (.sll d a b) s = Sys2Proof.Machine.execSll d a b s := rfl
theorem exec_srl (d a b : SReg) (s : State) : exec (.srl d a b) s = Sys2Proof.Machine.execSrl d a b s := rfl
theorem exec_sra (d a b : SReg) (s : State) : exec (.sra d a b) s = Sys2Proof.Machine.execSra d a b s := rfl
theorem exec_rol (d a b : SReg) (s : State) : exec (.rol d a b) s = Sys2Proof.Machine.execRol d a b s := rfl
theorem exec_ror (d a b : SReg) (s : State) : exec (.ror d a b) s = Sys2Proof.Machine.execRor d a b s := rfl
theorem exec_min (d a b : SReg) (s : State) : exec (.min d a b) s = Sys2Proof.Machine.execMin d a b s := rfl
theorem exec_minu (d a b : SReg) (s : State) : exec (.minu d a b) s = Sys2Proof.Machine.execMinu d a b s := rfl
theorem exec_max (d a b : SReg) (s : State) : exec (.max d a b) s = Sys2Proof.Machine.execMax d a b s := rfl
theorem exec_maxu (d a b : SReg) (s : State) : exec (.maxu d a b) s = Sys2Proof.Machine.execMaxu d a b s := rfl
theorem exec_adds (d a b : SReg) (s : State) : exec (.adds d a b) s = Sys2Proof.Machine.execAdds d a b s := rfl
theorem exec_subs (d a b : SReg) (s : State) : exec (.subs d a b) s = Sys2Proof.Machine.execSubs d a b s := rfl
theorem exec_addsu (d a b : SReg) (s : State) : exec (.addsu d a b) s = Sys2Proof.Machine.execAddsu d a b s := rfl
theorem exec_subsu (d a b : SReg) (s : State) : exec (.subsu d a b) s = Sys2Proof.Machine.execSubsu d a b s := rfl
theorem exec_clz (d a : SReg) (s : State) : exec (.clz d a) s = Sys2Proof.Machine.execClz d a s := rfl
theorem exec_ctz (d a : SReg) (s : State) : exec (.ctz d a) s = Sys2Proof.Machine.execCtz d a s := rfl
theorem exec_popc (d a : SReg) (s : State) : exec (.popc d a) s = Sys2Proof.Machine.execPopc d a s := rfl
theorem exec_bswap (d a : SReg) (s : State) : exec (.bswap d a) s = Sys2Proof.Machine.execBswap d a s := rfl
theorem exec_fadd (f : FFmt) (rm : Rm) (d a b : SReg) (s : State) : exec (.fadd f rm d a b) s = Sys2Proof.Machine.execFadd f rm d a b s := rfl
theorem exec_fsub (f : FFmt) (rm : Rm) (d a b : SReg) (s : State) : exec (.fsub f rm d a b) s = Sys2Proof.Machine.execFsub f rm d a b s := rfl
theorem exec_fmul (f : FFmt) (rm : Rm) (d a b : SReg) (s : State) : exec (.fmul f rm d a b) s = Sys2Proof.Machine.execFmul f rm d a b s := rfl
theorem exec_fmin (f : FFmt) (d a b : SReg) (s : State) : exec (.fmin f d a b) s = Sys2Proof.Machine.execFmin f d a b s := rfl
theorem exec_fmax (f : FFmt) (d a b : SReg) (s : State) : exec (.fmax f d a b) s = Sys2Proof.Machine.execFmax f d a b s := rfl
theorem exec_fminn (f : FFmt) (d a b : SReg) (s : State) : exec (.fminn f d a b) s = Sys2Proof.Machine.execFminn f d a b s := rfl
theorem exec_fmaxn (f : FFmt) (d a b : SReg) (s : State) : exec (.fmaxn f d a b) s = Sys2Proof.Machine.execFmaxn f d a b s := rfl
theorem exec_bool3 (d a b : SReg) (tab : BitVec 8) (s : State) : exec (.bool3 d a b tab) s = Sys2Proof.Machine.execBool3 d a b tab s := rfl
theorem exec_fshlImm (d a b : SReg) (sh : BitVec 6) (s : State) : exec (.fshlImm d a b sh) s = Sys2Proof.Machine.execFshlImm d a b sh s := rfl
theorem exec_fshrImm (d a b : SReg) (sh : BitVec 6) (s : State) : exec (.fshrImm d a b sh) s = Sys2Proof.Machine.execFshrImm d a b sh s := rfl
theorem exec_fshlReg (d a b c : SReg) (s : State) : exec (.fshlReg d a b c) s = Sys2Proof.Machine.execFshlReg d a b c s := rfl
theorem exec_fshrReg (d a b c : SReg) (s : State) : exec (.fshrReg d a b c) s = Sys2Proof.Machine.execFshrReg d a b c s := rfl
theorem exec_ext (d a : SReg) (pos len1 : BitVec 6) (s : State) : exec (.ext d a pos len1) s = Sys2Proof.Machine.execExt d a pos len1 s := rfl
theorem exec_extn (d a : SReg) (pos len1 : BitVec 6) (s : State) : exec (.extn d a pos len1) s = Sys2Proof.Machine.execExtn d a pos len1 s := rfl
theorem exec_ins (d a : SReg) (pos len1 : BitVec 6) (s : State) : exec (.ins d a pos len1) s = Sys2Proof.Machine.execIns d a pos len1 s := rfl
theorem exec_addi (d a : SReg) (imm : BitVec 16) (s : State) : exec (.addi d a imm) s = Sys2Proof.Machine.execAddi d a imm s := rfl
theorem exec_andi (d a : SReg) (imm : BitVec 16) (s : State) : exec (.andi d a imm) s = Sys2Proof.Machine.execAndi d a imm s := rfl
theorem exec_ori (d a : SReg) (imm : BitVec 16) (s : State) : exec (.ori d a imm) s = Sys2Proof.Machine.execOri d a imm s := rfl
theorem exec_xori (d a : SReg) (imm : BitVec 16) (s : State) : exec (.xori d a imm) s = Sys2Proof.Machine.execXori d a imm s := rfl
theorem exec_slli (d a : SReg) (sh : BitVec 6) (s : State) : exec (.slli d a sh) s = Sys2Proof.Machine.execSlli d a sh s := rfl
theorem exec_srli (d a : SReg) (sh : BitVec 6) (s : State) : exec (.srli d a sh) s = Sys2Proof.Machine.execSrli d a sh s := rfl
theorem exec_srai (d a : SReg) (sh : BitVec 6) (s : State) : exec (.srai d a sh) s = Sys2Proof.Machine.execSrai d a sh s := rfl
theorem exec_rori (d a : SReg) (sh : BitVec 6) (s : State) : exec (.rori d a sh) s = Sys2Proof.Machine.execRori d a sh s := rfl
theorem exec_lui (d : SReg) (imm : BitVec 21) (s : State) : exec (.lui d imm) s = Sys2Proof.Machine.execLui d imm s := rfl
theorem exec_li (d : SReg) (imm : BitVec 48) (s : State) : exec (.li d imm) s = Sys2Proof.Machine.execLi d imm s := rfl
theorem exec_cmp (qd : QReg) (cond : Cond) (a b : SReg) (s : State) : exec (.cmp qd cond a b) s = Sys2Proof.Machine.execCmp qd cond a b s := rfl
theorem exec_cmpi (qd : QReg) (cond : Cond) (a : SReg) (imm : BitVec 14) (s : State) : exec (.cmpi qd cond a imm) s = Sys2Proof.Machine.execCmpi qd cond a imm s := rfl
theorem exec_sel (d : SReg) (q : QReg) (a b : SReg) (s : State) : exec (.sel d q a b) s = Sys2Proof.Machine.execSel d q a b s := rfl
theorem exec_lea (d a b : SReg) (sh : BitVec 3) (s : State) : exec (.lea d a b sh) s = Sys2Proof.Machine.execLea d a b sh s := rfl
theorem exec_ldn (sz : MSize) (x : Bool) (d a : SReg) (off : BitVec 12) (s : State) : exec (.ldn sz x d a off) s = Sys2Proof.Machine.execLdn sz x d a off s := rfl
theorem exec_stn (sz : MSize) (d a : SReg) (off : BitVec 12) (s : State) : exec (.stn sz d a off) s = Sys2Proof.Machine.execStn sz d a off s := rfl
theorem exec_ldf (sz : MSize) (x : Bool) (d a : SReg) (off : BitVec 12) (s : State) : exec (.ldf sz x d a off) s = Sys2Proof.Machine.execLdf sz x d a off s := rfl
theorem exec_stf (sz : MSize) (d a : SReg) (off : BitVec 12) (s : State) : exec (.stf sz d a off) s = Sys2Proof.Machine.execStf sz d a off s := rfl
theorem exec_amoFetch (op : AmoOp) (dbl : Bool) (d a b : SReg) (s : State) : exec (.amoFetch op dbl d a b) s = Sys2Proof.Machine.execAmoFetch op dbl d a b s := rfl
theorem exec_amoPost (op : AmoOp) (dbl : Bool) (a b : SReg) (s : State) : exec (.amoPost op dbl a b) s = Sys2Proof.Machine.execAmoPost op dbl a b s := rfl
theorem exec_cas (dbl : Bool) (d a b : SReg) (s : State) : exec (.cas dbl d a b) s = Sys2Proof.Machine.execCas dbl d a b s := rfl
theorem exec_stnb (d a : SReg) (n1 : BitVec 4) (h : Bool) (off : BitVec 11) (s : State) : exec (.stnb d a n1 h off) s = Sys2Proof.Machine.execStnb d a n1 h off s := rfl
theorem exec_vldn (vd : VReg) (a : SReg) (qp : QReg) (off : BitVec 12) (s : State) : exec (.vldn vd a qp off) s = Sys2Proof.Machine.execVldn vd a qp off s := rfl
theorem exec_vstn (vd : VReg) (a : SReg) (qp : QReg) (off : BitVec 12) (s : State) : exec (.vstn vd a qp off) s = Sys2Proof.Machine.execVstn vd a qp off s := rfl
theorem exec_vgthn (vd : VReg) (a : SReg) (qp : QReg) (vi : VReg) (sc : BitVec 2) (s : State) : exec (.vgthn vd a qp vi sc) s = Sys2Proof.Machine.execVgthn vd a qp vi sc s := rfl
theorem exec_vsctn (vd : VReg) (a : SReg) (qp : QReg) (vi : VReg) (sc : BitVec 2) (s : State) : exec (.vsctn vd a qp vi sc) s = Sys2Proof.Machine.execVsctn vd a qp vi sc s := rfl
theorem exec_vldf (vd : VReg) (a : SReg) (qp : QReg) (off : BitVec 12) (s : State) : exec (.vldf vd a qp off) s = Sys2Proof.Machine.execVldf vd a qp off s := rfl
theorem exec_vstf (vd : VReg) (a : SReg) (qp : QReg) (off : BitVec 12) (s : State) : exec (.vstf vd a qp off) s = Sys2Proof.Machine.execVstf vd a qp off s := rfl
theorem exec_br (q : QReg) (qn : Quant) (off : BitVec 21) (s : State) : exec (.br q qn off) s = Sys2Proof.Machine.execBr q qn off s := rfl
theorem exec_j (off : BitVec 26) (s : State) : exec (.j off) s = Sys2Proof.Machine.execJ off s := rfl
theorem exec_jal (off : BitVec 26) (s : State) : exec (.jal off) s = Sys2Proof.Machine.execJal off s := rfl
theorem exec_jalr (d a : SReg) (imm : BitVec 16) (s : State) : exec (.jalr d a imm) s = Sys2Proof.Machine.execJalr d a imm s := rfl
theorem exec_btag (off : BitVec 21) (s : State) : exec (.btag off) s = Sys2Proof.Machine.execBtag off s := rfl
theorem exec_loopReg (n : BitVec 5) (a : SReg) (s : State) : exec (.loopReg n a) s = Sys2Proof.Machine.execLoopReg n a s := rfl
theorem exec_loopImm (n : BitVec 5) (cnt : BitVec 20) (s : State) : exec (.loopImm n cnt) s = Sys2Proof.Machine.execLoopImm n cnt s := rfl
theorem exec_ret (s : State) : exec .ret s = Sys2Proof.Machine.execRet s := rfl
theorem exec_nop (s : State) : exec .nop s = Sys2Proof.Machine.execNop s := rfl
theorem exec_trap (imm : BitVec 16) (s : State) : exec (.trap imm) s = Sys2Proof.Machine.execTrap imm s := rfl
theorem exec_eret (s : State) : exec .eret s = Sys2Proof.Machine.execEret s := rfl
theorem exec_yield (s : State) : exec .yield s = Sys2Proof.Machine.execYield s := rfl
theorem exec_commit (s : State) : exec .commit s = Sys2Proof.Machine.execCommit s := rfl
theorem exec_fence (scope : Scope) (s : State) : exec (.fence scope) s = Sys2Proof.Machine.execFence scope s := rfl
theorem exec_brk (imm : BitVec 16) (s : State) : exec (.brk imm) s = Sys2Proof.Machine.execBrk imm s := rfl
theorem exec_wait (a : SReg) (s : State) : exec (.wait a) s = Sys2Proof.Machine.execWait a s := rfl
theorem exec_send (cls : Cls) (a : SReg) (lab : Label) (tag : BitVec 4) (s : State) : exec (.send cls a lab tag) s = Sys2Proof.Machine.execSend cls a lab tag s := rfl
theorem exec_sendR (cls : Cls) (a : SReg) (lab : Label) (tag : BitVec 4) (s : State) : exec (.sendR cls a lab tag) s = Sys2Proof.Machine.execSendR cls a lab tag s := rfl
theorem exec_sendv (cls : Cls) (a : SReg) (lab : Label) (tag : BitVec 4) (vb : VReg) (s : State) : exec (.sendv cls a lab tag vb) s = Sys2Proof.Machine.execSendv cls a lab tag vb s := rfl
theorem exec_mcast (cls : Cls) (a : SReg) (lab : Label) (tag : BitVec 4) (s : State) : exec (.mcast cls a lab tag) s = Sys2Proof.Machine.execMcast cls a lab tag s := rfl
theorem exec_get (cls : Cls) (a : SReg) (lab : Label) (t : BitVec 4) (b : SReg) (s : State) : exec (.get cls a lab t b) s = Sys2Proof.Machine.execGet cls a lab t b s := rfl
theorem exec_put (a : SReg) (t : BitVec 4) (b : SReg) (s : State) : exec (.put a t b) s = Sys2Proof.Machine.execPut a t b s := rfl
theorem exec_recv (lab : Label) (s : State) : exec (.recv lab) s = Sys2Proof.Machine.execRecv lab s := rfl
theorem exec_arm (lab : Label) (s : State) : exec (.arm lab) s = Sys2Proof.Machine.execArm lab s := rfl
theorem exec_disarm (lab : Label) (s : State) : exec (.disarm lab) s = Sys2Proof.Machine.execDisarm lab s := rfl
theorem exec_tcnt (d : SReg) (lab : Label) (s : State) : exec (.tcnt d lab) s = Sys2Proof.Machine.execTcnt d lab s := rfl
theorem exec_setf (mask : Byte) (s : State) : exec (.setf mask) s = Sys2Proof.Machine.execSetf mask s := rfl
theorem exec_clrf (mask : Byte) (s : State) : exec (.clrf mask) s = Sys2Proof.Machine.execClrf mask s := rfl
theorem exec_tlaunch (a : SReg) (s : State) : exec (.tlaunch a) s = Sys2Proof.Machine.execTlaunch a s := rfl
theorem exec_jdone (s : State) : exec .jdone s = Sys2Proof.Machine.execJdone s := rfl
theorem exec_bar (grp : BitVec 8) (s : State) : exec (.bar grp) s = Sys2Proof.Machine.execBar grp s := rfl
theorem exec_arrive (grp : BitVec 8) (s : State) : exec (.arrive grp) s = Sys2Proof.Machine.execArrive grp s := rfl
theorem exec_csrr (d : SReg) (csr : Csr) (s : State) : exec (.csrr d csr) s = Sys2Proof.Machine.execCsrr d csr s := rfl
theorem exec_csrw (d a : SReg) (csr : Csr) (s : State) : exec (.csrw d a csr) s = Sys2Proof.Machine.execCsrw d a csr s := rfl
theorem exec_csrs (d a : SReg) (csr : Csr) (s : State) : exec (.csrs d a csr) s = Sys2Proof.Machine.execCsrs d a csr s := rfl
theorem exec_csrc (d a : SReg) (csr : Csr) (s : State) : exec (.csrc d a csr) s = Sys2Proof.Machine.execCsrc d a csr s := rfl
theorem exec_vaddInt (ty : VTy) (vd va vb : VReg) (qp : QReg) (s : State) : exec (.vaddInt ty vd va vb qp) s = Sys2Proof.Machine.execVaddInt ty vd va vb qp s := rfl
theorem exec_vsubInt (ty : VTy) (vd va vb : VReg) (qp : QReg) (s : State) : exec (.vsubInt ty vd va vb qp) s = Sys2Proof.Machine.execVsubInt ty vd va vb qp s := rfl
theorem exec_vmulInt (ty : VTy) (vd va vb : VReg) (qp : QReg) (s : State) : exec (.vmulInt ty vd va vb qp) s = Sys2Proof.Machine.execVmulInt ty vd va vb qp s := rfl
theorem exec_vmulh (ty : VTy) (vd va vb : VReg) (qp : QReg) (s : State) : exec (.vmulh ty vd va vb qp) s = Sys2Proof.Machine.execVmulh ty vd va vb qp s := rfl
theorem exec_vadds (ty : VTy) (vd va vb : VReg) (qp : QReg) (s : State) : exec (.vadds ty vd va vb qp) s = Sys2Proof.Machine.execVadds ty vd va vb qp s := rfl
theorem exec_vsubs (ty : VTy) (vd va vb : VReg) (qp : QReg) (s : State) : exec (.vsubs ty vd va vb qp) s = Sys2Proof.Machine.execVsubs ty vd va vb qp s := rfl
theorem exec_vminInt (ty : VTy) (vd va vb : VReg) (qp : QReg) (s : State) : exec (.vminInt ty vd va vb qp) s = Sys2Proof.Machine.execVminInt ty vd va vb qp s := rfl
theorem exec_vmaxInt (ty : VTy) (vd va vb : VReg) (qp : QReg) (s : State) : exec (.vmaxInt ty vd va vb qp) s = Sys2Proof.Machine.execVmaxInt ty vd va vb qp s := rfl
theorem exec_vand (ty : VTy) (vd va vb : VReg) (qp : QReg) (s : State) : exec (.vand ty vd va vb qp) s = Sys2Proof.Machine.execVand ty vd va vb qp s := rfl
theorem exec_vor (ty : VTy) (vd va vb : VReg) (qp : QReg) (s : State) : exec (.vor ty vd va vb qp) s = Sys2Proof.Machine.execVor ty vd va vb qp s := rfl
theorem exec_vxor (ty : VTy) (vd va vb : VReg) (qp : QReg) (s : State) : exec (.vxor ty vd va vb qp) s = Sys2Proof.Machine.execVxor ty vd va vb qp s := rfl
theorem exec_vabsInt (ty : VTy) (vd va : VReg) (qp : QReg) (s : State) : exec (.vabsInt ty vd va qp) s = Sys2Proof.Machine.execVabsInt ty vd va qp s := rfl
theorem exec_vnegInt (ty : VTy) (vd va : VReg) (qp : QReg) (s : State) : exec (.vnegInt ty vd va qp) s = Sys2Proof.Machine.execVnegInt ty vd va qp s := rfl
theorem exec_vaddFp (f : FFmt) (rm : Rm) (vd va vb : VReg) (qp : QReg) (s : State) : exec (.vaddFp f rm vd va vb qp) s = Sys2Proof.Machine.execVaddFp f rm vd va vb qp s := rfl
theorem exec_vsubFp (f : FFmt) (rm : Rm) (vd va vb : VReg) (qp : QReg) (s : State) : exec (.vsubFp f rm vd va vb qp) s = Sys2Proof.Machine.execVsubFp f rm vd va vb qp s := rfl
theorem exec_vmulFp (f : FFmt) (rm : Rm) (vd va vb : VReg) (qp : QReg) (s : State) : exec (.vmulFp f rm vd va vb qp) s = Sys2Proof.Machine.execVmulFp f rm vd va vb qp s := rfl
theorem exec_vfma (f : FFmt) (rm : Rm) (vd va vb : VReg) (qp : QReg) (s : State) : exec (.vfma f rm vd va vb qp) s = Sys2Proof.Machine.execVfma f rm vd va vb qp s := rfl
theorem exec_vfms (f : FFmt) (rm : Rm) (vd va vb : VReg) (qp : QReg) (s : State) : exec (.vfms f rm vd va vb qp) s = Sys2Proof.Machine.execVfms f rm vd va vb qp s := rfl
theorem exec_vfnma (f : FFmt) (rm : Rm) (vd va vb : VReg) (qp : QReg) (s : State) : exec (.vfnma f rm vd va vb qp) s = Sys2Proof.Machine.execVfnma f rm vd va vb qp s := rfl
theorem exec_vminFp (f : FFmt) (vd va vb : VReg) (qp : QReg) (s : State) : exec (.vminFp f vd va vb qp) s = Sys2Proof.Machine.execVminFp f vd va vb qp s := rfl
theorem exec_vmaxFp (f : FFmt) (vd va vb : VReg) (qp : QReg) (s : State) : exec (.vmaxFp f vd va vb qp) s = Sys2Proof.Machine.execVmaxFp f vd va vb qp s := rfl
theorem exec_vminn (f : FFmt) (vd va vb : VReg) (qp : QReg) (s : State) : exec (.vminn f vd va vb qp) s = Sys2Proof.Machine.execVminn f vd va vb qp s := rfl
theorem exec_vmaxn (f : FFmt) (vd va vb : VReg) (qp : QReg) (s : State) : exec (.vmaxn f vd va vb qp) s = Sys2Proof.Machine.execVmaxn f vd va vb qp s := rfl
theorem exec_vabsFp (f : FFmt) (vd va : VReg) (qp : QReg) (s : State) : exec (.vabsFp f vd va qp) s = Sys2Proof.Machine.execVabsFp f vd va qp s := rfl
theorem exec_vnegFp (f : FFmt) (vd va : VReg) (qp : QReg) (s : State) : exec (.vnegFp f vd va qp) s = Sys2Proof.Machine.execVnegFp f vd va qp s := rfl
theorem exec_vcsgn (f : FFmt) (vd va vb : VReg) (qp : QReg) (s : State) : exec (.vcsgn f vd va vb qp) s = Sys2Proof.Machine.execVcsgn f vd va vb qp s := rfl
theorem exec_vcmp (cond : VCond) (ty : VTy) (qd : QReg) (va vb : VReg) (qp : QReg) (s : State) : exec (.vcmp cond ty qd va vb qp) s = Sys2Proof.Machine.execVcmp cond ty qd va vb qp s := rfl
theorem exec_vcvt (src dst : VTy) (ns : Bool) (rm : Rm) (vd va : VReg) (part qp : BitVec 3) (s : State) : exec (.vcvt src dst ns rm vd va part qp) s = Sys2Proof.Machine.execVcvt src dst ns rm vd va part qp s := rfl
theorem exec_vrcp (f : FFmt) (rm : Rm) (vd va : VReg) (qp : QReg) (s : State) : exec (.vrcp f rm vd va qp) s = Sys2Proof.Machine.execVrcp f rm vd va qp s := rfl
theorem exec_vrsq (f : FFmt) (rm : Rm) (vd va : VReg) (qp : QReg) (s : State) : exec (.vrsq f rm vd va qp) s = Sys2Proof.Machine.execVrsq f rm vd va qp s := rfl
theorem exec_vsqrt (f : FFmt) (rm : Rm) (vd va : VReg) (qp : QReg) (s : State) : exec (.vsqrt f rm vd va qp) s = Sys2Proof.Machine.execVsqrt f rm vd va qp s := rfl
theorem exec_vdiv (f : FFmt) (rm : Rm) (vd va vb : VReg) (qp : QReg) (s : State) : exec (.vdiv f rm vd va vb qp) s = Sys2Proof.Machine.execVdiv f rm vd va vb qp s := rfl
theorem exec_vexp2 (f : FFmt) (rm : Rm) (vd va : VReg) (qp : QReg) (s : State) : exec (.vexp2 f rm vd va qp) s = Sys2Proof.Machine.execVexp2 f rm vd va qp s := rfl
theorem exec_vlog2 (f : FFmt) (rm : Rm) (vd va : VReg) (qp : QReg) (s : State) : exec (.vlog2 f rm vd va qp) s = Sys2Proof.Machine.execVlog2 f rm vd va qp s := rfl
theorem exec_vperm (ty : VTy) (vd va vb : VReg) (qp : QReg) (s : State) : exec (.vperm ty vd va vb qp) s = Sys2Proof.Machine.execVperm ty vd va vb qp s := rfl
theorem exec_vbcst (ty : VTy) (vd va : VReg) (lane : BitVec 3) (qp : QReg) (s : State) : exec (.vbcst ty vd va lane qp) s = Sys2Proof.Machine.execVbcst ty vd va lane qp s := rfl
theorem exec_vzip (ty : VTy) (vd va vb : VReg) (qp : QReg) (s : State) : exec (.vzip ty vd va vb qp) s = Sys2Proof.Machine.execVzip ty vd va vb qp s := rfl
theorem exec_vunzip (ty : VTy) (vd va vb : VReg) (qp : QReg) (s : State) : exec (.vunzip ty vd va vb qp) s = Sys2Proof.Machine.execVunzip ty vd va vb qp s := rfl
theorem exec_vredadd (ty : VTy) (vd va : VReg) (qp : QReg) (s : State) : exec (.vredadd ty vd va qp) s = Sys2Proof.Machine.execVredadd ty vd va qp s := rfl
theorem exec_vredmin (ty : VTy) (vd va : VReg) (qp : QReg) (s : State) : exec (.vredmin ty vd va qp) s = Sys2Proof.Machine.execVredmin ty vd va qp s := rfl
theorem exec_vredmax (ty : VTy) (vd va : VReg) (qp : QReg) (s : State) : exec (.vredmax ty vd va qp) s = Sys2Proof.Machine.execVredmax ty vd va qp s := rfl
theorem exec_vredminn (ty : VTy) (vd va : VReg) (qp : QReg) (s : State) : exec (.vredminn ty vd va qp) s = Sys2Proof.Machine.execVredminn ty vd va qp s := rfl
theorem exec_vredmaxn (ty : VTy) (vd va : VReg) (qp : QReg) (s : State) : exec (.vredmaxn ty vd va qp) s = Sys2Proof.Machine.execVredmaxn ty vd va qp s := rfl
theorem exec_vsll (ty : VTy) (vd va vb : VReg) (qp : QReg) (s : State) : exec (.vsll ty vd va vb qp) s = Sys2Proof.Machine.execVsll ty vd va vb qp s := rfl
theorem exec_vsrl (ty : VTy) (vd va vb : VReg) (qp : QReg) (s : State) : exec (.vsrl ty vd va vb qp) s = Sys2Proof.Machine.execVsrl ty vd va vb qp s := rfl
theorem exec_vsra (ty : VTy) (vd va vb : VReg) (qp : QReg) (s : State) : exec (.vsra ty vd va vb qp) s = Sys2Proof.Machine.execVsra ty vd va vb qp s := rfl
theorem exec_vslli (ty : VTy) (vd va : VReg) (sh : BitVec 7) (qp : QReg) (s : State) : exec (.vslli ty vd va sh qp) s = Sys2Proof.Machine.execVslli ty vd va sh qp s := rfl
theorem exec_vsrli (ty : VTy) (vd va : VReg) (sh : BitVec 7) (qp : QReg) (s : State) : exec (.vsrli ty vd va sh qp) s = Sys2Proof.Machine.execVsrli ty vd va sh qp s := rfl
theorem exec_vsrai (ty : VTy) (vd va : VReg) (sh : BitVec 7) (qp : QReg) (s : State) : exec (.vsrai ty vd va sh qp) s = Sys2Proof.Machine.execVsrai ty vd va sh qp s := rfl
theorem exec_vbool3 (vd va vb : VReg) (qp : QReg) (tab : BitVec 8) (s : State) : exec (.vbool3 vd va vb qp tab) s = Sys2Proof.Machine.execVbool3 vd va vb qp tab s := rfl
theorem exec_vins (v : VReg) (sr : SReg) (lane : BitVec 3) (s : State) : exec (.vins v sr lane) s = Sys2Proof.Machine.execVins v sr lane s := rfl
theorem exec_vext (v : VReg) (sr : SReg) (lane : BitVec 3) (s : State) : exec (.vext v sr lane) s = Sys2Proof.Machine.execVext v sr lane s := rfl
theorem exec_vdup (v : VReg) (sr : SReg) (s : State) : exec (.vdup v sr) s = Sys2Proof.Machine.execVdup v sr s := rfl
theorem exec_qset (sr : SReg) (q : QReg) (s : State) : exec (.qset sr q) s = Sys2Proof.Machine.execQset sr q s := rfl
theorem exec_qget (sr : SReg) (q : QReg) (s : State) : exec (.qget sr q) s = Sys2Proof.Machine.execQget sr q s := rfl
theorem exec_mop (n : BitVec 2) (m : Bool) (fA fB : Tag) (a b c : SReg) (lab : Label) (s : State) : exec (.mop n m fA fB a b c lab) s = Sys2Proof.Machine.execMop n m fA fB a b c lab s := rfl
theorem exec_mopsZc (n : BitVec 2) (m : Bool) (fA fB : Tag) (d a b c : SReg) (lab : Label) (s : State) : exec (.mopsZc n m fA fB d a b c lab) s = Sys2Proof.Machine.execMopsZc n m fA fB d a b c lab s := rfl
theorem exec_mopsS24 (n : BitVec 2) (m : Bool) (fA fB : Tag) (d a b c : SReg) (lab : Label) (s : State) : exec (.mopsS24 n m fA fB d a b c lab) s = Sys2Proof.Machine.execMopsS24 n m fA fB d a b c lab s := rfl
theorem exec_mzero (n : BitVec 2) (m : Bool) (lab : Label) (s : State) : exec (.mzero n m lab) s = Sys2Proof.Machine.execMzero n m lab s := rfl
theorem exec_mload (n : BitVec 2) (m : Bool) (fA : Tag) (a : SReg) (lab : Label) (s : State) : exec (.mload n m fA a lab) s = Sys2Proof.Machine.execMload n m fA a lab s := rfl
theorem exec_mdrain (n : BitVec 2) (m : Bool) (fA : Tag) (rm : Rm) (relu : Bool) (scale : BitVec 8) (a : SReg) (lab : Label) (s : State) : exec (.mdrain n m fA rm relu scale a lab) s = Sys2Proof.Machine.execMdrain n m fA rm relu scale a lab s := rfl
theorem exec_mseed (n : BitVec 2) (a : SReg) (s : State) : exec (.mseed n a) s = Sys2Proof.Machine.execMseed n a s := rfl
theorem exec_tdir (d a : SReg) (s : State) : exec (.tdir d a) s = Sys2Proof.Machine.execTdir d a s := rfl
theorem exec_tzero (a c : SReg) (lab : Label) (s : State) : exec (.tzero a c lab) s = Sys2Proof.Machine.execTzero a c lab s := rfl
theorem exec_tfill (f : Tag) (a b c : SReg) (lab : Label) (s : State) : exec (.tfill f a b c lab) s = Sys2Proof.Machine.execTfill f a b c lab s := rfl
theorem exec_tident (f : Tag) (diag : BitVec 7) (a c : SReg) (lab : Label) (s : State) : exec (.tident f diag a c lab) s = Sys2Proof.Machine.execTident f diag a c lab s := rfl
theorem exec_xcopy (dir : Dir2) (f : Tag) (cls : Cls) (d a b : SReg) (lab : Label) (s : State) : exec (.xcopy dir f cls d a b lab) s = Sys2Proof.Machine.execXcopy dir f cls d a b lab s := rfl
theorem exec_xmapLd (cls : Cls) (d a b c : SReg) (lab : Label) (s : State) : exec (.xmapLd cls d a b c lab) s = Sys2Proof.Machine.execXmapLd cls d a b c lab s := rfl
theorem exec_xmapSt (cls : Cls) (d a b c : SReg) (lab : Label) (s : State) : exec (.xmapSt cls d a b c lab) s = Sys2Proof.Machine.execXmapSt cls d a b c lab s := rfl
theorem exec_xgather (x64 : Bool) (cls : Cls) (d a b c : SReg) (lab : Label) (s : State) : exec (.xgather x64 cls d a b c lab) s = Sys2Proof.Machine.execXgather x64 cls d a b c lab s := rfl
theorem exec_xscatter (x64 acc : Bool) (f : Tag) (cls : Cls) (d a b c : SReg) (lab : Label) (s : State) : exec (.xscatter x64 acc f cls d a b c lab) s = Sys2Proof.Machine.execXscatter x64 acc f cls d a b c lab s := rfl
theorem exec_xpack (dstNear : Bool) (f : Tag) (cls : Cls) (d a b : SReg) (lab : Label) (s : State) : exec (.xpack dstNear f cls d a b lab) s = Sys2Proof.Machine.execXpack dstNear f cls d a b lab s := rfl
theorem exec_xunpack (srcNear : Bool) (f : Tag) (cls : Cls) (d a b : SReg) (lab : Label) (s : State) : exec (.xunpack srcNear f cls d a b lab) s = Sys2Proof.Machine.execXunpack srcNear f cls d a b lab s := rfl
theorem exec_xembed (f : Tag) (cls : Cls) (d a b c : SReg) (lab : Label) (s : State) : exec (.xembed f cls d a b c lab) s = Sys2Proof.Machine.execXembed f cls d a b c lab s := rfl
theorem exec_xstream (toHost near : Bool) (cls : Cls) (d a b c : SReg) (lab : Label) (s : State) : exec (.xstream toHost near cls d a b c lab) s = Sys2Proof.Machine.execXstream toHost near cls d a b c lab s := rfl
theorem exec_rngw (a b c : SReg) (s : State) : exec (.rngw a b c) s = Sys2Proof.Machine.execRngw a b c s := rfl
theorem exec_rngr (d a : SReg) (half : Bool) (s : State) : exec (.rngr d a half) s = Sys2Proof.Machine.execRngr d a half s := rfl
theorem exec_rngclr (a : SReg) (s : State) : exec (.rngclr a) s = Sys2Proof.Machine.execRngclr a s := rfl
theorem exec_pgw (a b : SReg) (s : State) : exec (.pgw a b) s = Sys2Proof.Machine.execPgw a b s := rfl
theorem exec_pgr (d a : SReg) (s : State) : exec (.pgr d a) s = Sys2Proof.Machine.execPgr d a s := rfl
theorem exec_pginv (a : SReg) (s : State) : exec (.pginv a) s = Sys2Proof.Machine.execPginv a s := rfl
theorem exec_illegalInstruction (bits : BitVec 64) (s : State) : exec (.illegalInstruction bits) s = Sys2Proof.Machine.execIllegalInstruction bits s := rfl
theorem exec_commitInjection (core : CoreIx) (thr : ThrIx) (s : State) : exec (.commitInjection core thr) s = Sys2Proof.Machine.execCommitInjection core thr s := rfl
theorem exec_messageArrival (n : Nat) (s : State) : exec (.messageArrival n) s = Sys2Proof.Machine.execMessageArrival n s := rfl
theorem exec_payloadFlitArrival (core : CoreIx) (id : Nat) (s : State) : exec (.payloadFlitArrival core id) s = Sys2Proof.Machine.execPayloadFlitArrival core id s := rfl
theorem exec_kittyReturn (core : CoreIx) (cls : Cls) (s : State) : exec (.kittyReturn core cls) s = Sys2Proof.Machine.execKittyReturn core cls s := rfl
theorem exec_recvDelivery (core : CoreIx) (lab : Label) (s : State) : exec (.recvDelivery core lab) s = Sys2Proof.Machine.execRecvDelivery core lab s := rfl
theorem exec_handlerStart (core : CoreIx) (s : State) : exec (.handlerStart core) s = Sys2Proof.Machine.execHandlerStart core s := rfl
theorem exec_spreadMove (core : CoreIx) (s : State) : exec (.spreadMove core) s = Sys2Proof.Machine.execSpreadMove core s := rfl
theorem exec_barArrival (n : Nat) (s : State) : exec (.barArrival n) s = Sys2Proof.Machine.execBarArrival n s := rfl
theorem exec_barrierRelease (n : Nat) (s : State) : exec (.barrierRelease n) s = Sys2Proof.Machine.execBarrierRelease n s := rfl
theorem exec_waitDeadline (core : CoreIx) (thr : ThrIx) (s : State) : exec (.waitDeadline core thr) s = Sys2Proof.Machine.execWaitDeadline core thr s := rfl
theorem exec_watchdogStop (core : CoreIx) (s : State) : exec (.watchdogStop core) s = Sys2Proof.Machine.execWatchdogStop core s := rfl
theorem exec_engineCommandStart (cl : BitVec 8) (k : Nat) (n : Nat) (s : State) : exec (.engineCommandStart cl k n) s = Sys2Proof.Machine.execEngineCommandStart cl k n s := rfl
theorem exec_engineCompletion (cl : BitVec 8) (k : Nat) (s : State) : exec (.engineCompletion cl k) s = Sys2Proof.Machine.execEngineCompletion cl k s := rfl
theorem exec_matrixCommandStart (cl : BitVec 8) (arr : BitVec 2) (k : Nat) (n : Nat) (s : State) : exec (.matrixCommandStart cl arr k n) s = Sys2Proof.Machine.execMatrixCommandStart cl arr k n s := rfl
theorem exec_matrixCompletion (cl : BitVec 8) (arr : BitVec 2) (s : State) : exec (.matrixCompletion cl arr) s = Sys2Proof.Machine.execMatrixCompletion cl arr s := rfl
theorem exec_routerForward (n : Nat) (s : State) : exec (.routerForward n) s = Sys2Proof.Machine.execRouterForward n s := rfl
theorem exec_gatewayArrival (sw : BitVec 3) (p : Packet) (s : State) : exec (.gatewayArrival sw p) s = Sys2Proof.Machine.execGatewayArrival sw p s := rfl
theorem exec_arrivalRingReentry (sw : BitVec 3) (s : State) : exec (.arrivalRingReentry sw) s = Sys2Proof.Machine.execArrivalRingReentry sw s := rfl
theorem exec_arrivalRingFullReport (sw : BitVec 3) (s : State) : exec (.arrivalRingFullReport sw) s = Sys2Proof.Machine.execArrivalRingFullReport sw s := rfl
theorem exec_linkCrcError (link : BitVec 6) (s : State) : exec (.linkCrcError link) s = Sys2Proof.Machine.execLinkCrcError link s := rfl
theorem exec_linkRetrain (link : BitVec 6) (s : State) : exec (.linkRetrain link) s = Sys2Proof.Machine.execLinkRetrain link s := rfl
theorem exec_linkDown (link : BitVec 6) (s : State) : exec (.linkDown link) s = Sys2Proof.Machine.execLinkDown link s := rfl
theorem exec_podCounterExchange (sw : BitVec 3) (value : BitVec 64) (s : State) : exec (.podCounterExchange sw value) s = Sys2Proof.Machine.execPodCounterExchange sw value s := rfl
theorem exec_rdRequest (n : Nat) (s : State) : exec (.rdRequest n) s = Sys2Proof.Machine.execRdRequest n s := rfl
theorem exec_wrRequest (n : Nat) (s : State) : exec (.wrRequest n) s = Sys2Proof.Machine.execWrRequest n s := rfl
theorem exec_amoRequest (n : Nat) (s : State) : exec (.amoRequest n) s = Sys2Proof.Machine.execAmoRequest n s := rfl
theorem exec_amopRequest (n : Nat) (s : State) : exec (.amopRequest n) s = Sys2Proof.Machine.execAmopRequest n s := rfl
theorem exec_casRequest (n : Nat) (s : State) : exec (.casRequest n) s = Sys2Proof.Machine.execCasRequest n s := rfl
theorem exec_parkNoticeRepeat (stack : BitVec 5) (n : Nat) (s : State) : exec (.parkNoticeRepeat stack n) s = Sys2Proof.Machine.execParkNoticeRepeat stack n s := rfl
theorem exec_parkLimitExpiry (stack : BitVec 5) (n : Nat) (s : State) : exec (.parkLimitExpiry stack n) s = Sys2Proof.Machine.execParkLimitExpiry stack n s := rfl
theorem exec_parkedRequestReplay (stack : BitVec 5) (n : Nat) (s : State) : exec (.parkedRequestReplay stack n) s = Sys2Proof.Machine.execParkedRequestReplay stack n s := rfl
theorem exec_rdataReply (n : Nat) (s : State) : exec (.rdataReply n) s = Sys2Proof.Machine.execRdataReply n s := rfl
theorem exec_ackReply (n : Nat) (s : State) : exec (.ackReply n) s = Sys2Proof.Machine.execAckReply n s := rfl
theorem exec_parkNotice (n : Nat) (s : State) : exec (.parkNotice n) s = Sys2Proof.Machine.execParkNotice n s := rfl
theorem exec_errReply (n : Nat) (s : State) : exec (.errReply n) s = Sys2Proof.Machine.execErrReply n s := rfl
theorem exec_farTimerExpiry (core : CoreIx) (txid : BitVec 16) (s : State) : exec (.farTimerExpiry core txid) s = Sys2Proof.Machine.execFarTimerExpiry core txid s := rfl
theorem exec_nackResend (core : CoreIx) (txid : BitVec 16) (s : State) : exec (.nackResend core txid) s = Sys2Proof.Machine.execNackResend core txid s := rfl
theorem exec_imageLoad (q : BitVec 14) (s : State) : exec (.imageLoad q) s = Sys2Proof.Machine.execImageLoad q s := rfl
theorem exec_launchGateOpen (job : BitVec 8) (s : State) : exec (.launchGateOpen job) s = Sys2Proof.Machine.execLaunchGateOpen job s := rfl
theorem exec_initialMessageRelease (job : BitVec 8) (s : State) : exec (.initialMessageRelease job) s = Sys2Proof.Machine.execInitialMessageRelease job s := rfl
theorem exec_jobRetirement (job : BitVec 8) (s : State) : exec (.jobRetirement job) s = Sys2Proof.Machine.execJobRetirement job s := rfl
theorem exec_tokenWrite (off : BitVec 26) (bytes : List Byte) (s : State) : exec (.tokenWrite off bytes) s = Sys2Proof.Machine.execTokenWrite off bytes s := rfl
theorem exec_tokenRelease (q : BitVec 14) (s : State) : exec (.tokenRelease q) s = Sys2Proof.Machine.execTokenRelease q s := rfl
theorem exec_qctlReset (q : BitVec 14) (value : Word) (s : State) : exec (.qctlReset q value) s = Sys2Proof.Machine.execQctlReset q value s := rfl
theorem exec_meventClear (value : Word) (s : State) : exec (.meventClear value) s = Sys2Proof.Machine.execMeventClear value s := rfl
theorem exec_powercapWrite (value : Word) (s : State) : exec (.powercapWrite value) s = Sys2Proof.Machine.execPowercapWrite value s := rfl
theorem exec_hostRegisterWrite (off : BitVec 25) (value : Word) (s : State) : exec (.hostRegisterWrite off value) s = Sys2Proof.Machine.execHostRegisterWrite off value s := rfl
theorem exec_attest (s : State) : exec .attest s = Sys2Proof.Machine.execAttest s := rfl
theorem exec_fwupdate (s : State) : exec .fwupdate s = Sys2Proof.Machine.execFwupdate s := rfl
theorem exec_recover (s : State) : exec .recover s = Sys2Proof.Machine.execRecover s := rfl
theorem exec_cert (s : State) : exec .cert s = Sys2Proof.Machine.execCert s := rfl
theorem exec_reset (s : State) : exec .reset s = Sys2Proof.Machine.execReset s := rfl
theorem exec_powerGood (s : State) : exec .powerGood s = Sys2Proof.Machine.execPowerGood s := rfl
theorem exec_firmwareVerification (s : State) : exec .firmwareVerification s = Sys2Proof.Machine.execFirmwareVerification s := rfl
theorem exec_hbmTrainingComplete (s : State) : exec .hbmTrainingComplete s = Sys2Proof.Machine.execHbmTrainingComplete s := rfl
theorem exec_earlyToFull (s : State) : exec .earlyToFull s = Sys2Proof.Machine.execEarlyToFull s := rfl
theorem exec_thermalThrottle (s : State) : exec .thermalThrottle s = Sys2Proof.Machine.execThermalThrottle s := rfl
theorem exec_thermalShutdown (s : State) : exec .thermalShutdown s = Sys2Proof.Machine.execThermalShutdown s := rfl
theorem exec_patrolScrub (addr : Nat) (bad : Bool) (s : State) : exec (.patrolScrub addr bad) s = Sys2Proof.Machine.execPatrolScrub addr bad s := rfl
theorem exec_softErrorThreshold (s : State) : exec .softErrorThreshold s = Sys2Proof.Machine.execSoftErrorThreshold s := rfl
theorem exec_governorWindow (cl : BitVec 8) (s : State) : exec (.governorWindow cl) s = Sys2Proof.Machine.execGovernorWindow cl s := rfl
theorem exec_freeze (n : Nat) (s : State) : exec (.freeze n) s = Sys2Proof.Machine.execFreeze n s := rfl
theorem exec_release (n : Nat) (s : State) : exec (.release n) s = Sys2Proof.Machine.execRelease n s := rfl
theorem exec_preempt (n : Nat) (s : State) : exec (.preempt n) s = Sys2Proof.Machine.execPreempt n s := rfl
theorem exec_preemptGraceEnd (cl : BitVec 8) (s : State) : exec (.preemptGraceEnd cl) s = Sys2Proof.Machine.execPreemptGraceEnd cl s := rfl
theorem exec_restore (n : Nat) (s : State) : exec (.restore n) s = Sys2Proof.Machine.execRestore n s := rfl
theorem exec_resume (n : Nat) (s : State) : exec (.resume n) s = Sys2Proof.Machine.execResume n s := rfl
theorem exec_ready (n : Nat) (s : State) : exec (.ready n) s = Sys2Proof.Machine.execReady n s := rfl
theorem exec_open_ (n : Nat) (s : State) : exec (.open_ n) s = Sys2Proof.Machine.execOpen n s := rfl
theorem exec_abort (n : Nat) (s : State) : exec (.abort n) s = Sys2Proof.Machine.execAbort n s := rfl
theorem exec_qreport (n : Nat) (s : State) : exec (.qreport n) s = Sys2Proof.Machine.execQreport n s := rfl
theorem exec_retire (n : Nat) (s : State) : exec (.retire n) s = Sys2Proof.Machine.execRetire n s := rfl
theorem exec_tlh (n : Nat) (s : State) : exec (.tlh n) s = Sys2Proof.Machine.execTlh n s := rfl
theorem exec_cfgw (n : Nat) (s : State) : exec (.cfgw n) s = Sys2Proof.Machine.execCfgw n s := rfl
theorem exec_papply (n : Nat) (s : State) : exec (.papply n) s = Sys2Proof.Machine.execPapply n s := rfl
theorem exec_bistCompletion (clok : BitVec 9) (failed : Bool) (s : State) : exec (.bistCompletion clok failed) s = Sys2Proof.Machine.execBistCompletion clok failed s := rfl
theorem exec_trainingFailure (tier : DramTier) (s : State) : exec (.trainingFailure tier) s = Sys2Proof.Machine.execTrainingFailure tier s := rfl
theorem exec_linkRetrained (link : BitVec 6) (s : State) : exec (.linkRetrained link) s = Sys2Proof.Machine.execLinkRetrained link s := rfl
theorem exec_completedTransactionCacheExpiry (n : Nat) (s : State) : exec (.completedTransactionCacheExpiry n) s = Sys2Proof.Machine.execCompletedTransactionCacheExpiry n s := rfl
theorem exec_thermalThrottleEnd (s : State) : exec .thermalThrottleEnd s = Sys2Proof.Machine.execThermalThrottleEnd s := rfl
theorem exec_powerFail (s : State) : exec .powerFail s = Sys2Proof.Machine.execPowerFail s := rfl

end Sys2Proof.Machine
end

