-- ==== Sys2Proof/Laws/Memory.lean ====
section
/-! SUPPORT. Laws of the memory: reading after writing, and the canonical form (Memory.wf) that every memory operation
keeps. -/

namespace Sys2Proof.Machine

/-! ### The canonical form -/

theorem Memory.wf_iff (m : List Host.Cell) :
    Memory.wf m = true ↔ m.Pairwise (fun x y => x.1 < y.1) ∧ ∀ c ∈ m, c.2 ≠ 0 := by
  simp [Memory.wf]

theorem Memory.wf_nil : Memory.wf [] = true := by simp [Memory.wf_iff]

theorem Memory.wf_filter {m : List Host.Cell} (p : Host.Cell → Bool) (h : Memory.wf m = true) :
    Memory.wf (m.filter p) = true := by
  rw [Memory.wf_iff] at h ⊢
  exact ⟨h.1.filter p, fun c hc => h.2 c (List.mem_filter.1 hc).1⟩

/-- The cells of bytes lie from their first place on, in order, none of them zero. -/
theorem Memory.mem_cells {a : Nat} {bs : List Byte} {c : Host.Cell} (h : c ∈ Memory.cells a bs) :
    a ≤ c.1 ∧ c.1 < a + bs.length ∧ c.2 ≠ 0 := by
  induction bs generalizing a with
  | nil => simp [Memory.cells] at h
  | cons b bs ih =>
    rw [Memory.cells] at h
    split at h
    · have := ih h; simp only [List.length_cons]; exact ⟨by omega, by omega, this.2.2⟩
    · rcases List.mem_cons.1 h with rfl | h
      · simp only [List.length_cons]; exact ⟨by omega, by omega, by assumption⟩
      · have := ih h; simp only [List.length_cons]; exact ⟨by omega, by omega, this.2.2⟩

theorem Memory.pairwise_cells (a : Nat) (bs : List Byte) :
    (Memory.cells a bs).Pairwise fun x y => x.1 < y.1 := by
  induction bs generalizing a with
  | nil => simp [Memory.cells]
  | cons b bs ih =>
    rw [Memory.cells]
    split
    · exact ih _
    · exact List.pairwise_cons.2 ⟨fun c hc => by have := Memory.mem_cells hc; simp only; omega, ih _⟩

/-- A write keeps the canonical form. -/
theorem Memory.wf_put {m : List Host.Cell} (a : Nat) (bs : List Byte) (h : Memory.wf m = true) :
    Memory.wf (Memory.put m a bs) = true := by
  rw [Memory.wf_iff] at h ⊢
  refine ⟨?_, ?_⟩
  · refine List.pairwise_append.2 ⟨h.1.filter _, List.pairwise_append.2 ⟨Memory.pairwise_cells a bs, h.1.filter _, ?_⟩, ?_⟩
    · intro x hx y hy
      have := Memory.mem_cells hx
      have := of_decide_eq_true (List.mem_filter.1 hy).2
      omega
    · intro x hx y hy
      have hx := of_decide_eq_true (List.mem_filter.1 hx).2
      rcases List.mem_append.1 hy with hy | hy
      · have := Memory.mem_cells hy; omega
      · have := of_decide_eq_true (List.mem_filter.1 hy).2; omega
  · intro c hc
    rcases List.mem_append.1 hc with hc | hc
    · exact h.2 c (List.mem_filter.1 hc).1
    · rcases List.mem_append.1 hc with hc | hc
      · exact (Memory.mem_cells hc).2.2
      · exact h.2 c (List.mem_filter.1 hc).1

/-- Clearing keeps the canonical form. -/
theorem Memory.wf_clear {m : List Host.Cell} (a n : Nat) (h : Memory.wf m = true) :
    Memory.wf (Memory.clear m a n) = true := by
  rw [Memory.wf_iff] at h ⊢
  refine ⟨List.pairwise_append.2 ⟨h.1.filter _, h.1.filter _, ?_⟩, ?_⟩
  · intro x hx y hy
    have := of_decide_eq_true (List.mem_filter.1 hx).2
    have := of_decide_eq_true (List.mem_filter.1 hy).2
    omega
  · intro c hc
    rcases List.mem_append.1 hc with hc | hc <;> exact h.2 c (List.mem_filter.1 hc).1

/-! ### Reading after writing -/

theorem Memory.read_append (m n : List Host.Cell) (k : Nat) :
    Memory.read (m ++ n) k = if m.any (fun c => decide (c.1 = k)) then Memory.read m k else Memory.read n k := by
  induction m with
  | nil => simp
  | cons c m ih =>
    rw [List.cons_append, Memory.read, Memory.read, ih]
    by_cases hk : k = c.1
    · simp [hk]
    · simp [hk, Ne.symm hk]

theorem Memory.read_none {m : List Host.Cell} {k : Nat} (h : ∀ c ∈ m, c.1 ≠ k) : Memory.read m k = 0 := by
  induction m with
  | nil => rfl
  | cons c m ih =>
    rw [Memory.read, if_neg (h c (by simp)).symm, ih fun d hd => h d (by simp [hd])]

theorem Memory.read_filter (p : Nat → Bool) (m : List Host.Cell) (k : Nat) :
    Memory.read (m.filter fun c => p c.1) k = if p k then Memory.read m k else 0 := by
  induction m with
  | nil => simp [Memory.read]
  | cons c m ih =>
    rw [List.filter_cons]
    by_cases hp : p c.1 <;> by_cases hk : k = c.1
    · simp [hp, hk, Memory.read]
    · simp [hp, hk, Memory.read, ih]
    · have : ¬ p k = true := hk ▸ hp
      rw [if_neg hp, ih, if_neg this, if_neg this]
    · simp [hp, hk, Memory.read, ih]

theorem Memory.read_cells (a : Nat) (bs : List Byte) (k : Nat) :
    Memory.read (Memory.cells a bs) k = if a ≤ k then bs.getD (k - a) 0 else 0 := by
  induction bs generalizing a with
  | nil => simp [Memory.cells, Memory.read]
  | cons b bs ih =>
    rw [Memory.cells]
    by_cases hb : b = 0
    · rw [if_pos hb, ih]
      rcases Nat.lt_trichotomy k a with h | h | h
      · simp [show ¬ a + 1 ≤ k by omega, show ¬ a ≤ k by omega]
      · subst h; simp [hb, show ¬ k + 1 ≤ k by omega]
      · simp [show a + 1 ≤ k by omega, show a ≤ k by omega, show k - a = (k - (a + 1)) + 1 by omega]
    · rw [if_neg hb, Memory.read, ih]
      rcases Nat.lt_trichotomy k a with h | h | h
      · simp [show ¬ a + 1 ≤ k by omega, show ¬ a ≤ k by omega, show k ≠ a by omega]
      · subst h; simp
      · simp [show a + 1 ≤ k by omega, show a ≤ k by omega, show k ≠ a by omega, show k - a = (k - (a + 1)) + 1 by omega]

/-- What a read gives after a write: the written byte inside the range, the old one outside. -/
theorem Memory.read_put (m : List Host.Cell) (a : Nat) (bs : List Byte) (k : Nat) :
    Memory.read (Memory.put m a bs) k = if a ≤ k ∧ k < a + bs.length then bs.getD (k - a) 0 else Memory.read m k := by
  rw [Memory.put, Memory.read_append, Memory.read_append]
  have e1 : Memory.read (m.filter fun c => decide (c.1 < a)) k = if k < a then Memory.read m k else 0 := by
    simpa using Memory.read_filter (fun x => decide (x < a)) m k
  have e2 : Memory.read (m.filter fun c => decide (a + bs.length ≤ c.1)) k
      = if a + bs.length ≤ k then Memory.read m k else 0 := by
    simpa using Memory.read_filter (fun x => decide (a + bs.length ≤ x)) m k
  have anyOf : ∀ l : List Host.Cell, l.any (fun c => decide (c.1 = k)) = false → Memory.read l k = 0 := by
    intro l hl
    exact Memory.read_none (by simpa using hl)
  rw [e1, e2, Memory.read_cells]
  rcases Nat.lt_or_ge k a with h | h
  · simp only [show k < a from h, show ¬ a ≤ k by omega, show ¬ a + bs.length ≤ k by omega, false_and, if_true, if_false]
    split
    · rfl
    · rename_i hl
      have := anyOf _ (Bool.eq_false_iff.2 hl)
      rw [e1, if_pos h] at this
      rw [this]; split <;> rfl
  · have hno : (m.filter fun c => decide (c.1 < a)).any (fun c => decide (c.1 = k)) = false := by
      simp only [List.any_eq_false, decide_eq_true_eq]
      intro c hc hk
      have := of_decide_eq_true (List.mem_filter.1 hc).2
      omega
    rw [hno]
    simp only [Bool.false_eq_true, if_false, h, true_and, if_true]
    rcases Nat.lt_or_ge k (a + bs.length) with h2 | h2
    · simp only [h2, if_true, show ¬ a + bs.length ≤ k by omega, if_false]
      split
      · rfl
      · rename_i hl
        have := anyOf _ (Bool.eq_false_iff.2 hl)
        rw [Memory.read_cells, if_pos h] at this
        exact this.symm
    · have hnc : (Memory.cells a bs).any (fun c => decide (c.1 = k)) = false := by
        simp only [List.any_eq_false, decide_eq_true_eq]
        intro c hc hk
        have := Memory.mem_cells hc
        omega
      rw [hnc]
      simp [h2, show ¬ k < a + bs.length by omega]

/-- What a read gives after a clearing. -/
theorem Memory.read_clear (m : List Host.Cell) (a n k : Nat) :
    Memory.read (Memory.clear m a n) k = if a ≤ k ∧ k < a + n then 0 else Memory.read m k := by
  rw [Memory.clear, Memory.read_append]
  have e1 : Memory.read (m.filter fun c => decide (c.1 < a)) k = if k < a then Memory.read m k else 0 := by
    simpa using Memory.read_filter (fun x => decide (x < a)) m k
  have e2 : Memory.read (m.filter fun c => decide (a + n ≤ c.1)) k = if a + n ≤ k then Memory.read m k else 0 := by
    simpa using Memory.read_filter (fun x => decide (a + n ≤ x)) m k
  rw [e1, e2]
  split
  · rename_i h
    obtain ⟨c, hc, hk⟩ := List.any_eq_true.1 h
    have := of_decide_eq_true (List.mem_filter.1 hc).2
    have := of_decide_eq_true hk
    simp [show k < a by omega, show ¬ a ≤ k by omega]
  · rename_i h
    rcases Nat.lt_or_ge k a with h2 | h2
    · have h0 : Memory.read (m.filter fun c => decide (c.1 < a)) k = 0 :=
        Memory.read_none fun c hc hk => h (List.any_eq_true.2 ⟨c, hc, by simpa using hk⟩)
      rw [e1, if_pos h2] at h0
      simp [h0, show ¬ a ≤ k by omega]
    · rcases Nat.lt_or_ge k (a + n) with h3 | h3
      · simp [h2, h3, show ¬ a + n ≤ k by omega]
      · simp [h3, show ¬ k < a + n by omega]

/-- Memories in the canonical form that read the same are the same. -/
theorem Memory.ext_read {m n : List Host.Cell} (hm : Memory.wf m = true) (hn : Memory.wf n = true)
    (h : ∀ k, Memory.read m k = Memory.read n k) : m = n := by
  rw [Memory.wf_iff] at hm hn
  have low : ∀ (l : List Host.Cell) (c : Host.Cell), (c :: l).Pairwise (fun x y => x.1 < y.1) →
      ∀ k, k ≤ c.1 → Memory.read l k = 0 := fun l c hp k hk =>
    Memory.read_none fun d hd e => by have := (List.pairwise_cons.1 hp).1 d hd; omega
  induction m generalizing n with
  | nil =>
    cases n with
    | nil => rfl
    | cons c n =>
      have := h c.1
      rw [Memory.read, Memory.read, if_pos rfl] at this
      exact absurd this.symm (hn.2 c (by simp))
  | cons c m ih =>
    cases n with
    | nil =>
      have := h c.1
      rw [Memory.read, Memory.read, if_pos rfl] at this
      exact absurd this (hm.2 c (by simp))
    | cons d n =>
      have hc := h c.1
      have hd := h d.1
      rw [Memory.read, if_pos rfl, Memory.read] at hc
      rw [Memory.read, Memory.read, if_pos rfl] at hd
      have hcd : c.1 = d.1 := by
        rcases Nat.lt_trichotomy c.1 d.1 with hlt | he | hlt
        · rw [if_neg (by omega), low n d hn.1 c.1 (by omega)] at hc
          exact absurd hc (hm.2 c (by simp))
        · exact he
        · rw [if_neg (by omega), low m c hm.1 d.1 (by omega)] at hd
          exact absurd hd.symm (hn.2 d (by simp))
      rw [if_pos hcd] at hc
      have hcd' : c = d := Prod.ext hcd hc
      subst hcd'
      rw [ih (n := n) ⟨(List.pairwise_cons.1 hm.1).2, fun x hx => hm.2 x (by simp [hx])⟩
        ⟨(List.pairwise_cons.1 hn.1).2, fun x hx => hn.2 x (by simp [hx])⟩]
      intro k
      have hk := h k
      rw [Memory.read, Memory.read] at hk
      by_cases e : k = c.1
      · rw [low m c hm.1 k (by omega), low n c hn.1 k (by omega)]
      · rwa [if_neg e, if_neg e] at hk

end Sys2Proof.Machine
end

