-- ==== Sys2Proof/Laws/State.lean ====
section
/-! SUPPORT. Laws of the state: what each update of it leaves as it was, one line for each field, and what a read gives after
an update. -/

namespace Sys2Proof.Machine

/-! ### Finite maps -/

theorem SMap.get_set {α : Type} (d v : α) (m : SMap α) (k j : Nat) :
    SMap.get d (SMap.set k v m) j = if j = k then v else SMap.get d m j := by
  induction m with
  | nil => simp [SMap.set, SMap.get]
  | cons e m ih =>
    rw [SMap.set]
    split
    · rw [SMap.get]
    · split
      · rename_i h
        rw [SMap.get, SMap.get]
        split
        · rfl
        · rw [if_neg (by omega)]
      · rename_i h1 h2
        rw [SMap.get, ih, SMap.get]
        by_cases hj : j = e.1
        · rw [if_pos hj, if_neg (by omega), if_pos hj]
        · rw [if_neg hj, if_neg hj]

@[simp] theorem SMap.get_set_self {α : Type} (d v : α) (m : SMap α) (k : Nat) : SMap.get d (SMap.set k v m) k = v := by
  rw [SMap.get_set, if_pos rfl]

theorem SMap.get_set_ne {α : Type} (d v : α) (m : SMap α) {k j : Nat} (h : j ≠ k) :
    SMap.get d (SMap.set k v m) j = SMap.get d m j := by
  rw [SMap.get_set, if_neg h]

/-- Setting a key twice is setting it once. -/
@[simp] theorem SMap.set_set {α : Type} (v w : α) (m : SMap α) (k : Nat) : SMap.set k w (SMap.set k v m) = SMap.set k w m := by
  induction m with
  | nil => simp [SMap.set]
  | cons e m ih =>
    rw [SMap.set]
    split
    · rename_i h; rw [SMap.set, SMap.set]; simp [h]
    · split
      · rename_i h1 h2; subst h2; rw [SMap.set, SMap.set]; simp
      · rename_i h1 h2; rw [SMap.set, if_neg h1, if_neg h2, ih, SMap.set, if_neg h1, if_neg h2]

theorem SMap.find_set {α : Type} (v : α) (m : SMap α) (k j : Nat) :
    SMap.find (SMap.set k v m) j = if j = k then some v else SMap.find m j := by
  induction m with
  | nil => simp [SMap.set, SMap.find]
  | cons e m ih =>
    rw [SMap.set]
    split
    · rw [SMap.find]
    · split
      · rename_i h
        rw [SMap.find, SMap.find]
        split
        · rfl
        · rw [if_neg (by omega)]
      · rename_i h1 h2
        rw [SMap.find, ih, SMap.find]
        by_cases hj : j = e.1
        · rw [if_pos hj, if_neg (by omega), if_pos hj]
        · rw [if_neg hj, if_neg hj]

/-! ### Fields of the state -/

@[simp] theorem State.setCore_agenda (s : State) (c : CoreIx) (k : Core) : (s.setCore c k).agenda = s.agenda := rfl
@[simp] theorem State.setCore_tick (s : State) (c : CoreIx) (k : Core) : (s.setCore c k).tick = s.tick := rfl
@[simp] theorem State.setCore_later (s : State) (c : CoreIx) (k : Core) : (s.setCore c k).later = s.later := rfl
@[simp] theorem State.setCore_cur (s : State) (c : CoreIx) (k : Core) : (s.setCore c k).cur = s.cur := rfl
@[simp] theorem State.setCore_cycle (s : State) (c : CoreIx) (k : Core) : (s.setCore c k).cycle = s.cycle := rfl
@[simp] theorem State.setCore_idle (s : State) (c : CoreIx) (k : Core) : (s.setCore c k).idle = s.idle := rfl
@[simp] theorem State.setCore_clusters (s : State) (c : CoreIx) (k : Core) : (s.setCore c k).clusters = s.clusters := rfl
@[simp] theorem State.setCore_mem (s : State) (c : CoreIx) (k : Core) : (s.setCore c k).mem = s.mem := rfl
@[simp] theorem State.setCore_dir (s : State) (c : CoreIx) (k : Core) : (s.setCore c k).dir = s.dir := rfl
@[simp] theorem State.setCore_poison (s : State) (c : CoreIx) (k : Core) : (s.setCore c k).poison = s.poison := rfl
@[simp] theorem State.setCore_net (s : State) (c : CoreIx) (k : Core) : (s.setCore c k).net = s.net := rfl
@[simp] theorem State.setCore_links (s : State) (c : CoreIx) (k : Core) : (s.setCore c k).links = s.links := rfl
@[simp] theorem State.setCore_switches (s : State) (c : CoreIx) (k : Core) : (s.setCore c k).switches = s.switches := rfl
@[simp] theorem State.setCore_rr (s : State) (c : CoreIx) (k : Core) : (s.setCore c k).rr = s.rr := rfl
@[simp] theorem State.setCore_podOut (s : State) (c : CoreIx) (k : Core) : (s.setCore c k).podOut = s.podOut := rfl
@[simp] theorem State.setCore_ranges (s : State) (c : CoreIx) (k : Core) : (s.setCore c k).ranges = s.ranges := rfl
@[simp] theorem State.setCore_pcache (s : State) (c : CoreIx) (k : Core) : (s.setCore c k).pcache = s.pcache := rfl
@[simp] theorem State.setCore_park (s : State) (c : CoreIx) (k : Core) : (s.setCore c k).park = s.park := rfl
@[simp] theorem State.setCore_tparts (s : State) (c : CoreIx) (k : Core) : (s.setCore c k).tparts = s.tparts := rfl
@[simp] theorem State.setCore_ctc (s : State) (c : CoreIx) (k : Core) : (s.setCore c k).ctc = s.ctc := rfl
@[simp] theorem State.setCore_groups (s : State) (c : CoreIx) (k : Core) : (s.setCore c k).groups = s.groups := rfl
@[simp] theorem State.setCore_sysIn (s : State) (c : CoreIx) (k : Core) : (s.setCore c k).sysIn = s.sysIn := rfl
@[simp] theorem State.setCore_jobs (s : State) (c : CoreIx) (k : Core) : (s.setCore c k).jobs = s.jobs := rfl
@[simp] theorem State.setCore_launches (s : State) (c : CoreIx) (k : Core) : (s.setCore c k).launches = s.launches := rfl
@[simp] theorem State.setCore_store (s : State) (c : CoreIx) (k : Core) : (s.setCore c k).store = s.store := rfl
@[simp] theorem State.setCore_queues (s : State) (c : CoreIx) (k : Core) : (s.setCore c k).queues = s.queues := rfl
@[simp] theorem State.setCore_images (s : State) (c : CoreIx) (k : Core) : (s.setCore c k).images = s.images := rfl
@[simp] theorem State.setCore_slots (s : State) (c : CoreIx) (k : Core) : (s.setCore c k).slots = s.slots := rfl
@[simp] theorem State.setCore_cfg (s : State) (c : CoreIx) (k : Core) : (s.setCore c k).cfg = s.cfg := rfl
@[simp] theorem State.setCore_care (s : State) (c : CoreIx) (k : Core) : (s.setCore c k).care = s.care := rfl
@[simp] theorem State.setCore_ids (s : State) (c : CoreIx) (k : Core) : (s.setCore c k).ids = s.ids := rfl

@[simp] theorem State.modCore_agenda (s : State) (c : CoreIx) (f : Core → Core) : (s.modCore c f).agenda = s.agenda := rfl
@[simp] theorem State.modCore_tick (s : State) (c : CoreIx) (f : Core → Core) : (s.modCore c f).tick = s.tick := rfl
@[simp] theorem State.modCore_later (s : State) (c : CoreIx) (f : Core → Core) : (s.modCore c f).later = s.later := rfl
@[simp] theorem State.modCore_cur (s : State) (c : CoreIx) (f : Core → Core) : (s.modCore c f).cur = s.cur := rfl
@[simp] theorem State.modCore_cycle (s : State) (c : CoreIx) (f : Core → Core) : (s.modCore c f).cycle = s.cycle := rfl
@[simp] theorem State.modCore_idle (s : State) (c : CoreIx) (f : Core → Core) : (s.modCore c f).idle = s.idle := rfl
@[simp] theorem State.modCore_clusters (s : State) (c : CoreIx) (f : Core → Core) : (s.modCore c f).clusters = s.clusters := rfl
@[simp] theorem State.modCore_mem (s : State) (c : CoreIx) (f : Core → Core) : (s.modCore c f).mem = s.mem := rfl
@[simp] theorem State.modCore_dir (s : State) (c : CoreIx) (f : Core → Core) : (s.modCore c f).dir = s.dir := rfl
@[simp] theorem State.modCore_poison (s : State) (c : CoreIx) (f : Core → Core) : (s.modCore c f).poison = s.poison := rfl
@[simp] theorem State.modCore_net (s : State) (c : CoreIx) (f : Core → Core) : (s.modCore c f).net = s.net := rfl
@[simp] theorem State.modCore_links (s : State) (c : CoreIx) (f : Core → Core) : (s.modCore c f).links = s.links := rfl
@[simp] theorem State.modCore_switches (s : State) (c : CoreIx) (f : Core → Core) : (s.modCore c f).switches = s.switches := rfl
@[simp] theorem State.modCore_rr (s : State) (c : CoreIx) (f : Core → Core) : (s.modCore c f).rr = s.rr := rfl
@[simp] theorem State.modCore_podOut (s : State) (c : CoreIx) (f : Core → Core) : (s.modCore c f).podOut = s.podOut := rfl
@[simp] theorem State.modCore_ranges (s : State) (c : CoreIx) (f : Core → Core) : (s.modCore c f).ranges = s.ranges := rfl
@[simp] theorem State.modCore_pcache (s : State) (c : CoreIx) (f : Core → Core) : (s.modCore c f).pcache = s.pcache := rfl
@[simp] theorem State.modCore_park (s : State) (c : CoreIx) (f : Core → Core) : (s.modCore c f).park = s.park := rfl
@[simp] theorem State.modCore_tparts (s : State) (c : CoreIx) (f : Core → Core) : (s.modCore c f).tparts = s.tparts := rfl
@[simp] theorem State.modCore_ctc (s : State) (c : CoreIx) (f : Core → Core) : (s.modCore c f).ctc = s.ctc := rfl
@[simp] theorem State.modCore_groups (s : State) (c : CoreIx) (f : Core → Core) : (s.modCore c f).groups = s.groups := rfl
@[simp] theorem State.modCore_sysIn (s : State) (c : CoreIx) (f : Core → Core) : (s.modCore c f).sysIn = s.sysIn := rfl
@[simp] theorem State.modCore_jobs (s : State) (c : CoreIx) (f : Core → Core) : (s.modCore c f).jobs = s.jobs := rfl
@[simp] theorem State.modCore_launches (s : State) (c : CoreIx) (f : Core → Core) : (s.modCore c f).launches = s.launches := rfl
@[simp] theorem State.modCore_store (s : State) (c : CoreIx) (f : Core → Core) : (s.modCore c f).store = s.store := rfl
@[simp] theorem State.modCore_queues (s : State) (c : CoreIx) (f : Core → Core) : (s.modCore c f).queues = s.queues := rfl
@[simp] theorem State.modCore_images (s : State) (c : CoreIx) (f : Core → Core) : (s.modCore c f).images = s.images := rfl
@[simp] theorem State.modCore_slots (s : State) (c : CoreIx) (f : Core → Core) : (s.modCore c f).slots = s.slots := rfl
@[simp] theorem State.modCore_cfg (s : State) (c : CoreIx) (f : Core → Core) : (s.modCore c f).cfg = s.cfg := rfl
@[simp] theorem State.modCore_care (s : State) (c : CoreIx) (f : Core → Core) : (s.modCore c f).care = s.care := rfl
@[simp] theorem State.modCore_ids (s : State) (c : CoreIx) (f : Core → Core) : (s.modCore c f).ids = s.ids := rfl

@[simp] theorem State.putTh_agenda (s : State) (c : CoreIx) (t : ThrIx) (th : Thread) : (s.putTh c t th).agenda = s.agenda := rfl
@[simp] theorem State.putTh_tick (s : State) (c : CoreIx) (t : ThrIx) (th : Thread) : (s.putTh c t th).tick = s.tick := rfl
@[simp] theorem State.putTh_later (s : State) (c : CoreIx) (t : ThrIx) (th : Thread) : (s.putTh c t th).later = s.later := rfl
@[simp] theorem State.putTh_cur (s : State) (c : CoreIx) (t : ThrIx) (th : Thread) : (s.putTh c t th).cur = s.cur := rfl
@[simp] theorem State.putTh_cycle (s : State) (c : CoreIx) (t : ThrIx) (th : Thread) : (s.putTh c t th).cycle = s.cycle := rfl
@[simp] theorem State.putTh_idle (s : State) (c : CoreIx) (t : ThrIx) (th : Thread) : (s.putTh c t th).idle = s.idle := rfl
@[simp] theorem State.putTh_clusters (s : State) (c : CoreIx) (t : ThrIx) (th : Thread) : (s.putTh c t th).clusters = s.clusters := rfl
@[simp] theorem State.putTh_mem (s : State) (c : CoreIx) (t : ThrIx) (th : Thread) : (s.putTh c t th).mem = s.mem := rfl
@[simp] theorem State.putTh_dir (s : State) (c : CoreIx) (t : ThrIx) (th : Thread) : (s.putTh c t th).dir = s.dir := rfl
@[simp] theorem State.putTh_poison (s : State) (c : CoreIx) (t : ThrIx) (th : Thread) : (s.putTh c t th).poison = s.poison := rfl
@[simp] theorem State.putTh_net (s : State) (c : CoreIx) (t : ThrIx) (th : Thread) : (s.putTh c t th).net = s.net := rfl
@[simp] theorem State.putTh_links (s : State) (c : CoreIx) (t : ThrIx) (th : Thread) : (s.putTh c t th).links = s.links := rfl
@[simp] theorem State.putTh_switches (s : State) (c : CoreIx) (t : ThrIx) (th : Thread) : (s.putTh c t th).switches = s.switches := rfl
@[simp] theorem State.putTh_rr (s : State) (c : CoreIx) (t : ThrIx) (th : Thread) : (s.putTh c t th).rr = s.rr := rfl
@[simp] theorem State.putTh_podOut (s : State) (c : CoreIx) (t : ThrIx) (th : Thread) : (s.putTh c t th).podOut = s.podOut := rfl
@[simp] theorem State.putTh_ranges (s : State) (c : CoreIx) (t : ThrIx) (th : Thread) : (s.putTh c t th).ranges = s.ranges := rfl
@[simp] theorem State.putTh_pcache (s : State) (c : CoreIx) (t : ThrIx) (th : Thread) : (s.putTh c t th).pcache = s.pcache := rfl
@[simp] theorem State.putTh_park (s : State) (c : CoreIx) (t : ThrIx) (th : Thread) : (s.putTh c t th).park = s.park := rfl
@[simp] theorem State.putTh_tparts (s : State) (c : CoreIx) (t : ThrIx) (th : Thread) : (s.putTh c t th).tparts = s.tparts := rfl
@[simp] theorem State.putTh_ctc (s : State) (c : CoreIx) (t : ThrIx) (th : Thread) : (s.putTh c t th).ctc = s.ctc := rfl
@[simp] theorem State.putTh_groups (s : State) (c : CoreIx) (t : ThrIx) (th : Thread) : (s.putTh c t th).groups = s.groups := rfl
@[simp] theorem State.putTh_sysIn (s : State) (c : CoreIx) (t : ThrIx) (th : Thread) : (s.putTh c t th).sysIn = s.sysIn := rfl
@[simp] theorem State.putTh_jobs (s : State) (c : CoreIx) (t : ThrIx) (th : Thread) : (s.putTh c t th).jobs = s.jobs := rfl
@[simp] theorem State.putTh_launches (s : State) (c : CoreIx) (t : ThrIx) (th : Thread) : (s.putTh c t th).launches = s.launches := rfl
@[simp] theorem State.putTh_store (s : State) (c : CoreIx) (t : ThrIx) (th : Thread) : (s.putTh c t th).store = s.store := rfl
@[simp] theorem State.putTh_queues (s : State) (c : CoreIx) (t : ThrIx) (th : Thread) : (s.putTh c t th).queues = s.queues := rfl
@[simp] theorem State.putTh_images (s : State) (c : CoreIx) (t : ThrIx) (th : Thread) : (s.putTh c t th).images = s.images := rfl
@[simp] theorem State.putTh_slots (s : State) (c : CoreIx) (t : ThrIx) (th : Thread) : (s.putTh c t th).slots = s.slots := rfl
@[simp] theorem State.putTh_cfg (s : State) (c : CoreIx) (t : ThrIx) (th : Thread) : (s.putTh c t th).cfg = s.cfg := rfl
@[simp] theorem State.putTh_care (s : State) (c : CoreIx) (t : ThrIx) (th : Thread) : (s.putTh c t th).care = s.care := rfl
@[simp] theorem State.putTh_ids (s : State) (c : CoreIx) (t : ThrIx) (th : Thread) : (s.putTh c t th).ids = s.ids := rfl

@[simp] theorem State.modTh_agenda (s : State) (c : CoreIx) (t : ThrIx) (f : Thread → Thread) : (s.modTh c t f).agenda = s.agenda := rfl
@[simp] theorem State.modTh_tick (s : State) (c : CoreIx) (t : ThrIx) (f : Thread → Thread) : (s.modTh c t f).tick = s.tick := rfl
@[simp] theorem State.modTh_later (s : State) (c : CoreIx) (t : ThrIx) (f : Thread → Thread) : (s.modTh c t f).later = s.later := rfl
@[simp] theorem State.modTh_cur (s : State) (c : CoreIx) (t : ThrIx) (f : Thread → Thread) : (s.modTh c t f).cur = s.cur := rfl
@[simp] theorem State.modTh_cycle (s : State) (c : CoreIx) (t : ThrIx) (f : Thread → Thread) : (s.modTh c t f).cycle = s.cycle := rfl
@[simp] theorem State.modTh_idle (s : State) (c : CoreIx) (t : ThrIx) (f : Thread → Thread) : (s.modTh c t f).idle = s.idle := rfl
@[simp] theorem State.modTh_clusters (s : State) (c : CoreIx) (t : ThrIx) (f : Thread → Thread) : (s.modTh c t f).clusters = s.clusters := rfl
@[simp] theorem State.modTh_mem (s : State) (c : CoreIx) (t : ThrIx) (f : Thread → Thread) : (s.modTh c t f).mem = s.mem := rfl
@[simp] theorem State.modTh_dir (s : State) (c : CoreIx) (t : ThrIx) (f : Thread → Thread) : (s.modTh c t f).dir = s.dir := rfl
@[simp] theorem State.modTh_poison (s : State) (c : CoreIx) (t : ThrIx) (f : Thread → Thread) : (s.modTh c t f).poison = s.poison := rfl
@[simp] theorem State.modTh_net (s : State) (c : CoreIx) (t : ThrIx) (f : Thread → Thread) : (s.modTh c t f).net = s.net := rfl
@[simp] theorem State.modTh_links (s : State) (c : CoreIx) (t : ThrIx) (f : Thread → Thread) : (s.modTh c t f).links = s.links := rfl
@[simp] theorem State.modTh_switches (s : State) (c : CoreIx) (t : ThrIx) (f : Thread → Thread) : (s.modTh c t f).switches = s.switches := rfl
@[simp] theorem State.modTh_rr (s : State) (c : CoreIx) (t : ThrIx) (f : Thread → Thread) : (s.modTh c t f).rr = s.rr := rfl
@[simp] theorem State.modTh_podOut (s : State) (c : CoreIx) (t : ThrIx) (f : Thread → Thread) : (s.modTh c t f).podOut = s.podOut := rfl
@[simp] theorem State.modTh_ranges (s : State) (c : CoreIx) (t : ThrIx) (f : Thread → Thread) : (s.modTh c t f).ranges = s.ranges := rfl
@[simp] theorem State.modTh_pcache (s : State) (c : CoreIx) (t : ThrIx) (f : Thread → Thread) : (s.modTh c t f).pcache = s.pcache := rfl
@[simp] theorem State.modTh_park (s : State) (c : CoreIx) (t : ThrIx) (f : Thread → Thread) : (s.modTh c t f).park = s.park := rfl
@[simp] theorem State.modTh_tparts (s : State) (c : CoreIx) (t : ThrIx) (f : Thread → Thread) : (s.modTh c t f).tparts = s.tparts := rfl
@[simp] theorem State.modTh_ctc (s : State) (c : CoreIx) (t : ThrIx) (f : Thread → Thread) : (s.modTh c t f).ctc = s.ctc := rfl
@[simp] theorem State.modTh_groups (s : State) (c : CoreIx) (t : ThrIx) (f : Thread → Thread) : (s.modTh c t f).groups = s.groups := rfl
@[simp] theorem State.modTh_sysIn (s : State) (c : CoreIx) (t : ThrIx) (f : Thread → Thread) : (s.modTh c t f).sysIn = s.sysIn := rfl
@[simp] theorem State.modTh_jobs (s : State) (c : CoreIx) (t : ThrIx) (f : Thread → Thread) : (s.modTh c t f).jobs = s.jobs := rfl
@[simp] theorem State.modTh_launches (s : State) (c : CoreIx) (t : ThrIx) (f : Thread → Thread) : (s.modTh c t f).launches = s.launches := rfl
@[simp] theorem State.modTh_store (s : State) (c : CoreIx) (t : ThrIx) (f : Thread → Thread) : (s.modTh c t f).store = s.store := rfl
@[simp] theorem State.modTh_queues (s : State) (c : CoreIx) (t : ThrIx) (f : Thread → Thread) : (s.modTh c t f).queues = s.queues := rfl
@[simp] theorem State.modTh_images (s : State) (c : CoreIx) (t : ThrIx) (f : Thread → Thread) : (s.modTh c t f).images = s.images := rfl
@[simp] theorem State.modTh_slots (s : State) (c : CoreIx) (t : ThrIx) (f : Thread → Thread) : (s.modTh c t f).slots = s.slots := rfl
@[simp] theorem State.modTh_cfg (s : State) (c : CoreIx) (t : ThrIx) (f : Thread → Thread) : (s.modTh c t f).cfg = s.cfg := rfl
@[simp] theorem State.modTh_care (s : State) (c : CoreIx) (t : ThrIx) (f : Thread → Thread) : (s.modTh c t f).care = s.care := rfl
@[simp] theorem State.modTh_ids (s : State) (c : CoreIx) (t : ThrIx) (f : Thread → Thread) : (s.modTh c t f).ids = s.ids := rfl

@[simp] theorem State.setTh_agenda (s : State) (th : Thread) : (s.setTh th).agenda = s.agenda := rfl
@[simp] theorem State.setTh_tick (s : State) (th : Thread) : (s.setTh th).tick = s.tick := rfl
@[simp] theorem State.setTh_later (s : State) (th : Thread) : (s.setTh th).later = s.later := rfl
@[simp] theorem State.setTh_cur (s : State) (th : Thread) : (s.setTh th).cur = s.cur := rfl
@[simp] theorem State.setTh_cycle (s : State) (th : Thread) : (s.setTh th).cycle = s.cycle := rfl
@[simp] theorem State.setTh_idle (s : State) (th : Thread) : (s.setTh th).idle = s.idle := rfl
@[simp] theorem State.setTh_clusters (s : State) (th : Thread) : (s.setTh th).clusters = s.clusters := rfl
@[simp] theorem State.setTh_mem (s : State) (th : Thread) : (s.setTh th).mem = s.mem := rfl
@[simp] theorem State.setTh_dir (s : State) (th : Thread) : (s.setTh th).dir = s.dir := rfl
@[simp] theorem State.setTh_poison (s : State) (th : Thread) : (s.setTh th).poison = s.poison := rfl
@[simp] theorem State.setTh_net (s : State) (th : Thread) : (s.setTh th).net = s.net := rfl
@[simp] theorem State.setTh_links (s : State) (th : Thread) : (s.setTh th).links = s.links := rfl
@[simp] theorem State.setTh_switches (s : State) (th : Thread) : (s.setTh th).switches = s.switches := rfl
@[simp] theorem State.setTh_rr (s : State) (th : Thread) : (s.setTh th).rr = s.rr := rfl
@[simp] theorem State.setTh_podOut (s : State) (th : Thread) : (s.setTh th).podOut = s.podOut := rfl
@[simp] theorem State.setTh_ranges (s : State) (th : Thread) : (s.setTh th).ranges = s.ranges := rfl
@[simp] theorem State.setTh_pcache (s : State) (th : Thread) : (s.setTh th).pcache = s.pcache := rfl
@[simp] theorem State.setTh_park (s : State) (th : Thread) : (s.setTh th).park = s.park := rfl
@[simp] theorem State.setTh_tparts (s : State) (th : Thread) : (s.setTh th).tparts = s.tparts := rfl
@[simp] theorem State.setTh_ctc (s : State) (th : Thread) : (s.setTh th).ctc = s.ctc := rfl
@[simp] theorem State.setTh_groups (s : State) (th : Thread) : (s.setTh th).groups = s.groups := rfl
@[simp] theorem State.setTh_sysIn (s : State) (th : Thread) : (s.setTh th).sysIn = s.sysIn := rfl
@[simp] theorem State.setTh_jobs (s : State) (th : Thread) : (s.setTh th).jobs = s.jobs := rfl
@[simp] theorem State.setTh_launches (s : State) (th : Thread) : (s.setTh th).launches = s.launches := rfl
@[simp] theorem State.setTh_store (s : State) (th : Thread) : (s.setTh th).store = s.store := rfl
@[simp] theorem State.setTh_queues (s : State) (th : Thread) : (s.setTh th).queues = s.queues := rfl
@[simp] theorem State.setTh_images (s : State) (th : Thread) : (s.setTh th).images = s.images := rfl
@[simp] theorem State.setTh_slots (s : State) (th : Thread) : (s.setTh th).slots = s.slots := rfl
@[simp] theorem State.setTh_cfg (s : State) (th : Thread) : (s.setTh th).cfg = s.cfg := rfl
@[simp] theorem State.setTh_care (s : State) (th : Thread) : (s.setTh th).care = s.care := rfl
@[simp] theorem State.setTh_ids (s : State) (th : Thread) : (s.setTh th).ids = s.ids := rfl

@[simp] theorem State.modK_agenda (s : State) (f : Core → Core) : (s.modK f).agenda = s.agenda := rfl
@[simp] theorem State.modK_tick (s : State) (f : Core → Core) : (s.modK f).tick = s.tick := rfl
@[simp] theorem State.modK_later (s : State) (f : Core → Core) : (s.modK f).later = s.later := rfl
@[simp] theorem State.modK_cur (s : State) (f : Core → Core) : (s.modK f).cur = s.cur := rfl
@[simp] theorem State.modK_cycle (s : State) (f : Core → Core) : (s.modK f).cycle = s.cycle := rfl
@[simp] theorem State.modK_idle (s : State) (f : Core → Core) : (s.modK f).idle = s.idle := rfl
@[simp] theorem State.modK_clusters (s : State) (f : Core → Core) : (s.modK f).clusters = s.clusters := rfl
@[simp] theorem State.modK_mem (s : State) (f : Core → Core) : (s.modK f).mem = s.mem := rfl
@[simp] theorem State.modK_dir (s : State) (f : Core → Core) : (s.modK f).dir = s.dir := rfl
@[simp] theorem State.modK_poison (s : State) (f : Core → Core) : (s.modK f).poison = s.poison := rfl
@[simp] theorem State.modK_net (s : State) (f : Core → Core) : (s.modK f).net = s.net := rfl
@[simp] theorem State.modK_links (s : State) (f : Core → Core) : (s.modK f).links = s.links := rfl
@[simp] theorem State.modK_switches (s : State) (f : Core → Core) : (s.modK f).switches = s.switches := rfl
@[simp] theorem State.modK_rr (s : State) (f : Core → Core) : (s.modK f).rr = s.rr := rfl
@[simp] theorem State.modK_podOut (s : State) (f : Core → Core) : (s.modK f).podOut = s.podOut := rfl
@[simp] theorem State.modK_ranges (s : State) (f : Core → Core) : (s.modK f).ranges = s.ranges := rfl
@[simp] theorem State.modK_pcache (s : State) (f : Core → Core) : (s.modK f).pcache = s.pcache := rfl
@[simp] theorem State.modK_park (s : State) (f : Core → Core) : (s.modK f).park = s.park := rfl
@[simp] theorem State.modK_tparts (s : State) (f : Core → Core) : (s.modK f).tparts = s.tparts := rfl
@[simp] theorem State.modK_ctc (s : State) (f : Core → Core) : (s.modK f).ctc = s.ctc := rfl
@[simp] theorem State.modK_groups (s : State) (f : Core → Core) : (s.modK f).groups = s.groups := rfl
@[simp] theorem State.modK_sysIn (s : State) (f : Core → Core) : (s.modK f).sysIn = s.sysIn := rfl
@[simp] theorem State.modK_jobs (s : State) (f : Core → Core) : (s.modK f).jobs = s.jobs := rfl
@[simp] theorem State.modK_launches (s : State) (f : Core → Core) : (s.modK f).launches = s.launches := rfl
@[simp] theorem State.modK_store (s : State) (f : Core → Core) : (s.modK f).store = s.store := rfl
@[simp] theorem State.modK_queues (s : State) (f : Core → Core) : (s.modK f).queues = s.queues := rfl
@[simp] theorem State.modK_images (s : State) (f : Core → Core) : (s.modK f).images = s.images := rfl
@[simp] theorem State.modK_slots (s : State) (f : Core → Core) : (s.modK f).slots = s.slots := rfl
@[simp] theorem State.modK_cfg (s : State) (f : Core → Core) : (s.modK f).cfg = s.cfg := rfl
@[simp] theorem State.modK_care (s : State) (f : Core → Core) : (s.modK f).care = s.care := rfl
@[simp] theorem State.modK_ids (s : State) (f : Core → Core) : (s.modK f).ids = s.ids := rfl

@[simp] theorem State.setCluster_agenda (s : State) (cl : BitVec 8) (k : Cluster) : (s.setCluster cl k).agenda = s.agenda := rfl
@[simp] theorem State.setCluster_tick (s : State) (cl : BitVec 8) (k : Cluster) : (s.setCluster cl k).tick = s.tick := rfl
@[simp] theorem State.setCluster_later (s : State) (cl : BitVec 8) (k : Cluster) : (s.setCluster cl k).later = s.later := rfl
@[simp] theorem State.setCluster_cur (s : State) (cl : BitVec 8) (k : Cluster) : (s.setCluster cl k).cur = s.cur := rfl
@[simp] theorem State.setCluster_cycle (s : State) (cl : BitVec 8) (k : Cluster) : (s.setCluster cl k).cycle = s.cycle := rfl
@[simp] theorem State.setCluster_cores (s : State) (cl : BitVec 8) (k : Cluster) : (s.setCluster cl k).cores = s.cores := rfl
@[simp] theorem State.setCluster_idle (s : State) (cl : BitVec 8) (k : Cluster) : (s.setCluster cl k).idle = s.idle := rfl
@[simp] theorem State.setCluster_mem (s : State) (cl : BitVec 8) (k : Cluster) : (s.setCluster cl k).mem = s.mem := rfl
@[simp] theorem State.setCluster_dir (s : State) (cl : BitVec 8) (k : Cluster) : (s.setCluster cl k).dir = s.dir := rfl
@[simp] theorem State.setCluster_poison (s : State) (cl : BitVec 8) (k : Cluster) : (s.setCluster cl k).poison = s.poison := rfl
@[simp] theorem State.setCluster_net (s : State) (cl : BitVec 8) (k : Cluster) : (s.setCluster cl k).net = s.net := rfl
@[simp] theorem State.setCluster_links (s : State) (cl : BitVec 8) (k : Cluster) : (s.setCluster cl k).links = s.links := rfl
@[simp] theorem State.setCluster_switches (s : State) (cl : BitVec 8) (k : Cluster) : (s.setCluster cl k).switches = s.switches := rfl
@[simp] theorem State.setCluster_rr (s : State) (cl : BitVec 8) (k : Cluster) : (s.setCluster cl k).rr = s.rr := rfl
@[simp] theorem State.setCluster_podOut (s : State) (cl : BitVec 8) (k : Cluster) : (s.setCluster cl k).podOut = s.podOut := rfl
@[simp] theorem State.setCluster_ranges (s : State) (cl : BitVec 8) (k : Cluster) : (s.setCluster cl k).ranges = s.ranges := rfl
@[simp] theorem State.setCluster_pcache (s : State) (cl : BitVec 8) (k : Cluster) : (s.setCluster cl k).pcache = s.pcache := rfl
@[simp] theorem State.setCluster_park (s : State) (cl : BitVec 8) (k : Cluster) : (s.setCluster cl k).park = s.park := rfl
@[simp] theorem State.setCluster_tparts (s : State) (cl : BitVec 8) (k : Cluster) : (s.setCluster cl k).tparts = s.tparts := rfl
@[simp] theorem State.setCluster_ctc (s : State) (cl : BitVec 8) (k : Cluster) : (s.setCluster cl k).ctc = s.ctc := rfl
@[simp] theorem State.setCluster_groups (s : State) (cl : BitVec 8) (k : Cluster) : (s.setCluster cl k).groups = s.groups := rfl
@[simp] theorem State.setCluster_sysIn (s : State) (cl : BitVec 8) (k : Cluster) : (s.setCluster cl k).sysIn = s.sysIn := rfl
@[simp] theorem State.setCluster_jobs (s : State) (cl : BitVec 8) (k : Cluster) : (s.setCluster cl k).jobs = s.jobs := rfl
@[simp] theorem State.setCluster_launches (s : State) (cl : BitVec 8) (k : Cluster) : (s.setCluster cl k).launches = s.launches := rfl
@[simp] theorem State.setCluster_store (s : State) (cl : BitVec 8) (k : Cluster) : (s.setCluster cl k).store = s.store := rfl
@[simp] theorem State.setCluster_queues (s : State) (cl : BitVec 8) (k : Cluster) : (s.setCluster cl k).queues = s.queues := rfl
@[simp] theorem State.setCluster_images (s : State) (cl : BitVec 8) (k : Cluster) : (s.setCluster cl k).images = s.images := rfl
@[simp] theorem State.setCluster_slots (s : State) (cl : BitVec 8) (k : Cluster) : (s.setCluster cl k).slots = s.slots := rfl
@[simp] theorem State.setCluster_cfg (s : State) (cl : BitVec 8) (k : Cluster) : (s.setCluster cl k).cfg = s.cfg := rfl
@[simp] theorem State.setCluster_care (s : State) (cl : BitVec 8) (k : Cluster) : (s.setCluster cl k).care = s.care := rfl
@[simp] theorem State.setCluster_ids (s : State) (cl : BitVec 8) (k : Cluster) : (s.setCluster cl k).ids = s.ids := rfl

@[simp] theorem State.modCluster_agenda (s : State) (cl : BitVec 8) (f : Cluster → Cluster) : (s.modCluster cl f).agenda = s.agenda := rfl
@[simp] theorem State.modCluster_tick (s : State) (cl : BitVec 8) (f : Cluster → Cluster) : (s.modCluster cl f).tick = s.tick := rfl
@[simp] theorem State.modCluster_later (s : State) (cl : BitVec 8) (f : Cluster → Cluster) : (s.modCluster cl f).later = s.later := rfl
@[simp] theorem State.modCluster_cur (s : State) (cl : BitVec 8) (f : Cluster → Cluster) : (s.modCluster cl f).cur = s.cur := rfl
@[simp] theorem State.modCluster_cycle (s : State) (cl : BitVec 8) (f : Cluster → Cluster) : (s.modCluster cl f).cycle = s.cycle := rfl
@[simp] theorem State.modCluster_cores (s : State) (cl : BitVec 8) (f : Cluster → Cluster) : (s.modCluster cl f).cores = s.cores := rfl
@[simp] theorem State.modCluster_idle (s : State) (cl : BitVec 8) (f : Cluster → Cluster) : (s.modCluster cl f).idle = s.idle := rfl
@[simp] theorem State.modCluster_mem (s : State) (cl : BitVec 8) (f : Cluster → Cluster) : (s.modCluster cl f).mem = s.mem := rfl
@[simp] theorem State.modCluster_dir (s : State) (cl : BitVec 8) (f : Cluster → Cluster) : (s.modCluster cl f).dir = s.dir := rfl
@[simp] theorem State.modCluster_poison (s : State) (cl : BitVec 8) (f : Cluster → Cluster) : (s.modCluster cl f).poison = s.poison := rfl
@[simp] theorem State.modCluster_net (s : State) (cl : BitVec 8) (f : Cluster → Cluster) : (s.modCluster cl f).net = s.net := rfl
@[simp] theorem State.modCluster_links (s : State) (cl : BitVec 8) (f : Cluster → Cluster) : (s.modCluster cl f).links = s.links := rfl
@[simp] theorem State.modCluster_switches (s : State) (cl : BitVec 8) (f : Cluster → Cluster) : (s.modCluster cl f).switches = s.switches := rfl
@[simp] theorem State.modCluster_rr (s : State) (cl : BitVec 8) (f : Cluster → Cluster) : (s.modCluster cl f).rr = s.rr := rfl
@[simp] theorem State.modCluster_podOut (s : State) (cl : BitVec 8) (f : Cluster → Cluster) : (s.modCluster cl f).podOut = s.podOut := rfl
@[simp] theorem State.modCluster_ranges (s : State) (cl : BitVec 8) (f : Cluster → Cluster) : (s.modCluster cl f).ranges = s.ranges := rfl
@[simp] theorem State.modCluster_pcache (s : State) (cl : BitVec 8) (f : Cluster → Cluster) : (s.modCluster cl f).pcache = s.pcache := rfl
@[simp] theorem State.modCluster_park (s : State) (cl : BitVec 8) (f : Cluster → Cluster) : (s.modCluster cl f).park = s.park := rfl
@[simp] theorem State.modCluster_tparts (s : State) (cl : BitVec 8) (f : Cluster → Cluster) : (s.modCluster cl f).tparts = s.tparts := rfl
@[simp] theorem State.modCluster_ctc (s : State) (cl : BitVec 8) (f : Cluster → Cluster) : (s.modCluster cl f).ctc = s.ctc := rfl
@[simp] theorem State.modCluster_groups (s : State) (cl : BitVec 8) (f : Cluster → Cluster) : (s.modCluster cl f).groups = s.groups := rfl
@[simp] theorem State.modCluster_sysIn (s : State) (cl : BitVec 8) (f : Cluster → Cluster) : (s.modCluster cl f).sysIn = s.sysIn := rfl
@[simp] theorem State.modCluster_jobs (s : State) (cl : BitVec 8) (f : Cluster → Cluster) : (s.modCluster cl f).jobs = s.jobs := rfl
@[simp] theorem State.modCluster_launches (s : State) (cl : BitVec 8) (f : Cluster → Cluster) : (s.modCluster cl f).launches = s.launches := rfl
@[simp] theorem State.modCluster_store (s : State) (cl : BitVec 8) (f : Cluster → Cluster) : (s.modCluster cl f).store = s.store := rfl
@[simp] theorem State.modCluster_queues (s : State) (cl : BitVec 8) (f : Cluster → Cluster) : (s.modCluster cl f).queues = s.queues := rfl
@[simp] theorem State.modCluster_images (s : State) (cl : BitVec 8) (f : Cluster → Cluster) : (s.modCluster cl f).images = s.images := rfl
@[simp] theorem State.modCluster_slots (s : State) (cl : BitVec 8) (f : Cluster → Cluster) : (s.modCluster cl f).slots = s.slots := rfl
@[simp] theorem State.modCluster_cfg (s : State) (cl : BitVec 8) (f : Cluster → Cluster) : (s.modCluster cl f).cfg = s.cfg := rfl
@[simp] theorem State.modCluster_care (s : State) (cl : BitVec 8) (f : Cluster → Cluster) : (s.modCluster cl f).care = s.care := rfl
@[simp] theorem State.modCluster_ids (s : State) (cl : BitVec 8) (f : Cluster → Cluster) : (s.modCluster cl f).ids = s.ids := rfl

@[simp] theorem State.launch_agenda (s : State) (f : Flight) : (s.launch f).agenda = s.agenda := rfl
@[simp] theorem State.launch_tick (s : State) (f : Flight) : (s.launch f).tick = s.tick := rfl
@[simp] theorem State.launch_later (s : State) (f : Flight) : (s.launch f).later = s.later := rfl
@[simp] theorem State.launch_cur (s : State) (f : Flight) : (s.launch f).cur = s.cur := rfl
@[simp] theorem State.launch_cycle (s : State) (f : Flight) : (s.launch f).cycle = s.cycle := rfl
@[simp] theorem State.launch_cores (s : State) (f : Flight) : (s.launch f).cores = s.cores := rfl
@[simp] theorem State.launch_idle (s : State) (f : Flight) : (s.launch f).idle = s.idle := rfl
@[simp] theorem State.launch_clusters (s : State) (f : Flight) : (s.launch f).clusters = s.clusters := rfl
@[simp] theorem State.launch_mem (s : State) (f : Flight) : (s.launch f).mem = s.mem := rfl
@[simp] theorem State.launch_dir (s : State) (f : Flight) : (s.launch f).dir = s.dir := rfl
@[simp] theorem State.launch_poison (s : State) (f : Flight) : (s.launch f).poison = s.poison := rfl
@[simp] theorem State.launch_links (s : State) (f : Flight) : (s.launch f).links = s.links := rfl
@[simp] theorem State.launch_switches (s : State) (f : Flight) : (s.launch f).switches = s.switches := rfl
@[simp] theorem State.launch_rr (s : State) (f : Flight) : (s.launch f).rr = s.rr := rfl
@[simp] theorem State.launch_podOut (s : State) (f : Flight) : (s.launch f).podOut = s.podOut := rfl
@[simp] theorem State.launch_ranges (s : State) (f : Flight) : (s.launch f).ranges = s.ranges := rfl
@[simp] theorem State.launch_pcache (s : State) (f : Flight) : (s.launch f).pcache = s.pcache := rfl
@[simp] theorem State.launch_park (s : State) (f : Flight) : (s.launch f).park = s.park := rfl
@[simp] theorem State.launch_tparts (s : State) (f : Flight) : (s.launch f).tparts = s.tparts := rfl
@[simp] theorem State.launch_ctc (s : State) (f : Flight) : (s.launch f).ctc = s.ctc := rfl
@[simp] theorem State.launch_groups (s : State) (f : Flight) : (s.launch f).groups = s.groups := rfl
@[simp] theorem State.launch_sysIn (s : State) (f : Flight) : (s.launch f).sysIn = s.sysIn := rfl
@[simp] theorem State.launch_jobs (s : State) (f : Flight) : (s.launch f).jobs = s.jobs := rfl
@[simp] theorem State.launch_launches (s : State) (f : Flight) : (s.launch f).launches = s.launches := rfl
@[simp] theorem State.launch_store (s : State) (f : Flight) : (s.launch f).store = s.store := rfl
@[simp] theorem State.launch_queues (s : State) (f : Flight) : (s.launch f).queues = s.queues := rfl
@[simp] theorem State.launch_images (s : State) (f : Flight) : (s.launch f).images = s.images := rfl
@[simp] theorem State.launch_slots (s : State) (f : Flight) : (s.launch f).slots = s.slots := rfl
@[simp] theorem State.launch_cfg (s : State) (f : Flight) : (s.launch f).cfg = s.cfg := rfl
@[simp] theorem State.launch_care (s : State) (f : Flight) : (s.launch f).care = s.care := rfl
@[simp] theorem State.launch_ids (s : State) (f : Flight) : (s.launch f).ids = s.ids := rfl

@[simp] theorem State.putBytes_agenda (s : State) (p : Nat) (bs : List Byte) : (s.putBytes p bs).agenda = s.agenda := rfl
@[simp] theorem State.putBytes_tick (s : State) (p : Nat) (bs : List Byte) : (s.putBytes p bs).tick = s.tick := rfl
@[simp] theorem State.putBytes_later (s : State) (p : Nat) (bs : List Byte) : (s.putBytes p bs).later = s.later := rfl
@[simp] theorem State.putBytes_cur (s : State) (p : Nat) (bs : List Byte) : (s.putBytes p bs).cur = s.cur := rfl
@[simp] theorem State.putBytes_cycle (s : State) (p : Nat) (bs : List Byte) : (s.putBytes p bs).cycle = s.cycle := rfl
@[simp] theorem State.putBytes_cores (s : State) (p : Nat) (bs : List Byte) : (s.putBytes p bs).cores = s.cores := rfl
@[simp] theorem State.putBytes_idle (s : State) (p : Nat) (bs : List Byte) : (s.putBytes p bs).idle = s.idle := rfl
@[simp] theorem State.putBytes_clusters (s : State) (p : Nat) (bs : List Byte) : (s.putBytes p bs).clusters = s.clusters := rfl
@[simp] theorem State.putBytes_dir (s : State) (p : Nat) (bs : List Byte) : (s.putBytes p bs).dir = s.dir := rfl
@[simp] theorem State.putBytes_poison (s : State) (p : Nat) (bs : List Byte) : (s.putBytes p bs).poison = s.poison := rfl
@[simp] theorem State.putBytes_net (s : State) (p : Nat) (bs : List Byte) : (s.putBytes p bs).net = s.net := rfl
@[simp] theorem State.putBytes_links (s : State) (p : Nat) (bs : List Byte) : (s.putBytes p bs).links = s.links := rfl
@[simp] theorem State.putBytes_switches (s : State) (p : Nat) (bs : List Byte) : (s.putBytes p bs).switches = s.switches := rfl
@[simp] theorem State.putBytes_rr (s : State) (p : Nat) (bs : List Byte) : (s.putBytes p bs).rr = s.rr := rfl
@[simp] theorem State.putBytes_podOut (s : State) (p : Nat) (bs : List Byte) : (s.putBytes p bs).podOut = s.podOut := rfl
@[simp] theorem State.putBytes_ranges (s : State) (p : Nat) (bs : List Byte) : (s.putBytes p bs).ranges = s.ranges := rfl
@[simp] theorem State.putBytes_pcache (s : State) (p : Nat) (bs : List Byte) : (s.putBytes p bs).pcache = s.pcache := rfl
@[simp] theorem State.putBytes_park (s : State) (p : Nat) (bs : List Byte) : (s.putBytes p bs).park = s.park := rfl
@[simp] theorem State.putBytes_tparts (s : State) (p : Nat) (bs : List Byte) : (s.putBytes p bs).tparts = s.tparts := rfl
@[simp] theorem State.putBytes_ctc (s : State) (p : Nat) (bs : List Byte) : (s.putBytes p bs).ctc = s.ctc := rfl
@[simp] theorem State.putBytes_groups (s : State) (p : Nat) (bs : List Byte) : (s.putBytes p bs).groups = s.groups := rfl
@[simp] theorem State.putBytes_sysIn (s : State) (p : Nat) (bs : List Byte) : (s.putBytes p bs).sysIn = s.sysIn := rfl
@[simp] theorem State.putBytes_jobs (s : State) (p : Nat) (bs : List Byte) : (s.putBytes p bs).jobs = s.jobs := rfl
@[simp] theorem State.putBytes_launches (s : State) (p : Nat) (bs : List Byte) : (s.putBytes p bs).launches = s.launches := rfl
@[simp] theorem State.putBytes_store (s : State) (p : Nat) (bs : List Byte) : (s.putBytes p bs).store = s.store := rfl
@[simp] theorem State.putBytes_queues (s : State) (p : Nat) (bs : List Byte) : (s.putBytes p bs).queues = s.queues := rfl
@[simp] theorem State.putBytes_images (s : State) (p : Nat) (bs : List Byte) : (s.putBytes p bs).images = s.images := rfl
@[simp] theorem State.putBytes_slots (s : State) (p : Nat) (bs : List Byte) : (s.putBytes p bs).slots = s.slots := rfl
@[simp] theorem State.putBytes_cfg (s : State) (p : Nat) (bs : List Byte) : (s.putBytes p bs).cfg = s.cfg := rfl
@[simp] theorem State.putBytes_care (s : State) (p : Nat) (bs : List Byte) : (s.putBytes p bs).care = s.care := rfl
@[simp] theorem State.putBytes_ids (s : State) (p : Nat) (bs : List Byte) : (s.putBytes p bs).ids = s.ids := rfl

@[simp] theorem State.setEntry_agenda (s : State) (p : Nat) (e : Word) : (s.setEntry p e).agenda = s.agenda := rfl
@[simp] theorem State.setEntry_tick (s : State) (p : Nat) (e : Word) : (s.setEntry p e).tick = s.tick := rfl
@[simp] theorem State.setEntry_later (s : State) (p : Nat) (e : Word) : (s.setEntry p e).later = s.later := rfl
@[simp] theorem State.setEntry_cur (s : State) (p : Nat) (e : Word) : (s.setEntry p e).cur = s.cur := rfl
@[simp] theorem State.setEntry_cycle (s : State) (p : Nat) (e : Word) : (s.setEntry p e).cycle = s.cycle := rfl
@[simp] theorem State.setEntry_cores (s : State) (p : Nat) (e : Word) : (s.setEntry p e).cores = s.cores := rfl
@[simp] theorem State.setEntry_idle (s : State) (p : Nat) (e : Word) : (s.setEntry p e).idle = s.idle := rfl
@[simp] theorem State.setEntry_clusters (s : State) (p : Nat) (e : Word) : (s.setEntry p e).clusters = s.clusters := rfl
@[simp] theorem State.setEntry_mem (s : State) (p : Nat) (e : Word) : (s.setEntry p e).mem = s.mem := rfl
@[simp] theorem State.setEntry_poison (s : State) (p : Nat) (e : Word) : (s.setEntry p e).poison = s.poison := rfl
@[simp] theorem State.setEntry_net (s : State) (p : Nat) (e : Word) : (s.setEntry p e).net = s.net := rfl
@[simp] theorem State.setEntry_links (s : State) (p : Nat) (e : Word) : (s.setEntry p e).links = s.links := rfl
@[simp] theorem State.setEntry_switches (s : State) (p : Nat) (e : Word) : (s.setEntry p e).switches = s.switches := rfl
@[simp] theorem State.setEntry_rr (s : State) (p : Nat) (e : Word) : (s.setEntry p e).rr = s.rr := rfl
@[simp] theorem State.setEntry_podOut (s : State) (p : Nat) (e : Word) : (s.setEntry p e).podOut = s.podOut := rfl
@[simp] theorem State.setEntry_ranges (s : State) (p : Nat) (e : Word) : (s.setEntry p e).ranges = s.ranges := rfl
@[simp] theorem State.setEntry_pcache (s : State) (p : Nat) (e : Word) : (s.setEntry p e).pcache = s.pcache := rfl
@[simp] theorem State.setEntry_park (s : State) (p : Nat) (e : Word) : (s.setEntry p e).park = s.park := rfl
@[simp] theorem State.setEntry_tparts (s : State) (p : Nat) (e : Word) : (s.setEntry p e).tparts = s.tparts := rfl
@[simp] theorem State.setEntry_ctc (s : State) (p : Nat) (e : Word) : (s.setEntry p e).ctc = s.ctc := rfl
@[simp] theorem State.setEntry_groups (s : State) (p : Nat) (e : Word) : (s.setEntry p e).groups = s.groups := rfl
@[simp] theorem State.setEntry_sysIn (s : State) (p : Nat) (e : Word) : (s.setEntry p e).sysIn = s.sysIn := rfl
@[simp] theorem State.setEntry_jobs (s : State) (p : Nat) (e : Word) : (s.setEntry p e).jobs = s.jobs := rfl
@[simp] theorem State.setEntry_launches (s : State) (p : Nat) (e : Word) : (s.setEntry p e).launches = s.launches := rfl
@[simp] theorem State.setEntry_store (s : State) (p : Nat) (e : Word) : (s.setEntry p e).store = s.store := rfl
@[simp] theorem State.setEntry_queues (s : State) (p : Nat) (e : Word) : (s.setEntry p e).queues = s.queues := rfl
@[simp] theorem State.setEntry_images (s : State) (p : Nat) (e : Word) : (s.setEntry p e).images = s.images := rfl
@[simp] theorem State.setEntry_slots (s : State) (p : Nat) (e : Word) : (s.setEntry p e).slots = s.slots := rfl
@[simp] theorem State.setEntry_cfg (s : State) (p : Nat) (e : Word) : (s.setEntry p e).cfg = s.cfg := rfl
@[simp] theorem State.setEntry_care (s : State) (p : Nat) (e : Word) : (s.setEntry p e).care = s.care := rfl
@[simp] theorem State.setEntry_ids (s : State) (p : Nat) (e : Word) : (s.setEntry p e).ids = s.ids := rfl

/-! ### Cores, threads and clusters after an update -/

@[simp] theorem State.core_setCore (s : State) (c : CoreIx) (k : Core) : (s.setCore c k).core c = k := by
  simp [State.core, State.setCore]

theorem State.core_setCore_ne (s : State) {c d : CoreIx} (k : Core) (h : d ≠ c) : (s.setCore c k).core d = s.core d := by
  simp only [State.core, State.setCore]
  exact SMap.get_set_ne _ _ _ fun e => h (BitVec.eq_of_toNat_eq e)

@[simp] theorem State.core_modCore (s : State) (c : CoreIx) (f : Core → Core) : (s.modCore c f).core c = f (s.core c) := by
  simp [State.modCore]

theorem State.core_modCore_ne (s : State) {c d : CoreIx} (f : Core → Core) (h : d ≠ c) : (s.modCore c f).core d = s.core d :=
  State.core_setCore_ne s _ h

@[simp] theorem State.cluster_setCluster (s : State) (c : BitVec 8) (k : Cluster) : (s.setCluster c k).cluster c = k := by
  simp [State.cluster, State.setCluster]

theorem State.cluster_setCluster_ne (s : State) {c d : BitVec 8} (k : Cluster) (h : d ≠ c) :
    (s.setCluster c k).cluster d = s.cluster d := by
  simp only [State.cluster, State.setCluster]
  exact SMap.get_set_ne _ _ _ fun e => h (BitVec.eq_of_toNat_eq e)

@[simp] theorem State.cluster_modCluster (s : State) (c : BitVec 8) (f : Cluster → Cluster) :
    (s.modCluster c f).cluster c = f (s.cluster c) := by
  simp [State.modCluster]

@[simp] theorem State.cluster_setCore (s : State) (c : CoreIx) (k : Core) (d : BitVec 8) : (s.setCore c k).cluster d = s.cluster d := rfl
@[simp] theorem State.cluster_modCore (s : State) (c : CoreIx) (f : Core → Core) (d : BitVec 8) : (s.modCore c f).cluster d = s.cluster d := rfl
@[simp] theorem State.cluster_setTh (s : State) (th : Thread) (d : BitVec 8) : (s.setTh th).cluster d = s.cluster d := rfl
@[simp] theorem State.cluster_launch (s : State) (f : Flight) (d : BitVec 8) : (s.launch f).cluster d = s.cluster d := rfl
@[simp] theorem State.core_launch (s : State) (f : Flight) (c : CoreIx) : (s.launch f).core c = s.core c := rfl
@[simp] theorem State.core_setCluster (s : State) (cl : BitVec 8) (k : Cluster) (c : CoreIx) : (s.setCluster cl k).core c = s.core c := rfl
@[simp] theorem State.core_modCluster (s : State) (cl : BitVec 8) (f : Cluster → Cluster) (c : CoreIx) : (s.modCluster cl f).core c = s.core c := rfl
@[simp] theorem State.core_putBytes (s : State) (p : Nat) (bs : List Byte) (c : CoreIx) : (s.putBytes p bs).core c = s.core c := rfl
@[simp] theorem State.core_setEntry (s : State) (p : Nat) (e : Word) (c : CoreIx) : (s.setEntry p e).core c = s.core c := rfl

@[simp] theorem Core.thread_setThread (k : Core) (t : ThrIx) (th : Thread) : (k.setThread t th).thread t = th := by
  simp [Core.thread, Core.setThread]

theorem Core.thread_setThread_ne (k : Core) {t u : ThrIx} (th : Thread) (h : u ≠ t) : (k.setThread t th).thread u = k.thread u := by
  simp only [Core.thread, Core.setThread]
  exact Vector.getElem_set_ne _ _ fun e => h (BitVec.eq_of_toNat_eq e.symm)

@[simp] theorem State.getTh_putTh (s : State) (c : CoreIx) (t : ThrIx) (th : Thread) : (s.putTh c t th).getTh c t = th := by
  simp [State.getTh, State.putTh]

@[simp] theorem State.getTh_modTh (s : State) (c : CoreIx) (t : ThrIx) (f : Thread → Thread) :
    (s.modTh c t f).getTh c t = f (s.getTh c t) := by
  simp [State.modTh]

@[simp] theorem State.getTh_launch (s : State) (f : Flight) (c : CoreIx) (t : ThrIx) : (s.launch f).getTh c t = s.getTh c t := rfl

/-- The executing thread after it was replaced. -/
@[simp] theorem State.th_setTh (s : State) (th : Thread) : (s.setTh th).th = th := by
  simp [State.th, State.setTh]

@[simp] theorem State.th_launch (s : State) (f : Flight) : (s.launch f).th = s.th := rfl
@[simp] theorem State.th_putBytes (s : State) (p : Nat) (bs : List Byte) : (s.putBytes p bs).th = s.th := rfl
@[simp] theorem State.th_setEntry (s : State) (p : Nat) (e : Word) : (s.setEntry p e).th = s.th := rfl

@[simp] theorem Core.setThread_setThread (k : Core) (t : ThrIx) (a b : Thread) :
    (k.setThread t a).setThread t b = k.setThread t b := by
  simp [Core.setThread]

@[simp] theorem State.setCore_setCore (s : State) (c : CoreIx) (a b : Core) : (s.setCore c a).setCore c b = s.setCore c b := by
  simp [State.setCore]

/-- Replacing the executing thread twice is replacing it once. -/
@[simp] theorem State.setTh_setTh (s : State) (a b : Thread) : (s.setTh a).setTh b = s.setTh b := by
  simp [State.setTh, State.putTh, State.modCore]

/-- The executing core after its thread was replaced. -/
theorem State.k_setTh (s : State) (th : Thread) : (s.setTh th).k = s.k.setThread s.cur.thr th := by
  simp [State.k, State.setTh, State.putTh]

/-- Every other core is as it was. -/
theorem State.core_setTh_ne (s : State) (th : Thread) {c : CoreIx} (h : c ≠ s.cur.core) : (s.setTh th).core c = s.core c :=
  State.core_modCore_ne s _ h

/-- Every other thread is as it was. -/
theorem State.getTh_setTh_ne (s : State) (th : Thread) {c : CoreIx} {t : ThrIx} (h : c ≠ s.cur.core ∨ t ≠ s.cur.thr) :
    (s.setTh th).getTh c t = s.getTh c t := by
  by_cases hc : c = s.cur.core
  · subst hc
    have ht : t ≠ s.cur.thr := h.resolve_left fun h => h rfl
    simp only [State.getTh, State.setTh, State.putTh, State.core_modCore, Core.thread_setThread_ne _ _ ht]
  · simp only [State.getTh, State.core_setTh_ne s th hc]

end Sys2Proof.Machine
end

