-- ==== Sys2Proof/Laws/MemKeep.lean ====
section
/-! SUPPORT. The canonical form of memory is kept: by the memory operations, the shared operations and the commit buffer. -/

namespace Sys2Proof.Machine

/-- What a function that may give a state gives keeps the invariant. -/
def Keeps (o : Option State) : Prop := ∀ t, o = some t → t.inv
/-- A next state keeps the invariant. -/
def KeepsOut (o : Out) : Prop := ∀ t, o = .next t → t.inv

theorem State.wf_of_inv {s : State} (h : s.inv) : Memory.wf s.mem = true := h
theorem keeps_none : Keeps none := fun _ e => nomatch e
theorem keeps_some {s : State} (h : s.inv) : Keeps (some s) := fun _ e => Option.some.inj e ▸ h
theorem keepsOut_next {s : State} (h : s.inv) : KeepsOut (.next s) := fun _ e => by cases e; exact h
theorem foldl_inv {α : Type} {f : State → α → State} {l : List α} {s : State} (h : s.inv)
    (hf : ∀ (u : State) x, u.inv → (f u x).inv) : (l.foldl f s).inv := by
  induction l generalizing s with
  | nil => exact h
  | cons x l ih => exact ih (hf s x h)
theorem getD_inv {o : Option State} {s : State} (ho : Keeps o) (h : s.inv) : (o.getD s).inv := by
  cases o with
  | none => exact h
  | some t => exact ho t rfl


theorem State.putBytes_inv {s : State} (p : Nat) (bs : List Byte) (h : s.inv) :
    (State.putBytes s p bs).inv := Memory.wf_put p bs h

theorem State.markWord_inv {s : State} (p : Nat) (mask : BitVec 16) (psn : Bool) (hm : s.inv) :
    (State.markWord s p mask psn).inv := by
  unfold State.markWord
  try dsimp only
  repeat' first
    | with_reducible assumption
    | with_reducible apply State.wf_of_inv
    | split
    | intro _
    | dsimp only
    | (unfold State.inv; dsimp only)

theorem State.setEntry_inv {s : State} (p : Nat) (e : Word) (hm : s.inv) :
    (State.setEntry s p e).inv := by
  unfold State.setEntry
  try dsimp only
  repeat' first
    | with_reducible assumption
    | with_reducible apply State.wf_of_inv
    | split
    | intro _
    | dsimp only
    | (unfold State.inv; dsimp only)

theorem State.writeNibbles_inv {s : State} (p : Nat) (data : Word) (mask : BitVec 16) (hm : s.inv) :
    (State.writeNibbles s p data mask).inv := by
  unfold State.writeNibbles
  try dsimp only
  repeat' first
    | with_reducible assumption
    | with_reducible apply State.wf_of_inv
    | with_reducible apply State.putBytes_inv
    | split
    | intro _
    | dsimp only
    | (unfold State.inv; dsimp only)

theorem State.materialise_inv {s : State} (p : Nat) (hm : s.inv) :
    (State.materialise s p).inv := by
  unfold State.materialise
  try dsimp only
  repeat' first
    | with_reducible assumption
    | with_reducible apply State.wf_of_inv
    | with_reducible apply Memory.wf_clear
    | with_reducible apply State.putBytes_inv
    | split
    | intro _
    | dsimp only
    | (unfold State.inv; dsimp only)

theorem State.storeWord_inv {s : State} (p : Nat) (data : Word) (mask : BitVec 16) (psn : Bool) (hm : s.inv) :
    (State.storeWord s p data mask psn).inv := by
  unfold State.storeWord
  try dsimp only
  repeat' first
    | with_reducible assumption
    | with_reducible apply State.wf_of_inv
    | with_reducible apply State.markWord_inv
    | with_reducible apply State.setEntry_inv
    | with_reducible apply State.writeNibbles_inv
    | with_reducible apply State.materialise_inv
    | split
    | intro _
    | dsimp only
    | (unfold State.inv; dsimp only)

theorem State.storeWords_inv {s : State} (ws : List (Nat × Word × BitVec 16 × Bool)) (hm : s.inv) :
    (State.storeWords s ws).inv := by
  unfold State.storeWords
  try dsimp only
  repeat' first
    | with_reducible assumption
    | with_reducible apply State.wf_of_inv
    | with_reducible apply State.storeWord_inv
    | with_reducible apply foldl_inv
    | split
    | intro _
    | dsimp only
    | (unfold State.inv; dsimp only)

theorem State.storeBytes_inv {s : State} (p : Nat) (bs : List Byte) (psn : List Nat) (hm : s.inv) :
    (State.storeBytes s p bs psn).inv := by
  unfold State.storeBytes
  try dsimp only
  repeat' first
    | with_reducible assumption
    | with_reducible apply State.wf_of_inv
    | with_reducible apply State.storeWords_inv
    | split
    | intro _
    | dsimp only
    | (unfold State.inv; dsimp only)

theorem State.markTile_inv {s : State} (p : Nat) (psn : List Nat) (hm : s.inv) :
    (State.markTile s p psn).inv := by
  unfold State.markTile
  try dsimp only
  repeat' first
    | with_reducible assumption
    | with_reducible apply State.wf_of_inv
    | split
    | intro _
    | dsimp only
    | (unfold State.inv; dsimp only)

theorem State.wholeTile_inv {s : State} (p : Nat) (bs : List Byte) (f : Tag) (always : Bool) (psn : List Nat) (hm : s.inv) :
    (State.wholeTile s p bs f always psn).inv := by
  unfold State.wholeTile
  try dsimp only
  repeat' first
    | with_reducible assumption
    | with_reducible apply State.wf_of_inv
    | with_reducible apply State.putBytes_inv
    | with_reducible apply State.setEntry_inv
    | with_reducible apply State.markTile_inv
    | split
    | intro _
    | dsimp only
    | (unfold State.inv; dsimp only)

theorem State.setTile_inv {s : State} (p : Nat) (e : Word) (hm : s.inv) :
    (State.setTile s p e).inv := by
  unfold State.setTile
  try dsimp only
  repeat' first
    | with_reducible assumption
    | with_reducible apply State.wf_of_inv
    | with_reducible apply State.setEntry_inv
    | with_reducible apply State.markTile_inv
    | split
    | intro _
    | dsimp only
    | (unfold State.inv; dsimp only)

theorem State.breakEntry_inv {s : State} (p : Nat) (fmtOk : Bool) (hm : s.inv) :
    (State.breakEntry s p fmtOk).inv := by
  unfold State.breakEntry
  try dsimp only
  repeat' first
    | with_reducible assumption
    | with_reducible apply State.wf_of_inv
    | with_reducible apply State.setEntry_inv
    | with_reducible apply State.materialise_inv
    | with_reducible apply State.markTile_inv
    | split
    | intro _
    | dsimp only
    | (unfold State.inv; dsimp only)

theorem State.setCore_inv {s : State} (c : CoreIx) (k : Core) (hm : s.inv) :
    (State.setCore s c k).inv := by
  unfold State.setCore
  try dsimp only
  repeat' first
    | with_reducible assumption
    | with_reducible apply State.wf_of_inv
    | split
    | intro _
    | dsimp only
    | (unfold State.inv; dsimp only)

theorem State.modCore_inv {s : State} (c : CoreIx) (f : Core → Core) (hm : s.inv) :
    (State.modCore s c f).inv := by
  unfold State.modCore
  try dsimp only
  repeat' first
    | with_reducible assumption
    | with_reducible apply State.wf_of_inv
    | with_reducible apply State.setCore_inv
    | split
    | intro _
    | dsimp only
    | (unfold State.inv; dsimp only)

theorem State.setCluster_inv {s : State} (cl : BitVec 8) (k : Cluster) (hm : s.inv) :
    (State.setCluster s cl k).inv := by
  unfold State.setCluster
  try dsimp only
  repeat' first
    | with_reducible assumption
    | with_reducible apply State.wf_of_inv
    | split
    | intro _
    | dsimp only
    | (unfold State.inv; dsimp only)

theorem State.modCluster_inv {s : State} (cl : BitVec 8) (f : Cluster → Cluster) (hm : s.inv) :
    (State.modCluster s cl f).inv := by
  unfold State.modCluster
  try dsimp only
  repeat' first
    | with_reducible assumption
    | with_reducible apply State.wf_of_inv
    | with_reducible apply State.setCluster_inv
    | split
    | intro _
    | dsimp only
    | (unfold State.inv; dsimp only)

theorem State.putTh_inv {s : State} (c : CoreIx) (t : ThrIx) (th : Thread) (hm : s.inv) :
    (State.putTh s c t th).inv := by
  unfold State.putTh
  try dsimp only
  repeat' first
    | with_reducible assumption
    | with_reducible apply State.wf_of_inv
    | with_reducible apply State.modCore_inv
    | split
    | intro _
    | dsimp only
    | (unfold State.inv; dsimp only)

theorem State.modTh_inv {s : State} (c : CoreIx) (t : ThrIx) (f : Thread → Thread) (hm : s.inv) :
    (State.modTh s c t f).inv := by
  unfold State.modTh
  try dsimp only
  repeat' first
    | with_reducible assumption
    | with_reducible apply State.wf_of_inv
    | with_reducible apply State.putTh_inv
    | split
    | intro _
    | dsimp only
    | (unfold State.inv; dsimp only)

theorem State.setTh_inv {s : State} (th : Thread) (hm : s.inv) :
    (State.setTh s th).inv := by
  unfold State.setTh
  try dsimp only
  repeat' first
    | with_reducible assumption
    | with_reducible apply State.wf_of_inv
    | with_reducible apply State.putTh_inv
    | split
    | intro _
    | dsimp only
    | (unfold State.inv; dsimp only)

theorem State.modK_inv {s : State} (f : Core → Core) (hm : s.inv) :
    (State.modK s f).inv := by
  unfold State.modK
  try dsimp only
  repeat' first
    | with_reducible assumption
    | with_reducible apply State.wf_of_inv
    | with_reducible apply State.modCore_inv
    | split
    | intro _
    | dsimp only
    | (unfold State.inv; dsimp only)

theorem State.stall_inv {s : State} (hm : s.inv) :
    (State.stall s).inv := by
  unfold State.stall
  try dsimp only
  repeat' first
    | with_reducible assumption
    | with_reducible apply State.wf_of_inv
    | with_reducible apply State.setTh_inv
    | split
    | intro _
    | dsimp only
    | (unfold State.inv; dsimp only)

theorem State.launch_inv {s : State} (f : Flight) (hm : s.inv) :
    (State.launch s f).inv := by
  unfold State.launch
  try dsimp only
  repeat' first
    | with_reducible assumption
    | with_reducible apply State.wf_of_inv
    | split
    | intro _
    | dsimp only
    | (unfold State.inv; dsimp only)

theorem State.report_inv {s : State} (src : CoreIx) (lab : Label) (ws : List Word) (hm : s.inv) :
    (State.report s src lab ws).inv := by
  unfold State.report
  try dsimp only
  repeat' first
    | with_reducible assumption
    | with_reducible apply State.wf_of_inv
    | with_reducible apply State.launch_inv
    | split
    | intro _
    | dsimp only
    | (unfold State.inv; dsimp only)

theorem State.report5_inv {s : State} (c : CoreIx) (t : ThrIx) (cause : Nat) (kind : Nat) (addr epc : Word) (hm : s.inv) :
    (State.report5 s c t cause kind addr epc).inv := by
  unfold State.report5
  try dsimp only
  repeat' first
    | with_reducible assumption
    | with_reducible apply State.wf_of_inv
    | with_reducible apply State.report_inv
    | split
    | intro _
    | dsimp only
    | (unfold State.inv; dsimp only)

theorem State.machineCheck_inv {s : State} (source : Nat) (cl : BitVec 8) (unit : Nat) (addr : Word) (hdr : Word × Word) (hm : s.inv) :
    (State.machineCheck s source cl unit addr hdr).inv := by
  unfold State.machineCheck
  try dsimp only
  repeat' first
    | with_reducible assumption
    | with_reducible apply State.wf_of_inv
    | with_reducible apply State.report_inv
    | split
    | intro _
    | dsimp only
    | (unfold State.inv; dsimp only)

theorem State.freezeCore_inv {s : State} (c : CoreIx) (hm : s.inv) :
    (State.freezeCore s c).inv := by
  unfold State.freezeCore
  try dsimp only
  repeat' first
    | with_reducible assumption
    | with_reducible apply State.wf_of_inv
    | with_reducible apply State.modCore_inv
    | split
    | intro _
    | dsimp only
    | (unfold State.inv; dsimp only)

theorem State.trapAt_inv {s : State} (c : CoreIx) (t : ThrIx) (cause : Cause) (addr epc : Word) (stat reg rf comp : Nat) (hm : s.inv) :
    (State.trapAt s c t cause addr epc stat reg rf comp).inv := by
  unfold State.trapAt
  try dsimp only
  repeat' first
    | with_reducible assumption
    | with_reducible apply State.wf_of_inv
    | with_reducible apply State.putTh_inv
    | with_reducible apply State.report5_inv
    | with_reducible apply State.freezeCore_inv
    | with_reducible apply State.trap_inv
    | split
    | intro _
    | dsimp only
    | (unfold State.inv; dsimp only)

theorem State.trap_inv {s : State} (cause : Cause) (addr : Word) (stat reg rf comp : Nat) (hm : s.inv) :
    (State.trap s cause addr stat reg rf comp).inv := by
  unfold State.trap
  try dsimp only
  repeat' first
    | with_reducible assumption
    | with_reducible apply State.wf_of_inv
    | with_reducible apply State.trapAt_inv
    | split
    | intro _
    | dsimp only
    | (unfold State.inv; dsimp only)

theorem State.trapIllegal_inv {s : State} (i : Instr) (hm : s.inv) :
    (State.trapIllegal s i).inv := by
  unfold State.trapIllegal
  try dsimp only
  repeat' first
    | with_reducible assumption
    | with_reducible apply State.wf_of_inv
    | with_reducible apply State.trap_inv
    | with_reducible apply getD_inv
    | split
    | intro _
    | dsimp only
    | (unfold State.inv; dsimp only)

theorem State.ringFlit_inv {s : State} (y : Kitty) (m : Message) (i : Nat) (hm : s.inv) :
    (State.ringFlit s y m i).inv := by
  unfold State.ringFlit
  try dsimp only
  repeat' first
    | with_reducible assumption
    | with_reducible apply State.wf_of_inv
    | with_reducible apply State.storeBytes_inv
    | with_reducible apply getD_inv
    | split
    | intro _
    | dsimp only
    | (unfold State.inv; dsimp only)

theorem State.kittyAdd_inv {s : State} (y : Kitty) (m : Message) (hm : s.inv) :
    (State.kittyAdd s y m).1.inv := by
  unfold State.kittyAdd
  try dsimp only
  repeat' first
    | with_reducible assumption
    | with_reducible apply State.wf_of_inv
    | with_reducible apply State.ringFlit_inv
    | with_reducible apply foldl_inv
    | split
    | intro _
    | dsimp only
    | (unfold State.inv; dsimp only)

theorem State.report4_inv {s : State} (c : CoreIx) (job : BitVec 8) (lab : Label) (cause : Nat) (src : BitVec 27) (hm : s.inv) :
    (State.report4 s c job lab cause src).inv := by
  unfold State.report4
  try dsimp only
  repeat' first
    | with_reducible assumption
    | with_reducible apply State.wf_of_inv
    | with_reducible apply State.report_inv
    | split
    | intro _
    | dsimp only
    | (unfold State.inv; dsimp only)

theorem State.toQueue_inv {s : State} (c : CoreIx) (m : Message) (hm : s.inv) :
    (State.toQueue s c m).inv := by
  unfold State.toQueue
  try dsimp only
  repeat' first
    | with_reducible assumption
    | with_reducible apply State.wf_of_inv
    | with_reducible apply State.modCore_inv
    | split
    | intro _
    | dsimp only
    | (unfold State.inv; dsimp only)

theorem State.enqueue_inv {s : State} (c : CoreIx) (m : Message) (hm : s.inv) :
    (State.enqueue s c m).inv := by
  unfold State.enqueue
  try dsimp only
  repeat' first
    | with_reducible assumption
    | with_reducible apply State.wf_of_inv
    | with_reducible apply State.setCore_inv
    | with_reducible apply State.kittyAdd_inv
    | with_reducible apply State.report4_inv
    | with_reducible apply State.toQueue_inv
    | split
    | intro _
    | dsimp only
    | (unfold State.inv; dsimp only)

theorem State.noRoom_inv {s : State} (c : CoreIx) (hm : s.inv) :
    (State.noRoom s c).inv := by
  unfold State.noRoom
  try dsimp only
  repeat' first
    | with_reducible assumption
    | with_reducible apply State.wf_of_inv
    | with_reducible apply State.setCore_inv
    | with_reducible apply State.report4_inv
    | split
    | intro _
    | dsimp only
    | (unfold State.inv; dsimp only)

theorem State.dropMsg_inv {s : State} (c : CoreIx) (m : Message) (hm : s.inv) :
    (State.dropMsg s c m).inv := by
  unfold State.dropMsg
  try dsimp only
  repeat' first
    | with_reducible assumption
    | with_reducible apply State.wf_of_inv
    | with_reducible apply State.modCore_inv
    | split
    | intro _
    | dsimp only
    | (unfold State.inv; dsimp only)

theorem State.place_inv {s : State} (c : CoreIx) (m : Message) (hm : s.inv) :
    (State.place s c m).inv := by
  unfold State.place
  try dsimp only
  repeat' first
    | with_reducible assumption
    | with_reducible apply State.wf_of_inv
    | with_reducible apply State.setCore_inv
    | with_reducible apply State.modCore_inv
    | with_reducible apply State.report4_inv
    | with_reducible apply State.enqueue_inv
    | with_reducible apply State.dropMsg_inv
    | split
    | intro _
    | dsimp only
    | (unfold State.inv; dsimp only)

theorem State.fresh_inv {s : State} (hm : s.inv) :
    (State.fresh s).2.inv := by
  unfold State.fresh
  try dsimp only
  repeat' first
    | with_reducible assumption
    | with_reducible apply State.wf_of_inv
    | split
    | intro _
    | dsimp only
    | (unfold State.inv; dsimp only)

theorem State.selfMsg_inv {s : State} (c : CoreIx) (lab : Label) (cls : Cls) (ws : List Word) (eff : Effects) (hm : s.inv) :
    (State.selfMsg s c lab cls ws eff).inv := by
  unfold State.selfMsg
  try dsimp only
  repeat' first
    | with_reducible assumption
    | with_reducible apply State.wf_of_inv
    | with_reducible apply State.place_inv
    | with_reducible apply State.fresh_inv
    | split
    | intro _
    | dsimp only
    | (unfold State.inv; dsimp only)

theorem State.postSelf_inv {s : State} (c : CoreIx) (lab : Label) (cls : Cls) (ws : List Word) (hm : s.inv) :
    (State.postSelf s c lab cls ws).inv := by
  unfold State.postSelf
  try dsimp only
  repeat' first
    | with_reducible assumption
    | with_reducible apply State.wf_of_inv
    | with_reducible apply State.setCore_inv
    | with_reducible apply State.noRoom_inv
    | with_reducible apply State.selfMsg_inv
    | split
    | intro _
    | dsimp only
    | (unfold State.inv; dsimp only)

theorem State.dequeueEffects_inv {s : State} (c : CoreIx) (t : ThrIx) (m : Message) (hm : s.inv) :
    (State.dequeueEffects s c t m).inv := by
  unfold State.dequeueEffects
  try dsimp only
  repeat' first
    | with_reducible assumption
    | with_reducible apply State.wf_of_inv
    | with_reducible apply State.modCore_inv
    | with_reducible apply State.modTh_inv
    | split
    | intro _
    | dsimp only
    | (unfold State.inv; dsimp only)

theorem State.startOn_inv {s : State} (c : CoreIx) (t : ThrIx) (m : Message) (hm : s.inv) :
    (State.startOn s c t m).inv := by
  unfold State.startOn
  try dsimp only
  repeat' first
    | with_reducible assumption
    | with_reducible apply State.wf_of_inv
    | with_reducible apply State.modTh_inv
    | with_reducible apply State.dequeueEffects_inv
    | split
    | intro _
    | dsimp only
    | (unfold State.inv; dsimp only)

theorem State.eret_inv {s : State} (hm : s.inv) :
    (State.eret s).inv := by
  unfold State.eret
  try dsimp only
  repeat' first
    | with_reducible assumption
    | with_reducible apply State.wf_of_inv
    | with_reducible apply State.setTh_inv
    | with_reducible apply State.trap_inv
    | split
    | intro _
    | dsimp only
    | (unfold State.inv; dsimp only)

theorem State.trapOverflow_inv {s : State} (c : CoreIx) (t : ThrIx) (addr : Word) (atRecv : Bool) (hm : s.inv) :
    (State.trapOverflow s c t addr atRecv).inv := by
  unfold State.trapOverflow
  try dsimp only
  repeat' first
    | with_reducible assumption
    | with_reducible apply State.wf_of_inv
    | with_reducible apply State.modTh_inv
    | with_reducible apply State.trapAt_inv
    | with_reducible apply State.trap_inv
    | split
    | intro _
    | dsimp only
    | (unfold State.inv; dsimp only)

theorem State.pageEntry_inv {s : State} (pl : Nat) (hm : s.inv) :
    (State.pageEntry s pl).2.inv := by
  unfold State.pageEntry
  try dsimp only
  repeat' first
    | with_reducible assumption
    | with_reducible apply State.wf_of_inv
    | split
    | intro _
    | dsimp only
    | (unfold State.inv; dsimp only)

theorem State.setPage_inv {s : State} (pl : Nat) (e : Word) (hm : s.inv) :
    (State.setPage s pl e).inv := by
  unfold State.setPage
  try dsimp only
  repeat' first
    | with_reducible assumption
    | with_reducible apply State.wf_of_inv
    | with_reducible apply State.storeWord_inv
    | split
    | intro _
    | dsimp only
    | (unfold State.inv; dsimp only)

theorem State.markPage_inv {s : State} (pl : Nat) (e : Word) (kind : Nat) (hm : s.inv) :
    (State.markPage s pl e kind).inv := by
  unfold State.markPage
  try dsimp only
  repeat' first
    | with_reducible assumption
    | with_reducible apply State.wf_of_inv
    | with_reducible apply State.storeWord_inv
    | split
    | intro _
    | dsimp only
    | (unfold State.inv; dsimp only)

theorem State.translatePaged_inv {s : State} (i : Nat) (l : Word) (pa part va bytes kind : Nat) (replay : Bool) (hm : s.inv) :
    (State.translatePaged s i l pa part va bytes kind replay).2.inv := by
  unfold State.translatePaged
  try dsimp only
  repeat' first
    | with_reducible assumption
    | with_reducible apply State.wf_of_inv
    | with_reducible apply State.pageEntry_inv
    | with_reducible apply State.markPage_inv
    | with_reducible apply State.perform_inv
    | with_reducible apply State.replay_inv
    | split
    | intro _
    | dsimp only
    | (unfold State.inv; dsimp only)

theorem State.translate_inv {s : State} (ent : Option (Nat × Word × Word)) (part va bytes kind : Nat) (replay : Bool) (hm : s.inv) :
    (State.translate s ent part va bytes kind replay).2.inv := by
  unfold State.translate
  try dsimp only
  repeat' first
    | with_reducible assumption
    | with_reducible apply State.wf_of_inv
    | with_reducible apply State.translatePaged_inv
    | with_reducible apply State.perform_inv
    | with_reducible apply State.replay_inv
    | with_reducible apply getD_inv
    | split
    | intro _
    | dsimp only
    | (unfold State.inv; dsimp only)

theorem State.violation_inv {s : State} (c : CoreIx) (job : BitVec 8) (kind : Nat) (dst : BitVec 27) (hm : s.inv) :
    (State.violation s c job kind dst).inv := by
  unfold State.violation
  try dsimp only
  repeat' first
    | with_reducible assumption
    | with_reducible apply State.wf_of_inv
    | with_reducible apply State.report_inv
    | with_reducible apply State.freezeCore_inv
    | split
    | intro _
    | dsimp only
    | (unfold State.inv; dsimp only)

theorem State.sendRequest_inv {s : State} (c : CoreIx) (p : Packet) (stream : Option (ThrIx × Nat)) (again : Bool) (hm : s.inv) :
    (State.sendRequest s c p stream again).inv := by
  unfold State.sendRequest
  try dsimp only
  repeat' first
    | with_reducible assumption
    | with_reducible apply State.wf_of_inv
    | with_reducible apply State.launch_inv
    | split
    | intro _
    | dsimp only
    | (unfold State.inv; dsimp only)

theorem State.request_inv {s : State} (c : CoreIx) (owner : Owner) (job : BitVec 8) (cls : Cls) (kind : Nat) (words : List Word) (aux : Nat) (tile : Option Word) (psn : List Nat) (stream : Option (ThrIx × Nat)) (hm : s.inv) :
    (State.request s c owner job cls kind words aux tile psn stream).1.inv := by
  unfold State.request
  try dsimp only
  repeat' first
    | with_reducible assumption
    | with_reducible apply State.wf_of_inv
    | with_reducible apply State.modCore_inv
    | with_reducible apply State.violation_inv
    | with_reducible apply State.sendRequest_inv
    | with_reducible apply getD_inv
    | split
    | intro _
    | dsimp only
    | (unfold State.inv; dsimp only)

theorem State.postFault_inv {s : State} (c : CoreIx) (ws : List Word) (hm : s.inv) :
    (State.postFault s c ws).inv := by
  unfold State.postFault
  try dsimp only
  repeat' first
    | with_reducible assumption
    | with_reducible apply State.wf_of_inv
    | with_reducible apply State.report_inv
    | with_reducible apply State.postSelf_inv
    | split
    | intro _
    | dsimp only
    | (unfold State.inv; dsimp only)

theorem State.nearInstant_inv {s : State} (c : CoreIx) (t : ThrIx) (hm : s.inv) :
    Keeps (State.nearInstant s c t) := by
  unfold State.nearInstant
  try dsimp only
  repeat' first
    | with_reducible assumption
    | with_reducible apply State.wf_of_inv
    | with_reducible exact keeps_none
    | with_reducible apply keeps_some
    | with_reducible apply State.storeWord_inv
    | with_reducible apply State.modTh_inv
    | with_reducible apply foldl_inv
    | split
    | intro _
    | dsimp only
    | (unfold State.inv; dsimp only)

theorem State.nearInstants_inv {s : State} (c : CoreIx) (t : ThrIx) (n : Nat) (h : s.inv) :
    (State.nearInstants s c t n).inv := by
  induction n generalizing s with
  | zero => exact h
  | succ n ih =>
    unfold State.nearInstants
    split
    · rename_i s' e; exact ih (State.nearInstant_inv c t h s' e)
    · exact h

theorem State.commitThread_inv {s : State} (c : CoreIx) (t : ThrIx) (hm : s.inv) :
    (State.commitThread s c t).inv := by
  unfold State.commitThread
  try dsimp only
  repeat' first
    | with_reducible assumption
    | with_reducible apply State.wf_of_inv
    | with_reducible apply State.putTh_inv
    | with_reducible apply State.nearInstants_inv
    | split
    | intro _
    | dsimp only
    | (unfold State.inv; dsimp only)

theorem State.trumpSent_inv {s : State} (c : CoreIx) (away : Bool) (hm : s.inv) :
    (State.trumpSent s c away).inv := by
  unfold State.trumpSent
  try dsimp only
  repeat' first
    | with_reducible assumption
    | with_reducible apply State.wf_of_inv
    | with_reducible apply State.modCore_inv
    | with_reducible apply State.modCluster_inv
    | with_reducible apply getD_inv
    | split
    | intro _
    | dsimp only
    | (unfold State.inv; dsimp only)

theorem State.countSent_inv {s : State} (job : BitVec 8) (hm : s.inv) :
    (State.countSent s job).inv := by
  unfold State.countSent
  try dsimp only
  repeat' first
    | with_reducible assumption
    | with_reducible apply State.wf_of_inv
    | split
    | intro _
    | dsimp only
    | (unfold State.inv; dsimp only)

theorem State.countRecv_inv {s : State} (job : BitVec 8) (hm : s.inv) :
    (State.countRecv s job).inv := by
  unfold State.countRecv
  try dsimp only
  repeat' first
    | with_reducible assumption
    | with_reducible apply State.wf_of_inv
    | split
    | intro _
    | dsimp only
    | (unfold State.inv; dsimp only)

theorem State.injectMsg_inv {s : State} (c : CoreIx) (dst : BitVec 27) (cls : Cls) (lab : Label) (tag : BitVec 4) (ws : List Word) (ctl : Bool) (hm : s.inv) :
    (State.injectMsg s c dst cls lab tag ws ctl).inv := by
  unfold State.injectMsg
  try dsimp only
  repeat' first
    | with_reducible assumption
    | with_reducible apply State.wf_of_inv
    | with_reducible apply State.launch_inv
    | with_reducible apply State.violation_inv
    | with_reducible apply State.trumpSent_inv
    | with_reducible apply State.countSent_inv
    | with_reducible apply State.ctl_inv
    | split
    | intro _
    | dsimp only
    | (unfold State.inv; dsimp only)

theorem State.sendWrite_inv {s : State} (c : CoreIx) (t : ThrIx) (h : Held) (kind : Nat) (words : List Word) (aux bytes : Nat) (psn : List Nat) (hm : s.inv) :
    (State.sendWrite s c t h kind words aux bytes psn).inv := by
  unfold State.sendWrite
  try dsimp only
  repeat' first
    | with_reducible assumption
    | with_reducible apply State.wf_of_inv
    | with_reducible apply State.modTh_inv
    | with_reducible apply State.request_inv
    | with_reducible apply State.postFault_inv
    | with_reducible apply getD_inv
    | split
    | intro _
    | dsimp only
    | (unfold State.inv; dsimp only)

theorem State.inject_inv {s : State} (c : CoreIx) (t : ThrIx) (hm : s.inv) :
    Keeps (State.inject s c t) := by
  unfold State.inject
  try dsimp only
  repeat' first
    | with_reducible assumption
    | with_reducible apply State.wf_of_inv
    | with_reducible exact keeps_none
    | with_reducible apply keeps_some
    | with_reducible apply State.modTh_inv
    | with_reducible apply State.injectMsg_inv
    | with_reducible apply State.sendWrite_inv
    | with_reducible apply State.ctl_inv
    | split
    | intro _
    | dsimp only
    | (unfold State.inv; dsimp only)

theorem State.commitStep_inv {s : State} (c : CoreIx) (t : ThrIx) (hm : s.inv) :
    Keeps (State.commitStep s c t) := by
  unfold State.commitStep
  try dsimp only
  repeat' first
    | with_reducible assumption
    | with_reducible apply State.wf_of_inv
    | with_reducible exact keeps_none
    | with_reducible apply keeps_some
    | exact State.nearInstant_inv _ _ (by assumption) _ (by assumption)
    | with_reducible apply State.nearInstant_inv
    | exact State.inject_inv _ _ (by assumption) _ (by assumption)
    | with_reducible apply State.inject_inv
    | split
    | intro _
    | dsimp only
    | (unfold State.inv; dsimp only)

theorem State.withRoom_inv {s : State} (n : Nat) (go : State → State) (hm : s.inv) (hgo : ∀ u : State, u.inv → (go u).inv) :
    (State.withRoom s n go).inv := by
  unfold State.withRoom
  try dsimp only
  repeat' first
    | with_reducible assumption
    | with_reducible apply State.wf_of_inv
    | with_reducible apply hgo
    | with_reducible apply State.setTh_inv
    | with_reducible apply State.stall_inv
    | with_reducible apply State.trap_inv
    | with_reducible apply State.commitThread_inv
    | split
    | intro _
    | dsimp only
    | (unfold State.inv; dsimp only)

theorem State.atCommit_inv {s : State} (go : State → State) (hm : s.inv) (hgo : ∀ u : State, u.inv → (go u).inv) :
    (State.atCommit s go).inv := by
  unfold State.atCommit
  try dsimp only
  repeat' first
    | with_reducible assumption
    | with_reducible apply State.wf_of_inv
    | with_reducible apply hgo
    | with_reducible apply State.setTh_inv
    | with_reducible apply State.stall_inv
    | with_reducible apply State.commitThread_inv
    | split
    | intro _
    | dsimp only
    | (unfold State.inv; dsimp only)

theorem State.atNearCommit_inv {s : State} (go : State → State) (h : s.inv)
    (hgo : ∀ u : State, u.inv → (go u).inv) :
    (State.atNearCommit s go).inv := by
  have key : ∀ u : State, u.inv →
      (if u.th.held.any (fun x => x.e.isNear) then u.stall else go u).inv := by
    intro u hu
    split
    · exact State.stall_inv hu
    · exact hgo u hu
  unfold State.atNearCommit
  refine key _ ?_
  split
  · exact h
  · exact State.commitThread_inv _ _ h


end Sys2Proof.Machine
end

