-- ==== Sys2Proof/Laws/CoreKeep.lean ====
section
/-! SUPPORT. The canonical form of memory is kept by the instructions of a core. -/

namespace Sys2Proof.Machine


theorem State.setCsr_inv {s : State} (r : Csr) (x : Word) (hm : s.inv) :
    (State.setCsr s r x).inv := by
  unfold State.setCsr
  try dsimp only
  repeat' first
    | with_reducible assumption
    | with_reducible apply State.wf_of_inv
    | with_reducible apply State.setTh_inv
    | with_reducible apply State.modK_inv
    | split
    | intro _
    | dsimp only
    | (unfold State.inv; dsimp only)

theorem State.csrUpdate_inv {s : State} (i : Instr) (d a : SReg) (r : Csr) (f : Word → Word → Word) (hm : s.inv) :
    KeepsOut (State.csrUpdate s i d a r f) := by
  unfold State.csrUpdate
  try dsimp only
  repeat' first
    | with_reducible assumption
    | with_reducible apply State.wf_of_inv
    | with_reducible apply keepsOut_next
    | with_reducible apply State.setTh_inv
    | with_reducible apply State.trapIllegal_inv
    | with_reducible apply State.setCsr_inv
    | split
    | intro _
    | dsimp only
    | (unfold State.inv; dsimp only)

theorem execCsrr_inv (d : SReg) (csr : Csr) {s : State} (hm : s.inv) :
    KeepsOut (execCsrr d csr s) := by
  unfold execCsrr
  try dsimp only
  repeat' first
    | with_reducible assumption
    | with_reducible apply State.wf_of_inv
    | with_reducible apply keepsOut_next
    | with_reducible apply State.setTh_inv
    | with_reducible apply State.trapIllegal_inv
    | split
    | intro _
    | dsimp only
    | (unfold State.inv; dsimp only)

theorem execCsrw_inv (d a : SReg) (csr : Csr) {s : State} (hm : s.inv) :
    KeepsOut (execCsrw d a csr s) := by
  unfold execCsrw
  try dsimp only
  repeat' first
    | with_reducible assumption
    | with_reducible apply State.wf_of_inv
    | with_reducible apply keepsOut_next
    | with_reducible apply State.csrUpdate_inv
    | split
    | intro _
    | dsimp only
    | (unfold State.inv; dsimp only)

theorem execCsrs_inv (d a : SReg) (csr : Csr) {s : State} (hm : s.inv) :
    KeepsOut (execCsrs d a csr s) := by
  unfold execCsrs
  try dsimp only
  repeat' first
    | with_reducible assumption
    | with_reducible apply State.wf_of_inv
    | with_reducible apply keepsOut_next
    | with_reducible apply State.csrUpdate_inv
    | split
    | intro _
    | dsimp only
    | (unfold State.inv; dsimp only)

theorem execCsrc_inv (d a : SReg) (csr : Csr) {s : State} (hm : s.inv) :
    KeepsOut (execCsrc d a csr s) := by
  unfold execCsrc
  try dsimp only
  repeat' first
    | with_reducible assumption
    | with_reducible apply State.wf_of_inv
    | with_reducible apply keepsOut_next
    | with_reducible apply State.csrUpdate_inv
    | split
    | intro _
    | dsimp only
    | (unfold State.inv; dsimp only)

theorem State.trapRead_inv {s : State} (i : Instr) (r : PendingRead) (hm : s.inv) :
    (State.trapRead s i r).inv := by
  unfold State.trapRead
  try dsimp only
  repeat' first
    | with_reducible assumption
    | with_reducible apply State.wf_of_inv
    | with_reducible apply State.setTh_inv
    | with_reducible apply State.trap_inv
    | split
    | intro _
    | dsimp only
    | (unfold State.inv; dsimp only)

theorem State.stallFor_inv {s : State} (i : Instr) (hm : s.inv) :
    (State.stallFor s i).inv := by
  unfold State.stallFor
  try dsimp only
  repeat' first
    | with_reducible assumption
    | with_reducible apply State.wf_of_inv
    | with_reducible apply State.setTh_inv
    | split
    | intro _
    | dsimp only
    | (unfold State.inv; dsimp only)

theorem State.enter_inv {s : State} (c : CoreIx) (t : ThrIx) (hm : s.inv) :
    (State.enter s c t).inv := by
  unfold State.enter
  try dsimp only
  repeat' first
    | with_reducible assumption
    | with_reducible apply State.wf_of_inv
    | split
    | intro _
    | dsimp only
    | (unfold State.inv; dsimp only)

theorem State.issued_inv {s : State} (hm : s.inv) :
    (State.issued s).inv := by
  unfold State.issued
  try dsimp only
  repeat' first
    | with_reducible assumption
    | with_reducible apply State.wf_of_inv
    | with_reducible apply State.modK_inv
    | split
    | intro _
    | dsimp only
    | (unfold State.inv; dsimp only)

theorem State.alu2_inv {s : State} (d a b : SReg) (f : Word → Word → Word) (hm : s.inv) :
    KeepsOut (State.alu2 s d a b f) := by
  unfold State.alu2
  try dsimp only
  repeat' first
    | with_reducible assumption
    | with_reducible apply State.wf_of_inv
    | with_reducible apply keepsOut_next
    | with_reducible apply State.setTh_inv
    | split
    | intro _
    | dsimp only
    | (unfold State.inv; dsimp only)

theorem State.alu1_inv {s : State} (d a : SReg) (f : Word → Word) (hm : s.inv) :
    KeepsOut (State.alu1 s d a f) := by
  unfold State.alu1
  try dsimp only
  repeat' first
    | with_reducible assumption
    | with_reducible apply State.wf_of_inv
    | with_reducible apply keepsOut_next
    | with_reducible apply State.setTh_inv
    | split
    | intro _
    | dsimp only
    | (unfold State.inv; dsimp only)

theorem State.alu2f_inv {s : State} (d a b : SReg) (f : Word → Word → Nat × Flags) (hm : s.inv) :
    KeepsOut (State.alu2f s d a b f) := by
  unfold State.alu2f
  try dsimp only
  repeat' first
    | with_reducible assumption
    | with_reducible apply State.wf_of_inv
    | with_reducible apply keepsOut_next
    | with_reducible apply State.setTh_inv
    | split
    | intro _
    | dsimp only
    | (unfold State.inv; dsimp only)

theorem State.alu3_inv {s : State} (d a b c : SReg) (f : Word → Word → Word → Word) (hm : s.inv) :
    KeepsOut (State.alu3 s d a b c f) := by
  unfold State.alu3
  try dsimp only
  repeat' first
    | with_reducible assumption
    | with_reducible apply State.wf_of_inv
    | with_reducible apply keepsOut_next
    | with_reducible apply State.setTh_inv
    | split
    | intro _
    | dsimp only
    | (unfold State.inv; dsimp only)

theorem execAdd_inv (d a b : SReg) {s : State} (hm : s.inv) :
    KeepsOut (execAdd d a b s) := by
  unfold execAdd
  try dsimp only
  repeat' first
    | with_reducible assumption
    | with_reducible apply State.wf_of_inv
    | with_reducible apply keepsOut_next
    | with_reducible apply State.alu2_inv
    | split
    | intro _
    | dsimp only
    | (unfold State.inv; dsimp only)

theorem execSub_inv (d a b : SReg) {s : State} (hm : s.inv) :
    KeepsOut (execSub d a b s) := by
  unfold execSub
  try dsimp only
  repeat' first
    | with_reducible assumption
    | with_reducible apply State.wf_of_inv
    | with_reducible apply keepsOut_next
    | with_reducible apply State.alu2_inv
    | split
    | intro _
    | dsimp only
    | (unfold State.inv; dsimp only)

theorem execMul_inv (d a b : SReg) {s : State} (hm : s.inv) :
    KeepsOut (execMul d a b s) := by
  unfold execMul
  try dsimp only
  repeat' first
    | with_reducible assumption
    | with_reducible apply State.wf_of_inv
    | with_reducible apply keepsOut_next
    | with_reducible apply State.alu2_inv
    | split
    | intro _
    | dsimp only
    | (unfold State.inv; dsimp only)

theorem execMulh_inv (d a b : SReg) {s : State} (hm : s.inv) :
    KeepsOut (execMulh d a b s) := by
  unfold execMulh
  try dsimp only
  repeat' first
    | with_reducible assumption
    | with_reducible apply State.wf_of_inv
    | with_reducible apply keepsOut_next
    | with_reducible apply State.alu2_inv
    | split
    | intro _
    | dsimp only
    | (unfold State.inv; dsimp only)

theorem execMulhu_inv (d a b : SReg) {s : State} (hm : s.inv) :
    KeepsOut (execMulhu d a b s) := by
  unfold execMulhu
  try dsimp only
  repeat' first
    | with_reducible assumption
    | with_reducible apply State.wf_of_inv
    | with_reducible apply keepsOut_next
    | with_reducible apply State.alu2_inv
    | split
    | intro _
    | dsimp only
    | (unfold State.inv; dsimp only)

theorem execMulhsu_inv (d a b : SReg) {s : State} (hm : s.inv) :
    KeepsOut (execMulhsu d a b s) := by
  unfold execMulhsu
  try dsimp only
  repeat' first
    | with_reducible assumption
    | with_reducible apply State.wf_of_inv
    | with_reducible apply keepsOut_next
    | with_reducible apply State.alu2_inv
    | split
    | intro _
    | dsimp only
    | (unfold State.inv; dsimp only)

theorem execDiv_inv (d a b : SReg) {s : State} (hm : s.inv) :
    KeepsOut (execDiv d a b s) := by
  unfold execDiv
  try dsimp only
  repeat' first
    | with_reducible assumption
    | with_reducible apply State.wf_of_inv
    | with_reducible apply keepsOut_next
    | with_reducible apply State.alu2_inv
    | split
    | intro _
    | dsimp only
    | (unfold State.inv; dsimp only)

theorem execDivu_inv (d a b : SReg) {s : State} (hm : s.inv) :
    KeepsOut (execDivu d a b s) := by
  unfold execDivu
  try dsimp only
  repeat' first
    | with_reducible assumption
    | with_reducible apply State.wf_of_inv
    | with_reducible apply keepsOut_next
    | with_reducible apply State.alu2_inv
    | split
    | intro _
    | dsimp only
    | (unfold State.inv; dsimp only)

theorem execRem_inv (d a b : SReg) {s : State} (hm : s.inv) :
    KeepsOut (execRem d a b s) := by
  unfold execRem
  try dsimp only
  repeat' first
    | with_reducible assumption
    | with_reducible apply State.wf_of_inv
    | with_reducible apply keepsOut_next
    | with_reducible apply State.alu2_inv
    | split
    | intro _
    | dsimp only
    | (unfold State.inv; dsimp only)

theorem execRemu_inv (d a b : SReg) {s : State} (hm : s.inv) :
    KeepsOut (execRemu d a b s) := by
  unfold execRemu
  try dsimp only
  repeat' first
    | with_reducible assumption
    | with_reducible apply State.wf_of_inv
    | with_reducible apply keepsOut_next
    | with_reducible apply State.alu2_inv
    | split
    | intro _
    | dsimp only
    | (unfold State.inv; dsimp only)

theorem execAnd_inv (d a b : SReg) {s : State} (hm : s.inv) :
    KeepsOut (execAnd d a b s) := by
  unfold execAnd
  try dsimp only
  repeat' first
    | with_reducible assumption
    | with_reducible apply State.wf_of_inv
    | with_reducible apply keepsOut_next
    | with_reducible apply State.alu2_inv
    | split
    | intro _
    | dsimp only
    | (unfold State.inv; dsimp only)

theorem execOr_inv (d a b : SReg) {s : State} (hm : s.inv) :
    KeepsOut (execOr d a b s) := by
  unfold execOr
  try dsimp only
  repeat' first
    | with_reducible assumption
    | with_reducible apply State.wf_of_inv
    | with_reducible apply keepsOut_next
    | with_reducible apply State.alu2_inv
    | split
    | intro _
    | dsimp only
    | (unfold State.inv; dsimp only)

theorem execXor_inv (d a b : SReg) {s : State} (hm : s.inv) :
    KeepsOut (execXor d a b s) := by
  unfold execXor
  try dsimp only
  repeat' first
    | with_reducible assumption
    | with_reducible apply State.wf_of_inv
    | with_reducible apply keepsOut_next
    | with_reducible apply State.alu2_inv
    | split
    | intro _
    | dsimp only
    | (unfold State.inv; dsimp only)

theorem execAndn_inv (d a b : SReg) {s : State} (hm : s.inv) :
    KeepsOut (execAndn d a b s) := by
  unfold execAndn
  try dsimp only
  repeat' first
    | with_reducible assumption
    | with_reducible apply State.wf_of_inv
    | with_reducible apply keepsOut_next
    | with_reducible apply State.alu2_inv
    | split
    | intro _
    | dsimp only
    | (unfold State.inv; dsimp only)

theorem execOrn_inv (d a b : SReg) {s : State} (hm : s.inv) :
    KeepsOut (execOrn d a b s) := by
  unfold execOrn
  try dsimp only
  repeat' first
    | with_reducible assumption
    | with_reducible apply State.wf_of_inv
    | with_reducible apply keepsOut_next
    | with_reducible apply State.alu2_inv
    | split
    | intro _
    | dsimp only
    | (unfold State.inv; dsimp only)

theorem execSll_inv (d a b : SReg) {s : State} (hm : s.inv) :
    KeepsOut (execSll d a b s) := by
  unfold execSll
  try dsimp only
  repeat' first
    | with_reducible assumption
    | with_reducible apply State.wf_of_inv
    | with_reducible apply keepsOut_next
    | with_reducible apply State.alu2_inv
    | split
    | intro _
    | dsimp only
    | (unfold State.inv; dsimp only)

theorem execSrl_inv (d a b : SReg) {s : State} (hm : s.inv) :
    KeepsOut (execSrl d a b s) := by
  unfold execSrl
  try dsimp only
  repeat' first
    | with_reducible assumption
    | with_reducible apply State.wf_of_inv
    | with_reducible apply keepsOut_next
    | with_reducible apply State.alu2_inv
    | split
    | intro _
    | dsimp only
    | (unfold State.inv; dsimp only)

theorem execSra_inv (d a b : SReg) {s : State} (hm : s.inv) :
    KeepsOut (execSra d a b s) := by
  unfold execSra
  try dsimp only
  repeat' first
    | with_reducible assumption
    | with_reducible apply State.wf_of_inv
    | with_reducible apply keepsOut_next
    | with_reducible apply State.alu2_inv
    | split
    | intro _
    | dsimp only
    | (unfold State.inv; dsimp only)

theorem execRol_inv (d a b : SReg) {s : State} (hm : s.inv) :
    KeepsOut (execRol d a b s) := by
  unfold execRol
  try dsimp only
  repeat' first
    | with_reducible assumption
    | with_reducible apply State.wf_of_inv
    | with_reducible apply keepsOut_next
    | with_reducible apply State.alu2_inv
    | split
    | intro _
    | dsimp only
    | (unfold State.inv; dsimp only)

theorem execRor_inv (d a b : SReg) {s : State} (hm : s.inv) :
    KeepsOut (execRor d a b s) := by
  unfold execRor
  try dsimp only
  repeat' first
    | with_reducible assumption
    | with_reducible apply State.wf_of_inv
    | with_reducible apply keepsOut_next
    | with_reducible apply State.alu2_inv
    | split
    | intro _
    | dsimp only
    | (unfold State.inv; dsimp only)

theorem execMin_inv (d a b : SReg) {s : State} (hm : s.inv) :
    KeepsOut (execMin d a b s) := by
  unfold execMin
  try dsimp only
  repeat' first
    | with_reducible assumption
    | with_reducible apply State.wf_of_inv
    | with_reducible apply keepsOut_next
    | with_reducible apply State.alu2_inv
    | split
    | intro _
    | dsimp only
    | (unfold State.inv; dsimp only)

theorem execMinu_inv (d a b : SReg) {s : State} (hm : s.inv) :
    KeepsOut (execMinu d a b s) := by
  unfold execMinu
  try dsimp only
  repeat' first
    | with_reducible assumption
    | with_reducible apply State.wf_of_inv
    | with_reducible apply keepsOut_next
    | with_reducible apply State.alu2_inv
    | split
    | intro _
    | dsimp only
    | (unfold State.inv; dsimp only)

theorem execMax_inv (d a b : SReg) {s : State} (hm : s.inv) :
    KeepsOut (execMax d a b s) := by
  unfold execMax
  try dsimp only
  repeat' first
    | with_reducible assumption
    | with_reducible apply State.wf_of_inv
    | with_reducible apply keepsOut_next
    | with_reducible apply State.alu2_inv
    | split
    | intro _
    | dsimp only
    | (unfold State.inv; dsimp only)

theorem execMaxu_inv (d a b : SReg) {s : State} (hm : s.inv) :
    KeepsOut (execMaxu d a b s) := by
  unfold execMaxu
  try dsimp only
  repeat' first
    | with_reducible assumption
    | with_reducible apply State.wf_of_inv
    | with_reducible apply keepsOut_next
    | with_reducible apply State.alu2_inv
    | split
    | intro _
    | dsimp only
    | (unfold State.inv; dsimp only)

theorem execAdds_inv (d a b : SReg) {s : State} (hm : s.inv) :
    KeepsOut (execAdds d a b s) := by
  unfold execAdds
  try dsimp only
  repeat' first
    | with_reducible assumption
    | with_reducible apply State.wf_of_inv
    | with_reducible apply keepsOut_next
    | with_reducible apply State.alu2f_inv
    | split
    | intro _
    | dsimp only
    | (unfold State.inv; dsimp only)

theorem execSubs_inv (d a b : SReg) {s : State} (hm : s.inv) :
    KeepsOut (execSubs d a b s) := by
  unfold execSubs
  try dsimp only
  repeat' first
    | with_reducible assumption
    | with_reducible apply State.wf_of_inv
    | with_reducible apply keepsOut_next
    | with_reducible apply State.alu2f_inv
    | split
    | intro _
    | dsimp only
    | (unfold State.inv; dsimp only)

theorem execAddsu_inv (d a b : SReg) {s : State} (hm : s.inv) :
    KeepsOut (execAddsu d a b s) := by
  unfold execAddsu
  try dsimp only
  repeat' first
    | with_reducible assumption
    | with_reducible apply State.wf_of_inv
    | with_reducible apply keepsOut_next
    | with_reducible apply State.alu2f_inv
    | split
    | intro _
    | dsimp only
    | (unfold State.inv; dsimp only)

theorem execSubsu_inv (d a b : SReg) {s : State} (hm : s.inv) :
    KeepsOut (execSubsu d a b s) := by
  unfold execSubsu
  try dsimp only
  repeat' first
    | with_reducible assumption
    | with_reducible apply State.wf_of_inv
    | with_reducible apply keepsOut_next
    | with_reducible apply State.alu2f_inv
    | split
    | intro _
    | dsimp only
    | (unfold State.inv; dsimp only)

theorem execClz_inv (d a : SReg) {s : State} (hm : s.inv) :
    KeepsOut (execClz d a s) := by
  unfold execClz
  try dsimp only
  repeat' first
    | with_reducible assumption
    | with_reducible apply State.wf_of_inv
    | with_reducible apply keepsOut_next
    | with_reducible apply State.alu1_inv
    | split
    | intro _
    | dsimp only
    | (unfold State.inv; dsimp only)

theorem execCtz_inv (d a : SReg) {s : State} (hm : s.inv) :
    KeepsOut (execCtz d a s) := by
  unfold execCtz
  try dsimp only
  repeat' first
    | with_reducible assumption
    | with_reducible apply State.wf_of_inv
    | with_reducible apply keepsOut_next
    | with_reducible apply State.alu1_inv
    | split
    | intro _
    | dsimp only
    | (unfold State.inv; dsimp only)

theorem execPopc_inv (d a : SReg) {s : State} (hm : s.inv) :
    KeepsOut (execPopc d a s) := by
  unfold execPopc
  try dsimp only
  repeat' first
    | with_reducible assumption
    | with_reducible apply State.wf_of_inv
    | with_reducible apply keepsOut_next
    | with_reducible apply State.alu1_inv
    | split
    | intro _
    | dsimp only
    | (unfold State.inv; dsimp only)

theorem execBswap_inv (d a : SReg) {s : State} (hm : s.inv) :
    KeepsOut (execBswap d a s) := by
  unfold execBswap
  try dsimp only
  repeat' first
    | with_reducible assumption
    | with_reducible apply State.wf_of_inv
    | with_reducible apply keepsOut_next
    | with_reducible apply State.alu1_inv
    | split
    | intro _
    | dsimp only
    | (unfold State.inv; dsimp only)

theorem State.fp2_inv {s : State} (f : FFmt) (rm : Rm) (d a b : SReg) (op : FF → RMode → Nat → Nat → Nat × Flags) (hm : s.inv) :
    KeepsOut (State.fp2 s f rm d a b op) := by
  unfold State.fp2
  try dsimp only
  repeat' first
    | with_reducible assumption
    | with_reducible apply State.wf_of_inv
    | with_reducible apply keepsOut_next
    | with_reducible apply State.alu2f_inv
    | split
    | intro _
    | dsimp only
    | (unfold State.inv; dsimp only)

theorem execFadd_inv (f : FFmt) (rm : Rm) (d a b : SReg) {s : State} (hm : s.inv) :
    KeepsOut (execFadd f rm d a b s) := by
  unfold execFadd
  try dsimp only
  repeat' first
    | with_reducible assumption
    | with_reducible apply State.wf_of_inv
    | with_reducible apply keepsOut_next
    | with_reducible apply State.fp2_inv
    | split
    | intro _
    | dsimp only
    | (unfold State.inv; dsimp only)

theorem execFsub_inv (f : FFmt) (rm : Rm) (d a b : SReg) {s : State} (hm : s.inv) :
    KeepsOut (execFsub f rm d a b s) := by
  unfold execFsub
  try dsimp only
  repeat' first
    | with_reducible assumption
    | with_reducible apply State.wf_of_inv
    | with_reducible apply keepsOut_next
    | with_reducible apply State.fp2_inv
    | split
    | intro _
    | dsimp only
    | (unfold State.inv; dsimp only)

theorem execFmul_inv (f : FFmt) (rm : Rm) (d a b : SReg) {s : State} (hm : s.inv) :
    KeepsOut (execFmul f rm d a b s) := by
  unfold execFmul
  try dsimp only
  repeat' first
    | with_reducible assumption
    | with_reducible apply State.wf_of_inv
    | with_reducible apply keepsOut_next
    | with_reducible apply State.fp2_inv
    | split
    | intro _
    | dsimp only
    | (unfold State.inv; dsimp only)

theorem execFmin_inv (f : FFmt) (d a b : SReg) {s : State} (hm : s.inv) :
    KeepsOut (execFmin f d a b s) := by
  unfold execFmin
  try dsimp only
  repeat' first
    | with_reducible assumption
    | with_reducible apply State.wf_of_inv
    | with_reducible apply keepsOut_next
    | with_reducible apply State.alu2f_inv
    | split
    | intro _
    | dsimp only
    | (unfold State.inv; dsimp only)

theorem execFmax_inv (f : FFmt) (d a b : SReg) {s : State} (hm : s.inv) :
    KeepsOut (execFmax f d a b s) := by
  unfold execFmax
  try dsimp only
  repeat' first
    | with_reducible assumption
    | with_reducible apply State.wf_of_inv
    | with_reducible apply keepsOut_next
    | with_reducible apply State.alu2f_inv
    | split
    | intro _
    | dsimp only
    | (unfold State.inv; dsimp only)

theorem execFminn_inv (f : FFmt) (d a b : SReg) {s : State} (hm : s.inv) :
    KeepsOut (execFminn f d a b s) := by
  unfold execFminn
  try dsimp only
  repeat' first
    | with_reducible assumption
    | with_reducible apply State.wf_of_inv
    | with_reducible apply keepsOut_next
    | with_reducible apply State.alu2f_inv
    | split
    | intro _
    | dsimp only
    | (unfold State.inv; dsimp only)

theorem execFmaxn_inv (f : FFmt) (d a b : SReg) {s : State} (hm : s.inv) :
    KeepsOut (execFmaxn f d a b s) := by
  unfold execFmaxn
  try dsimp only
  repeat' first
    | with_reducible assumption
    | with_reducible apply State.wf_of_inv
    | with_reducible apply keepsOut_next
    | with_reducible apply State.alu2f_inv
    | split
    | intro _
    | dsimp only
    | (unfold State.inv; dsimp only)

theorem execBool3_inv (d a b : SReg) (tab : BitVec 8) {s : State} (hm : s.inv) :
    KeepsOut (execBool3 d a b tab s) := by
  unfold execBool3
  try dsimp only
  repeat' first
    | with_reducible assumption
    | with_reducible apply State.wf_of_inv
    | with_reducible apply keepsOut_next
    | with_reducible apply State.alu2_inv
    | split
    | intro _
    | dsimp only
    | (unfold State.inv; dsimp only)

theorem execFshlImm_inv (d a b : SReg) (sh : BitVec 6) {s : State} (hm : s.inv) :
    KeepsOut (execFshlImm d a b sh s) := by
  unfold execFshlImm
  try dsimp only
  repeat' first
    | with_reducible assumption
    | with_reducible apply State.wf_of_inv
    | with_reducible apply keepsOut_next
    | with_reducible apply State.alu2_inv
    | split
    | intro _
    | dsimp only
    | (unfold State.inv; dsimp only)

theorem execFshrImm_inv (d a b : SReg) (sh : BitVec 6) {s : State} (hm : s.inv) :
    KeepsOut (execFshrImm d a b sh s) := by
  unfold execFshrImm
  try dsimp only
  repeat' first
    | with_reducible assumption
    | with_reducible apply State.wf_of_inv
    | with_reducible apply keepsOut_next
    | with_reducible apply State.alu2_inv
    | split
    | intro _
    | dsimp only
    | (unfold State.inv; dsimp only)

theorem execFshlReg_inv (d a b c : SReg) {s : State} (hm : s.inv) :
    KeepsOut (execFshlReg d a b c s) := by
  unfold execFshlReg
  try dsimp only
  repeat' first
    | with_reducible assumption
    | with_reducible apply State.wf_of_inv
    | with_reducible apply keepsOut_next
    | with_reducible apply State.alu3_inv
    | split
    | intro _
    | dsimp only
    | (unfold State.inv; dsimp only)

theorem execFshrReg_inv (d a b c : SReg) {s : State} (hm : s.inv) :
    KeepsOut (execFshrReg d a b c s) := by
  unfold execFshrReg
  try dsimp only
  repeat' first
    | with_reducible assumption
    | with_reducible apply State.wf_of_inv
    | with_reducible apply keepsOut_next
    | with_reducible apply State.alu3_inv
    | split
    | intro _
    | dsimp only
    | (unfold State.inv; dsimp only)

theorem execExt_inv (d a : SReg) (pos len1 : BitVec 6) {s : State} (hm : s.inv) :
    KeepsOut (execExt d a pos len1 s) := by
  unfold execExt
  try dsimp only
  repeat' first
    | with_reducible assumption
    | with_reducible apply State.wf_of_inv
    | with_reducible apply keepsOut_next
    | with_reducible apply State.alu1_inv
    | split
    | intro _
    | dsimp only
    | (unfold State.inv; dsimp only)

theorem execExtn_inv (d a : SReg) (pos len1 : BitVec 6) {s : State} (hm : s.inv) :
    KeepsOut (execExtn d a pos len1 s) := by
  unfold execExtn
  try dsimp only
  repeat' first
    | with_reducible assumption
    | with_reducible apply State.wf_of_inv
    | with_reducible apply keepsOut_next
    | with_reducible apply State.alu1_inv
    | split
    | intro _
    | dsimp only
    | (unfold State.inv; dsimp only)

theorem execIns_inv (d a : SReg) (pos len1 : BitVec 6) {s : State} (hm : s.inv) :
    KeepsOut (execIns d a pos len1 s) := by
  unfold execIns
  try dsimp only
  repeat' first
    | with_reducible assumption
    | with_reducible apply State.wf_of_inv
    | with_reducible apply keepsOut_next
    | with_reducible apply State.alu1_inv
    | split
    | intro _
    | dsimp only
    | (unfold State.inv; dsimp only)

theorem execAddi_inv (d a : SReg) (imm : BitVec 16) {s : State} (hm : s.inv) :
    KeepsOut (execAddi d a imm s) := by
  unfold execAddi
  try dsimp only
  repeat' first
    | with_reducible assumption
    | with_reducible apply State.wf_of_inv
    | with_reducible apply keepsOut_next
    | with_reducible apply State.alu1_inv
    | split
    | intro _
    | dsimp only
    | (unfold State.inv; dsimp only)

theorem execAndi_inv (d a : SReg) (imm : BitVec 16) {s : State} (hm : s.inv) :
    KeepsOut (execAndi d a imm s) := by
  unfold execAndi
  try dsimp only
  repeat' first
    | with_reducible assumption
    | with_reducible apply State.wf_of_inv
    | with_reducible apply keepsOut_next
    | with_reducible apply State.alu1_inv
    | split
    | intro _
    | dsimp only
    | (unfold State.inv; dsimp only)

theorem execOri_inv (d a : SReg) (imm : BitVec 16) {s : State} (hm : s.inv) :
    KeepsOut (execOri d a imm s) := by
  unfold execOri
  try dsimp only
  repeat' first
    | with_reducible assumption
    | with_reducible apply State.wf_of_inv
    | with_reducible apply keepsOut_next
    | with_reducible apply State.alu1_inv
    | split
    | intro _
    | dsimp only
    | (unfold State.inv; dsimp only)

theorem execXori_inv (d a : SReg) (imm : BitVec 16) {s : State} (hm : s.inv) :
    KeepsOut (execXori d a imm s) := by
  unfold execXori
  try dsimp only
  repeat' first
    | with_reducible assumption
    | with_reducible apply State.wf_of_inv
    | with_reducible apply keepsOut_next
    | with_reducible apply State.alu1_inv
    | split
    | intro _
    | dsimp only
    | (unfold State.inv; dsimp only)

theorem execSlli_inv (d a : SReg) (sh : BitVec 6) {s : State} (hm : s.inv) :
    KeepsOut (execSlli d a sh s) := by
  unfold execSlli
  try dsimp only
  repeat' first
    | with_reducible assumption
    | with_reducible apply State.wf_of_inv
    | with_reducible apply keepsOut_next
    | with_reducible apply State.alu1_inv
    | split
    | intro _
    | dsimp only
    | (unfold State.inv; dsimp only)

theorem execSrli_inv (d a : SReg) (sh : BitVec 6) {s : State} (hm : s.inv) :
    KeepsOut (execSrli d a sh s) := by
  unfold execSrli
  try dsimp only
  repeat' first
    | with_reducible assumption
    | with_reducible apply State.wf_of_inv
    | with_reducible apply keepsOut_next
    | with_reducible apply State.alu1_inv
    | split
    | intro _
    | dsimp only
    | (unfold State.inv; dsimp only)

theorem execSrai_inv (d a : SReg) (sh : BitVec 6) {s : State} (hm : s.inv) :
    KeepsOut (execSrai d a sh s) := by
  unfold execSrai
  try dsimp only
  repeat' first
    | with_reducible assumption
    | with_reducible apply State.wf_of_inv
    | with_reducible apply keepsOut_next
    | with_reducible apply State.alu1_inv
    | split
    | intro _
    | dsimp only
    | (unfold State.inv; dsimp only)

theorem execRori_inv (d a : SReg) (sh : BitVec 6) {s : State} (hm : s.inv) :
    KeepsOut (execRori d a sh s) := by
  unfold execRori
  try dsimp only
  repeat' first
    | with_reducible assumption
    | with_reducible apply State.wf_of_inv
    | with_reducible apply keepsOut_next
    | with_reducible apply State.alu1_inv
    | split
    | intro _
    | dsimp only
    | (unfold State.inv; dsimp only)

theorem State.const_inv {s : State} (len : Nat) (d : SReg) (x : Word) (hm : s.inv) :
    KeepsOut (State.const s len d x) := by
  unfold State.const
  try dsimp only
  repeat' first
    | with_reducible assumption
    | with_reducible apply State.wf_of_inv
    | with_reducible apply keepsOut_next
    | with_reducible apply State.setTh_inv
    | split
    | intro _
    | dsimp only
    | (unfold State.inv; dsimp only)

theorem execLui_inv (d : SReg) (imm : BitVec 21) {s : State} (hm : s.inv) :
    KeepsOut (execLui d imm s) := by
  unfold execLui
  try dsimp only
  repeat' first
    | with_reducible assumption
    | with_reducible apply State.wf_of_inv
    | with_reducible apply keepsOut_next
    | with_reducible apply State.const_inv
    | split
    | intro _
    | dsimp only
    | (unfold State.inv; dsimp only)

theorem execLi_inv (d : SReg) (imm : BitVec 48) {s : State} (hm : s.inv) :
    KeepsOut (execLi d imm s) := by
  unfold execLi
  try dsimp only
  repeat' first
    | with_reducible assumption
    | with_reducible apply State.wf_of_inv
    | with_reducible apply keepsOut_next
    | with_reducible apply State.const_inv
    | split
    | intro _
    | dsimp only
    | (unfold State.inv; dsimp only)

theorem execCmp_inv (qd : QReg) (cond : Cond) (a b : SReg) {s : State} (hm : s.inv) :
    KeepsOut (execCmp qd cond a b s) := by
  unfold execCmp
  try dsimp only
  repeat' first
    | with_reducible assumption
    | with_reducible apply State.wf_of_inv
    | with_reducible apply keepsOut_next
    | with_reducible apply State.setTh_inv
    | split
    | intro _
    | dsimp only
    | (unfold State.inv; dsimp only)

theorem execCmpi_inv (qd : QReg) (cond : Cond) (a : SReg) (imm : BitVec 14) {s : State} (hm : s.inv) :
    KeepsOut (execCmpi qd cond a imm s) := by
  unfold execCmpi
  try dsimp only
  repeat' first
    | with_reducible assumption
    | with_reducible apply State.wf_of_inv
    | with_reducible apply keepsOut_next
    | with_reducible apply State.setTh_inv
    | split
    | intro _
    | dsimp only
    | (unfold State.inv; dsimp only)

theorem execSel_inv (d : SReg) (q : QReg) (a b : SReg) {s : State} (hm : s.inv) :
    KeepsOut (execSel d q a b s) := by
  unfold execSel
  try dsimp only
  repeat' first
    | with_reducible assumption
    | with_reducible apply State.wf_of_inv
    | with_reducible apply keepsOut_next
    | with_reducible apply State.alu2_inv
    | split
    | intro _
    | dsimp only
    | (unfold State.inv; dsimp only)

theorem execLea_inv (d a b : SReg) (sh : BitVec 3) {s : State} (hm : s.inv) :
    KeepsOut (execLea d a b sh s) := by
  unfold execLea
  try dsimp only
  repeat' first
    | with_reducible assumption
    | with_reducible apply State.wf_of_inv
    | with_reducible apply keepsOut_next
    | with_reducible apply State.alu2_inv
    | split
    | intro _
    | dsimp only
    | (unfold State.inv; dsimp only)

theorem execBr_inv (q : QReg) (qn : Quant) (off : BitVec 21) {s : State} (hm : s.inv) :
    KeepsOut (execBr q qn off s) := by
  unfold execBr
  try dsimp only
  repeat' first
    | with_reducible assumption
    | with_reducible apply State.wf_of_inv
    | with_reducible apply keepsOut_next
    | with_reducible apply State.setTh_inv
    | split
    | intro _
    | dsimp only
    | (unfold State.inv; dsimp only)

theorem execJ_inv (off : BitVec 26) {s : State} (hm : s.inv) :
    KeepsOut (execJ off s) := by
  unfold execJ
  try dsimp only
  repeat' first
    | with_reducible assumption
    | with_reducible apply State.wf_of_inv
    | with_reducible apply keepsOut_next
    | with_reducible apply State.setTh_inv
    | split
    | intro _
    | dsimp only
    | (unfold State.inv; dsimp only)

theorem execJal_inv (off : BitVec 26) {s : State} (hm : s.inv) :
    KeepsOut (execJal off s) := by
  unfold execJal
  try dsimp only
  repeat' first
    | with_reducible assumption
    | with_reducible apply State.wf_of_inv
    | with_reducible apply keepsOut_next
    | with_reducible apply State.setTh_inv
    | split
    | intro _
    | dsimp only
    | (unfold State.inv; dsimp only)

theorem execJalr_inv (d a : SReg) (imm : BitVec 16) {s : State} (hm : s.inv) :
    KeepsOut (execJalr d a imm s) := by
  unfold execJalr
  try dsimp only
  repeat' first
    | with_reducible assumption
    | with_reducible apply State.wf_of_inv
    | with_reducible apply keepsOut_next
    | with_reducible apply State.setTh_inv
    | with_reducible apply State.trap_inv
    | split
    | intro _
    | dsimp only
    | (unfold State.inv; dsimp only)

theorem execBtag_inv (off : BitVec 21) {s : State} (hm : s.inv) :
    KeepsOut (execBtag off s) := by
  unfold execBtag
  try dsimp only
  repeat' first
    | with_reducible assumption
    | with_reducible apply State.wf_of_inv
    | with_reducible apply keepsOut_next
    | with_reducible apply State.const_inv
    | split
    | intro _
    | dsimp only
    | (unfold State.inv; dsimp only)

theorem State.loop_inv {s : State} (i : Instr) (n : BitVec 5) (count : BitVec 32) (th : Thread) (hm : s.inv) :
    KeepsOut (State.loop s i n count th) := by
  unfold State.loop
  try dsimp only
  repeat' first
    | with_reducible assumption
    | with_reducible apply State.wf_of_inv
    | with_reducible apply keepsOut_next
    | with_reducible apply State.setTh_inv
    | with_reducible apply State.trapIllegal_inv
    | split
    | intro _
    | dsimp only
    | (unfold State.inv; dsimp only)

theorem execLoopReg_inv (n : BitVec 5) (a : SReg) {s : State} (hm : s.inv) :
    KeepsOut (execLoopReg n a s) := by
  unfold execLoopReg
  try dsimp only
  repeat' first
    | with_reducible assumption
    | with_reducible apply State.wf_of_inv
    | with_reducible apply keepsOut_next
    | with_reducible apply State.loop_inv
    | split
    | intro _
    | dsimp only
    | (unfold State.inv; dsimp only)

theorem execLoopImm_inv (n : BitVec 5) (cnt : BitVec 20) {s : State} (hm : s.inv) :
    KeepsOut (execLoopImm n cnt s) := by
  unfold execLoopImm
  try dsimp only
  repeat' first
    | with_reducible assumption
    | with_reducible apply State.wf_of_inv
    | with_reducible apply keepsOut_next
    | with_reducible apply State.loop_inv
    | split
    | intro _
    | dsimp only
    | (unfold State.inv; dsimp only)

theorem State.retire_inv {s : State} (hm : s.inv) :
    (State.retire s).inv := by
  unfold State.retire
  try dsimp only
  repeat' first
    | with_reducible assumption
    | with_reducible apply State.wf_of_inv
    | with_reducible apply State.setTh_inv
    | split
    | intro _
    | dsimp only
    | (unfold State.inv; dsimp only)

theorem execRet_inv {s : State} (hm : s.inv) :
    KeepsOut (execRet s) := by
  unfold execRet
  try dsimp only
  repeat' first
    | with_reducible assumption
    | with_reducible apply State.wf_of_inv
    | with_reducible apply keepsOut_next
    | with_reducible apply State.atCommit_inv
    | with_reducible apply State.retire_inv
    | split
    | intro _
    | dsimp only
    | (unfold State.inv; dsimp only)

theorem State.markDone_inv {s : State} (hm : s.inv) :
    (State.markDone s).inv := by
  unfold State.markDone
  try dsimp only
  repeat' first
    | with_reducible assumption
    | with_reducible apply State.wf_of_inv
    | split
    | intro _
    | dsimp only
    | (unfold State.inv; dsimp only)

theorem execJdone_inv {s : State} (hm : s.inv) :
    KeepsOut (execJdone s) := by
  unfold execJdone
  try dsimp only
  repeat' first
    | with_reducible assumption
    | with_reducible apply State.wf_of_inv
    | with_reducible apply keepsOut_next
    | with_reducible apply State.atCommit_inv
    | with_reducible apply State.retire_inv
    | with_reducible apply State.markDone_inv
    | split
    | intro _
    | dsimp only
    | (unfold State.inv; dsimp only)

theorem execNop_inv {s : State} (hm : s.inv) :
    KeepsOut (execNop s) := by
  unfold execNop
  try dsimp only
  repeat' first
    | with_reducible assumption
    | with_reducible apply State.wf_of_inv
    | with_reducible apply keepsOut_next
    | with_reducible apply State.setTh_inv
    | split
    | intro _
    | dsimp only
    | (unfold State.inv; dsimp only)

theorem execYield_inv {s : State} (hm : s.inv) :
    KeepsOut (execYield s) := by
  unfold execYield
  try dsimp only
  repeat' first
    | with_reducible assumption
    | with_reducible apply State.wf_of_inv
    | with_reducible apply keepsOut_next
    | with_reducible apply State.setTh_inv
    | split
    | intro _
    | dsimp only
    | (unfold State.inv; dsimp only)

theorem execTrap_inv (imm : BitVec 16) {s : State} (hm : s.inv) :
    KeepsOut (execTrap imm s) := by
  unfold execTrap
  try dsimp only
  repeat' first
    | with_reducible assumption
    | with_reducible apply State.wf_of_inv
    | with_reducible apply keepsOut_next
    | with_reducible apply State.trapAt_inv
    | split
    | intro _
    | dsimp only
    | (unfold State.inv; dsimp only)

theorem execBrk_inv (imm : BitVec 16) {s : State} (hm : s.inv) :
    KeepsOut (execBrk imm s) := by
  unfold execBrk
  try dsimp only
  repeat' first
    | with_reducible assumption
    | with_reducible apply State.wf_of_inv
    | with_reducible apply keepsOut_next
    | with_reducible apply State.trap_inv
    | split
    | intro _
    | dsimp only
    | (unfold State.inv; dsimp only)

theorem execEret_inv {s : State} (hm : s.inv) :
    KeepsOut (execEret s) := by
  unfold execEret
  try dsimp only
  repeat' first
    | with_reducible assumption
    | with_reducible apply State.wf_of_inv
    | with_reducible apply keepsOut_next
    | with_reducible apply State.trap_inv
    | with_reducible apply State.trapIllegal_inv
    | with_reducible apply State.eret_inv
    | split
    | intro _
    | dsimp only
    | (unfold State.inv; dsimp only)

theorem execCommit_inv {s : State} (hm : s.inv) :
    KeepsOut (execCommit s) := by
  unfold execCommit
  try dsimp only
  repeat' first
    | with_reducible assumption
    | with_reducible apply State.wf_of_inv
    | with_reducible apply keepsOut_next
    | with_reducible apply State.setTh_inv
    | with_reducible apply State.atCommit_inv
    | split
    | intro _
    | dsimp only
    | (unfold State.inv; dsimp only)

theorem execWait_inv (a : SReg) {s : State} (hm : s.inv) :
    KeepsOut (execWait a s) := by
  unfold execWait
  try dsimp only
  repeat' first
    | with_reducible assumption
    | with_reducible apply State.wf_of_inv
    | with_reducible apply keepsOut_next
    | with_reducible apply State.setTh_inv
    | split
    | intro _
    | dsimp only
    | (unfold State.inv; dsimp only)

theorem execFence_inv (scope : Scope) {s : State} (hm : s.inv) :
    KeepsOut (execFence scope s) := by
  unfold execFence
  try dsimp only
  repeat' first
    | with_reducible assumption
    | with_reducible apply State.wf_of_inv
    | with_reducible apply keepsOut_next
    | with_reducible apply State.setTh_inv
    | with_reducible apply State.stall_inv
    | split
    | intro _
    | dsimp only
    | (unfold State.inv; dsimp only)

theorem execIllegalInstruction_inv (bits : BitVec 64) {s : State} (hm : s.inv) :
    KeepsOut (execIllegalInstruction bits s) := by
  unfold execIllegalInstruction
  try dsimp only
  repeat' first
    | with_reducible assumption
    | with_reducible apply State.wf_of_inv
    | with_reducible apply keepsOut_next
    | with_reducible apply State.trap_inv
    | split
    | intro _
    | dsimp only
    | (unfold State.inv; dsimp only)

theorem State.poisonedLoad_inv {s : State} (th : Thread) (dest : Dest) (addr : Word) (hm : s.inv) :
    (State.poisonedLoad s th dest addr).inv := by
  unfold State.poisonedLoad
  try dsimp only
  repeat' first
    | with_reducible assumption
    | with_reducible apply State.wf_of_inv
    | with_reducible apply State.setTh_inv
    | split
    | intro _
    | dsimp only
    | (unfold State.inv; dsimp only)

theorem execLdn_inv (sz : MSize) (x : Bool) (d a : SReg) (off : BitVec 12) {s : State} (hm : s.inv) :
    KeepsOut (execLdn sz x d a off s) := by
  unfold execLdn
  try dsimp only
  repeat' first
    | with_reducible assumption
    | with_reducible apply State.wf_of_inv
    | with_reducible apply keepsOut_next
    | with_reducible apply State.setTh_inv
    | with_reducible apply State.trap_inv
    | with_reducible apply State.poisonedLoad_inv
    | split
    | intro _
    | dsimp only
    | (unfold State.inv; dsimp only)

theorem State.nearStore_inv {s : State} (th : Thread) (p : Nat) (data : Word) (mask : BitVec 16) (hm : s.inv) :
    (State.nearStore s th p data mask).inv := by
  unfold State.nearStore
  try dsimp only
  repeat' first
    | with_reducible assumption
    | with_reducible apply State.wf_of_inv
    | with_reducible apply State.storeWord_inv
    | with_reducible apply State.setTh_inv
    | with_reducible apply State.withRoom_inv
    | split
    | intro _
    | dsimp only
    | (unfold State.inv; dsimp only)

theorem execStn_inv (sz : MSize) (d a : SReg) (off : BitVec 12) {s : State} (hm : s.inv) :
    KeepsOut (execStn sz d a off s) := by
  unfold execStn
  try dsimp only
  repeat' first
    | with_reducible assumption
    | with_reducible apply State.wf_of_inv
    | with_reducible apply keepsOut_next
    | with_reducible apply State.trap_inv
    | with_reducible apply State.nearStore_inv
    | split
    | intro _
    | dsimp only
    | (unfold State.inv; dsimp only)

theorem execStnb_inv (d a : SReg) (n1 : BitVec 4) (h : Bool) (off : BitVec 11) {s : State} (hm : s.inv) :
    KeepsOut (execStnb d a n1 h off s) := by
  unfold execStnb
  try dsimp only
  repeat' first
    | with_reducible assumption
    | with_reducible apply State.wf_of_inv
    | with_reducible apply keepsOut_next
    | with_reducible apply State.trap_inv
    | with_reducible apply State.nearStore_inv
    | split
    | intro _
    | dsimp only
    | (unfold State.inv; dsimp only)

theorem execVldn_inv (vd : VReg) (a : SReg) (qp : QReg) (off : BitVec 12) {s : State} (hm : s.inv) :
    KeepsOut (execVldn vd a qp off s) := by
  unfold execVldn
  try dsimp only
  repeat' first
    | with_reducible assumption
    | with_reducible apply State.wf_of_inv
    | with_reducible apply keepsOut_next
    | with_reducible apply State.setTh_inv
    | with_reducible apply State.trap_inv
    | with_reducible apply State.poisonedLoad_inv
    | split
    | intro _
    | dsimp only
    | (unfold State.inv; dsimp only)

theorem State.nearStores_inv {s : State} (th : Thread) (ws : List (Nat × Word)) (hm : s.inv) :
    (State.nearStores s th ws).inv := by
  unfold State.nearStores
  try dsimp only
  repeat' first
    | with_reducible assumption
    | with_reducible apply State.wf_of_inv
    | with_reducible apply State.storeWords_inv
    | with_reducible apply State.setTh_inv
    | with_reducible apply State.withRoom_inv
    | with_reducible apply getD_inv
    | with_reducible apply foldl_inv
    | split
    | intro _
    | dsimp only
    | (unfold State.inv; dsimp only)

theorem execVstn_inv (vd : VReg) (a : SReg) (qp : QReg) (off : BitVec 12) {s : State} (hm : s.inv) :
    KeepsOut (execVstn vd a qp off s) := by
  unfold execVstn
  try dsimp only
  repeat' first
    | with_reducible assumption
    | with_reducible apply State.wf_of_inv
    | with_reducible apply keepsOut_next
    | with_reducible apply State.trap_inv
    | with_reducible apply State.nearStores_inv
    | split
    | intro _
    | dsimp only
    | (unfold State.inv; dsimp only)

theorem execVgthn_inv (vd : VReg) (a : SReg) (qp : QReg) (vi : VReg) (sc : BitVec 2) {s : State} (hm : s.inv) :
    KeepsOut (execVgthn vd a qp vi sc s) := by
  unfold execVgthn
  try dsimp only
  repeat' first
    | with_reducible assumption
    | with_reducible apply State.wf_of_inv
    | with_reducible apply keepsOut_next
    | with_reducible apply State.setTh_inv
    | with_reducible apply State.trap_inv
    | with_reducible apply State.poisonedLoad_inv
    | with_reducible apply getD_inv
    | split
    | intro _
    | dsimp only
    | (unfold State.inv; dsimp only)

theorem execVsctn_inv (vd : VReg) (a : SReg) (qp : QReg) (vi : VReg) (sc : BitVec 2) {s : State} (hm : s.inv) :
    KeepsOut (execVsctn vd a qp vi sc s) := by
  unfold execVsctn
  try dsimp only
  repeat' first
    | with_reducible assumption
    | with_reducible apply State.wf_of_inv
    | with_reducible apply keepsOut_next
    | with_reducible apply State.trap_inv
    | with_reducible apply State.nearStores_inv
    | split
    | intro _
    | dsimp only
    | (unfold State.inv; dsimp only)

theorem execTdir_inv (d a : SReg) {s : State} (hm : s.inv) :
    KeepsOut (execTdir d a s) := by
  unfold execTdir
  try dsimp only
  repeat' first
    | with_reducible assumption
    | with_reducible apply State.wf_of_inv
    | with_reducible apply keepsOut_next
    | with_reducible apply State.setTh_inv
    | with_reducible apply State.trap_inv
    | split
    | intro _
    | dsimp only
    | (unfold State.inv; dsimp only)

theorem State.farRead_inv {s : State} (th : Thread) (g : Word) (n : Nat) (kind : ReadKind) (dest : Dest) (sext : Bool) (hm : s.inv) :
    (State.farRead s th g n kind dest sext).inv := by
  unfold State.farRead
  try dsimp only
  repeat' first
    | with_reducible assumption
    | with_reducible apply State.wf_of_inv
    | with_reducible apply State.setTh_inv
    | with_reducible apply State.stall_inv
    | with_reducible apply State.postSelf_inv
    | with_reducible apply State.request_inv
    | split
    | intro _
    | dsimp only
    | (unfold State.inv; dsimp only)

theorem execLdf_inv (sz : MSize) (x : Bool) (d a : SReg) (off : BitVec 12) {s : State} (hm : s.inv) :
    KeepsOut (execLdf sz x d a off s) := by
  unfold execLdf
  try dsimp only
  repeat' first
    | with_reducible assumption
    | with_reducible apply State.wf_of_inv
    | with_reducible apply keepsOut_next
    | with_reducible apply State.trap_inv
    | with_reducible apply State.farRead_inv
    | split
    | intro _
    | dsimp only
    | (unfold State.inv; dsimp only)

theorem State.farStores_inv {s : State} (th : Thread) (ws : List (Word × Word × BitVec 16)) (hm : s.inv) :
    (State.farStores s th ws).inv := by
  unfold State.farStores
  try dsimp only
  repeat' first
    | with_reducible assumption
    | with_reducible apply State.wf_of_inv
    | with_reducible apply State.setTh_inv
    | with_reducible apply State.withRoom_inv
    | with_reducible apply getD_inv
    | with_reducible apply foldl_inv
    | split
    | intro _
    | dsimp only
    | (unfold State.inv; dsimp only)

theorem execStf_inv (sz : MSize) (d a : SReg) (off : BitVec 12) {s : State} (hm : s.inv) :
    KeepsOut (execStf sz d a off s) := by
  unfold execStf
  try dsimp only
  repeat' first
    | with_reducible assumption
    | with_reducible apply State.wf_of_inv
    | with_reducible apply keepsOut_next
    | with_reducible apply State.trap_inv
    | with_reducible apply State.farStores_inv
    | split
    | intro _
    | dsimp only
    | (unfold State.inv; dsimp only)

theorem execVldf_inv (vd : VReg) (a : SReg) (qp : QReg) (off : BitVec 12) {s : State} (hm : s.inv) :
    KeepsOut (execVldf vd a qp off s) := by
  unfold execVldf
  try dsimp only
  repeat' first
    | with_reducible assumption
    | with_reducible apply State.wf_of_inv
    | with_reducible apply keepsOut_next
    | with_reducible apply State.setTh_inv
    | with_reducible apply State.trap_inv
    | with_reducible apply State.farRead_inv
    | split
    | intro _
    | dsimp only
    | (unfold State.inv; dsimp only)

theorem execVstf_inv (vd : VReg) (a : SReg) (qp : QReg) (off : BitVec 12) {s : State} (hm : s.inv) :
    KeepsOut (execVstf vd a qp off s) := by
  unfold execVstf
  try dsimp only
  repeat' first
    | with_reducible assumption
    | with_reducible apply State.wf_of_inv
    | with_reducible apply keepsOut_next
    | with_reducible apply State.trap_inv
    | with_reducible apply State.farStores_inv
    | split
    | intro _
    | dsimp only
    | (unfold State.inv; dsimp only)

theorem execAmoPost_inv (op : AmoOp) (dbl : Bool) (a b : SReg) {s : State} (hm : s.inv) :
    KeepsOut (execAmoPost op dbl a b s) := by
  unfold execAmoPost
  try dsimp only
  repeat' first
    | with_reducible assumption
    | with_reducible apply State.wf_of_inv
    | with_reducible apply keepsOut_next
    | with_reducible apply State.setTh_inv
    | with_reducible apply State.trap_inv
    | with_reducible apply State.withRoom_inv
    | split
    | intro _
    | dsimp only
    | (unfold State.inv; dsimp only)

theorem State.blocking_inv {s : State} (i : Instr) (d : SReg) (g : Word) (bytes kind : Nat) (words : List Word) (aux : Nat) (hm : s.inv) :
    (State.blocking s i d g bytes kind words aux).inv := by
  unfold State.blocking
  try dsimp only
  repeat' first
    | with_reducible assumption
    | with_reducible apply State.wf_of_inv
    | with_reducible apply State.setTh_inv
    | with_reducible apply State.stall_inv
    | with_reducible apply State.request_inv
    | with_reducible apply State.atCommit_inv
    | split
    | intro _
    | dsimp only
    | (unfold State.inv; dsimp only)

theorem execAmoFetch_inv (op : AmoOp) (dbl : Bool) (d a b : SReg) {s : State} (hm : s.inv) :
    KeepsOut (execAmoFetch op dbl d a b s) := by
  unfold execAmoFetch
  try dsimp only
  repeat' first
    | with_reducible assumption
    | with_reducible apply State.wf_of_inv
    | with_reducible apply keepsOut_next
    | with_reducible apply State.trap_inv
    | with_reducible apply State.blocking_inv
    | split
    | intro _
    | dsimp only
    | (unfold State.inv; dsimp only)

theorem execCas_inv (dbl : Bool) (d a b : SReg) {s : State} (hm : s.inv) :
    KeepsOut (execCas dbl d a b s) := by
  unfold execCas
  try dsimp only
  repeat' first
    | with_reducible assumption
    | with_reducible apply State.wf_of_inv
    | with_reducible apply keepsOut_next
    | with_reducible apply State.trap_inv
    | with_reducible apply State.blocking_inv
    | split
    | intro _
    | dsimp only
    | (unfold State.inv; dsimp only)

theorem execGet_inv (cls : Cls) (a : SReg) (lab : Label) (t : BitVec 4) (b : SReg) {s : State} (hm : s.inv) :
    KeepsOut (execGet cls a lab t b s) := by
  unfold execGet
  try dsimp only
  repeat' first
    | with_reducible assumption
    | with_reducible apply State.wf_of_inv
    | with_reducible apply keepsOut_next
    | with_reducible apply State.trap_inv
    | with_reducible apply State.farRead_inv
    | split
    | intro _
    | dsimp only
    | (unfold State.inv; dsimp only)

theorem execPut_inv (a : SReg) (t : BitVec 4) (b : SReg) {s : State} (hm : s.inv) :
    KeepsOut (execPut a t b s) := by
  unfold execPut
  try dsimp only
  repeat' first
    | with_reducible assumption
    | with_reducible apply State.wf_of_inv
    | with_reducible apply keepsOut_next
    | with_reducible apply State.setTh_inv
    | with_reducible apply State.trap_inv
    | with_reducible apply State.withRoom_inv
    | split
    | intro _
    | dsimp only
    | (unfold State.inv; dsimp only)

theorem State.sendEntry_inv {s : State} (th : Thread) (dsts : List (BitVec 27)) (cls : Cls) (lab : Label) (tag : BitVec 4) (ws : List Word) (rel ctl keepOut : Bool) (hm : s.inv) :
    (State.sendEntry s th dsts cls lab tag ws rel ctl keepOut).inv := by
  unfold State.sendEntry
  try dsimp only
  repeat' first
    | with_reducible assumption
    | with_reducible apply State.wf_of_inv
    | with_reducible apply State.setTh_inv
    | with_reducible apply State.withRoom_inv
    | with_reducible apply State.ctl_inv
    | split
    | intro _
    | dsimp only
    | (unfold State.inv; dsimp only)

theorem State.sendOne_inv {s : State} (a : SReg) (cls : Cls) (lab : Label) (tag : BitVec 4) (rel : Bool) (vec : Option VReg) (hm : s.inv) :
    (State.sendOne s a cls lab tag rel vec).inv := by
  unfold State.sendOne
  try dsimp only
  repeat' first
    | with_reducible assumption
    | with_reducible apply State.wf_of_inv
    | with_reducible apply State.trap_inv
    | with_reducible apply State.sendEntry_inv
    | split
    | intro _
    | dsimp only
    | (unfold State.inv; dsimp only)

theorem execSend_inv (cls : Cls) (a : SReg) (lab : Label) (tag : BitVec 4) {s : State} (hm : s.inv) :
    KeepsOut (execSend cls a lab tag s) := by
  unfold execSend
  try dsimp only
  repeat' first
    | with_reducible assumption
    | with_reducible apply State.wf_of_inv
    | with_reducible apply keepsOut_next
    | with_reducible apply State.sendOne_inv
    | split
    | intro _
    | dsimp only
    | (unfold State.inv; dsimp only)

theorem execSendR_inv (cls : Cls) (a : SReg) (lab : Label) (tag : BitVec 4) {s : State} (hm : s.inv) :
    KeepsOut (execSendR cls a lab tag s) := by
  unfold execSendR
  try dsimp only
  repeat' first
    | with_reducible assumption
    | with_reducible apply State.wf_of_inv
    | with_reducible apply keepsOut_next
    | with_reducible apply State.sendOne_inv
    | split
    | intro _
    | dsimp only
    | (unfold State.inv; dsimp only)

theorem execSendv_inv (cls : Cls) (a : SReg) (lab : Label) (tag : BitVec 4) (vb : VReg) {s : State} (hm : s.inv) :
    KeepsOut (execSendv cls a lab tag vb s) := by
  unfold execSendv
  try dsimp only
  repeat' first
    | with_reducible assumption
    | with_reducible apply State.wf_of_inv
    | with_reducible apply keepsOut_next
    | with_reducible apply State.sendOne_inv
    | split
    | intro _
    | dsimp only
    | (unfold State.inv; dsimp only)

theorem execMcast_inv (cls : Cls) (a : SReg) (lab : Label) (tag : BitVec 4) {s : State} (hm : s.inv) :
    KeepsOut (execMcast cls a lab tag s) := by
  unfold execMcast
  try dsimp only
  repeat' first
    | with_reducible assumption
    | with_reducible apply State.wf_of_inv
    | with_reducible apply keepsOut_next
    | with_reducible apply State.trap_inv
    | with_reducible apply State.sendEntry_inv
    | split
    | intro _
    | dsimp only
    | (unfold State.inv; dsimp only)

theorem State.recvTake_inv {s : State} (c : CoreIx) (t : ThrIx) (m : Message) (hm : s.inv) :
    (State.recvTake s c t m).inv := by
  unfold State.recvTake
  try dsimp only
  repeat' first
    | with_reducible assumption
    | with_reducible apply State.wf_of_inv
    | with_reducible apply State.modTh_inv
    | with_reducible apply State.dequeueEffects_inv
    | with_reducible apply State.trapOverflow_inv
    | split
    | intro _
    | dsimp only
    | (unfold State.inv; dsimp only)

theorem execRecv_inv (lab : Label) {s : State} (hm : s.inv) :
    KeepsOut (execRecv lab s) := by
  unfold execRecv
  try dsimp only
  repeat' first
    | with_reducible assumption
    | with_reducible apply State.wf_of_inv
    | with_reducible apply keepsOut_next
    | with_reducible apply State.setCore_inv
    | with_reducible apply State.setTh_inv
    | with_reducible apply State.trap_inv
    | with_reducible apply State.recvTake_inv
    | with_reducible apply getD_inv
    | split
    | intro _
    | dsimp only
    | (unfold State.inv; dsimp only)

theorem State.setEn_inv {s : State} (lab : Label) (en : Bool) (hm : s.inv) :
    (State.setEn s lab en).inv := by
  unfold State.setEn
  try dsimp only
  repeat' first
    | with_reducible assumption
    | with_reducible apply State.wf_of_inv
    | with_reducible apply State.modK_inv
    | split
    | intro _
    | dsimp only
    | (unfold State.inv; dsimp only)

theorem execArm_inv (lab : Label) {s : State} (hm : s.inv) :
    KeepsOut (execArm lab s) := by
  unfold execArm
  try dsimp only
  repeat' first
    | with_reducible assumption
    | with_reducible apply State.wf_of_inv
    | with_reducible apply keepsOut_next
    | with_reducible apply State.setTh_inv
    | with_reducible apply State.setEn_inv
    | split
    | intro _
    | dsimp only
    | (unfold State.inv; dsimp only)

theorem execDisarm_inv (lab : Label) {s : State} (hm : s.inv) :
    KeepsOut (execDisarm lab s) := by
  unfold execDisarm
  try dsimp only
  repeat' first
    | with_reducible assumption
    | with_reducible apply State.wf_of_inv
    | with_reducible apply keepsOut_next
    | with_reducible apply State.setTh_inv
    | with_reducible apply State.setEn_inv
    | split
    | intro _
    | dsimp only
    | (unfold State.inv; dsimp only)

theorem execTcnt_inv (d : SReg) (lab : Label) {s : State} (hm : s.inv) :
    KeepsOut (execTcnt d lab s) := by
  unfold execTcnt
  try dsimp only
  repeat' first
    | with_reducible assumption
    | with_reducible apply State.wf_of_inv
    | with_reducible apply keepsOut_next
    | with_reducible apply State.const_inv
    | split
    | intro _
    | dsimp only
    | (unfold State.inv; dsimp only)

theorem execSetf_inv (mask : Byte) {s : State} (hm : s.inv) :
    KeepsOut (execSetf mask s) := by
  unfold execSetf
  try dsimp only
  repeat' first
    | with_reducible assumption
    | with_reducible apply State.wf_of_inv
    | with_reducible apply keepsOut_next
    | with_reducible apply State.setTh_inv
    | with_reducible apply State.modK_inv
    | split
    | intro _
    | dsimp only
    | (unfold State.inv; dsimp only)

theorem execClrf_inv (mask : Byte) {s : State} (hm : s.inv) :
    KeepsOut (execClrf mask s) := by
  unfold execClrf
  try dsimp only
  repeat' first
    | with_reducible assumption
    | with_reducible apply State.wf_of_inv
    | with_reducible apply keepsOut_next
    | with_reducible apply State.setTh_inv
    | with_reducible apply State.modK_inv
    | split
    | intro _
    | dsimp only
    | (unfold State.inv; dsimp only)

theorem State.setTail_inv {s : State} (job : BitVec 8) (h : Word) (hm : s.inv) :
    (State.setTail s job h).inv := by
  unfold State.setTail
  try dsimp only
  repeat' first
    | with_reducible assumption
    | with_reducible apply State.wf_of_inv
    | split
    | intro _
    | dsimp only
    | (unfold State.inv; dsimp only)

theorem execTlaunch_inv (a : SReg) {s : State} (hm : s.inv) :
    KeepsOut (execTlaunch a s) := by
  unfold execTlaunch
  try dsimp only
  repeat' first
    | with_reducible assumption
    | with_reducible apply State.wf_of_inv
    | with_reducible apply keepsOut_next
    | with_reducible apply State.setTh_inv
    | with_reducible apply State.setTail_inv
    | split
    | intro _
    | dsimp only
    | (unfold State.inv; dsimp only)

theorem State.barPacket_inv {s : State} (g : Group) (grp : BitVec 8) (hm : s.inv) :
    (State.barPacket s g grp).inv := by
  unfold State.barPacket
  try dsimp only
  repeat' first
    | with_reducible assumption
    | with_reducible apply State.wf_of_inv
    | with_reducible apply State.launch_inv
    | with_reducible apply State.violation_inv
    | with_reducible apply getD_inv
    | split
    | intro _
    | dsimp only
    | (unfold State.inv; dsimp only)

theorem State.setBar_inv {s : State} (grp : BitVec 8) (b : BarSt) (hm : s.inv) :
    (State.setBar s grp b).inv := by
  unfold State.setBar
  try dsimp only
  repeat' first
    | with_reducible assumption
    | with_reducible apply State.wf_of_inv
    | with_reducible apply State.modK_inv
    | split
    | intro _
    | dsimp only
    | (unfold State.inv; dsimp only)

theorem execBar_inv (grp : BitVec 8) {s : State} (hm : s.inv) :
    KeepsOut (execBar grp s) := by
  unfold execBar
  try dsimp only
  repeat' first
    | with_reducible assumption
    | with_reducible apply State.wf_of_inv
    | with_reducible apply keepsOut_next
    | with_reducible apply State.setTh_inv
    | with_reducible apply State.stall_inv
    | with_reducible apply State.trap_inv
    | with_reducible apply State.barPacket_inv
    | with_reducible apply State.setBar_inv
    | split
    | intro _
    | dsimp only
    | (unfold State.inv; dsimp only)

theorem execArrive_inv (grp : BitVec 8) {s : State} (hm : s.inv) :
    KeepsOut (execArrive grp s) := by
  unfold execArrive
  try dsimp only
  repeat' first
    | with_reducible assumption
    | with_reducible apply State.wf_of_inv
    | with_reducible apply keepsOut_next
    | with_reducible apply State.setTh_inv
    | with_reducible apply State.stall_inv
    | with_reducible apply State.trap_inv
    | with_reducible apply State.barPacket_inv
    | with_reducible apply State.setBar_inv
    | split
    | intro _
    | dsimp only
    | (unfold State.inv; dsimp only)

theorem State.vdone_inv {s : State} (vd : VReg) (r : Vec × Flags) (hm : s.inv) :
    KeepsOut (State.vdone s vd r) := by
  unfold State.vdone
  try dsimp only
  repeat' first
    | with_reducible assumption
    | with_reducible apply State.wf_of_inv
    | with_reducible apply keepsOut_next
    | with_reducible apply State.setTh_inv
    | split
    | intro _
    | dsimp only
    | (unfold State.inv; dsimp only)

theorem State.vmap_inv {s : State} (w : Nat) (vd va vb : VReg) (qp : QReg) (op : Nat → Nat → Nat → Nat × Flags) (hm : s.inv) :
    KeepsOut (State.vmap s w vd va vb qp op) := by
  unfold State.vmap
  try dsimp only
  repeat' first
    | with_reducible assumption
    | with_reducible apply State.wf_of_inv
    | with_reducible apply keepsOut_next
    | with_reducible apply State.vdone_inv
    | split
    | intro _
    | dsimp only
    | (unfold State.inv; dsimp only)

theorem State.vint_inv {s : State} (ty : VTy) (vd va vb : VReg) (qp : QReg) (op : IFmt → Nat → Nat → Nat × Flags) (hm : s.inv) :
    KeepsOut (State.vint s ty vd va vb qp op) := by
  unfold State.vint
  try dsimp only
  repeat' first
    | with_reducible assumption
    | with_reducible apply State.wf_of_inv
    | with_reducible apply keepsOut_next
    | with_reducible apply State.vmap_inv
    | split
    | intro _
    | dsimp only
    | (unfold State.inv; dsimp only)

theorem execVaddInt_inv (ty : VTy) (vd va vb : VReg) (qp : QReg) {s : State} (hm : s.inv) :
    KeepsOut (execVaddInt ty vd va vb qp s) := by
  unfold execVaddInt
  try dsimp only
  repeat' first
    | with_reducible assumption
    | with_reducible apply State.wf_of_inv
    | with_reducible apply keepsOut_next
    | with_reducible apply State.vint_inv
    | split
    | intro _
    | dsimp only
    | (unfold State.inv; dsimp only)

theorem execVsubInt_inv (ty : VTy) (vd va vb : VReg) (qp : QReg) {s : State} (hm : s.inv) :
    KeepsOut (execVsubInt ty vd va vb qp s) := by
  unfold execVsubInt
  try dsimp only
  repeat' first
    | with_reducible assumption
    | with_reducible apply State.wf_of_inv
    | with_reducible apply keepsOut_next
    | with_reducible apply State.vint_inv
    | split
    | intro _
    | dsimp only
    | (unfold State.inv; dsimp only)

theorem execVmulInt_inv (ty : VTy) (vd va vb : VReg) (qp : QReg) {s : State} (hm : s.inv) :
    KeepsOut (execVmulInt ty vd va vb qp s) := by
  unfold execVmulInt
  try dsimp only
  repeat' first
    | with_reducible assumption
    | with_reducible apply State.wf_of_inv
    | with_reducible apply keepsOut_next
    | with_reducible apply State.vint_inv
    | split
    | intro _
    | dsimp only
    | (unfold State.inv; dsimp only)

theorem execVmulh_inv (ty : VTy) (vd va vb : VReg) (qp : QReg) {s : State} (hm : s.inv) :
    KeepsOut (execVmulh ty vd va vb qp s) := by
  unfold execVmulh
  try dsimp only
  repeat' first
    | with_reducible assumption
    | with_reducible apply State.wf_of_inv
    | with_reducible apply keepsOut_next
    | with_reducible apply State.vint_inv
    | split
    | intro _
    | dsimp only
    | (unfold State.inv; dsimp only)

theorem execVadds_inv (ty : VTy) (vd va vb : VReg) (qp : QReg) {s : State} (hm : s.inv) :
    KeepsOut (execVadds ty vd va vb qp s) := by
  unfold execVadds
  try dsimp only
  repeat' first
    | with_reducible assumption
    | with_reducible apply State.wf_of_inv
    | with_reducible apply keepsOut_next
    | with_reducible apply State.vint_inv
    | split
    | intro _
    | dsimp only
    | (unfold State.inv; dsimp only)

theorem execVsubs_inv (ty : VTy) (vd va vb : VReg) (qp : QReg) {s : State} (hm : s.inv) :
    KeepsOut (execVsubs ty vd va vb qp s) := by
  unfold execVsubs
  try dsimp only
  repeat' first
    | with_reducible assumption
    | with_reducible apply State.wf_of_inv
    | with_reducible apply keepsOut_next
    | with_reducible apply State.vint_inv
    | split
    | intro _
    | dsimp only
    | (unfold State.inv; dsimp only)

theorem execVminInt_inv (ty : VTy) (vd va vb : VReg) (qp : QReg) {s : State} (hm : s.inv) :
    KeepsOut (execVminInt ty vd va vb qp s) := by
  unfold execVminInt
  try dsimp only
  repeat' first
    | with_reducible assumption
    | with_reducible apply State.wf_of_inv
    | with_reducible apply keepsOut_next
    | with_reducible apply State.vint_inv
    | split
    | intro _
    | dsimp only
    | (unfold State.inv; dsimp only)

theorem execVmaxInt_inv (ty : VTy) (vd va vb : VReg) (qp : QReg) {s : State} (hm : s.inv) :
    KeepsOut (execVmaxInt ty vd va vb qp s) := by
  unfold execVmaxInt
  try dsimp only
  repeat' first
    | with_reducible assumption
    | with_reducible apply State.wf_of_inv
    | with_reducible apply keepsOut_next
    | with_reducible apply State.vint_inv
    | split
    | intro _
    | dsimp only
    | (unfold State.inv; dsimp only)

theorem execVand_inv (ty : VTy) (vd va vb : VReg) (qp : QReg) {s : State} (hm : s.inv) :
    KeepsOut (execVand ty vd va vb qp s) := by
  unfold execVand
  try dsimp only
  repeat' first
    | with_reducible assumption
    | with_reducible apply State.wf_of_inv
    | with_reducible apply keepsOut_next
    | with_reducible apply State.vint_inv
    | split
    | intro _
    | dsimp only
    | (unfold State.inv; dsimp only)

theorem execVor_inv (ty : VTy) (vd va vb : VReg) (qp : QReg) {s : State} (hm : s.inv) :
    KeepsOut (execVor ty vd va vb qp s) := by
  unfold execVor
  try dsimp only
  repeat' first
    | with_reducible assumption
    | with_reducible apply State.wf_of_inv
    | with_reducible apply keepsOut_next
    | with_reducible apply State.vint_inv
    | split
    | intro _
    | dsimp only
    | (unfold State.inv; dsimp only)

theorem execVxor_inv (ty : VTy) (vd va vb : VReg) (qp : QReg) {s : State} (hm : s.inv) :
    KeepsOut (execVxor ty vd va vb qp s) := by
  unfold execVxor
  try dsimp only
  repeat' first
    | with_reducible assumption
    | with_reducible apply State.wf_of_inv
    | with_reducible apply keepsOut_next
    | with_reducible apply State.vint_inv
    | split
    | intro _
    | dsimp only
    | (unfold State.inv; dsimp only)

theorem execVabsInt_inv (ty : VTy) (vd va : VReg) (qp : QReg) {s : State} (hm : s.inv) :
    KeepsOut (execVabsInt ty vd va qp s) := by
  unfold execVabsInt
  try dsimp only
  repeat' first
    | with_reducible assumption
    | with_reducible apply State.wf_of_inv
    | with_reducible apply keepsOut_next
    | with_reducible apply State.vint_inv
    | split
    | intro _
    | dsimp only
    | (unfold State.inv; dsimp only)

theorem execVnegInt_inv (ty : VTy) (vd va : VReg) (qp : QReg) {s : State} (hm : s.inv) :
    KeepsOut (execVnegInt ty vd va qp s) := by
  unfold execVnegInt
  try dsimp only
  repeat' first
    | with_reducible assumption
    | with_reducible apply State.wf_of_inv
    | with_reducible apply keepsOut_next
    | with_reducible apply State.vint_inv
    | split
    | intro _
    | dsimp only
    | (unfold State.inv; dsimp only)

theorem State.vfp_inv {s : State} (f : FFmt) (rm : Rm) (vd va vb : VReg) (qp : QReg) (op : FF → RMode → Nat → Nat → Nat → Nat × Flags) (hm : s.inv) :
    KeepsOut (State.vfp s f rm vd va vb qp op) := by
  unfold State.vfp
  try dsimp only
  repeat' first
    | with_reducible assumption
    | with_reducible apply State.wf_of_inv
    | with_reducible apply keepsOut_next
    | with_reducible apply State.vmap_inv
    | split
    | intro _
    | dsimp only
    | (unfold State.inv; dsimp only)

theorem execVaddFp_inv (f : FFmt) (rm : Rm) (vd va vb : VReg) (qp : QReg) {s : State} (hm : s.inv) :
    KeepsOut (execVaddFp f rm vd va vb qp s) := by
  unfold execVaddFp
  try dsimp only
  repeat' first
    | with_reducible assumption
    | with_reducible apply State.wf_of_inv
    | with_reducible apply keepsOut_next
    | with_reducible apply State.vfp_inv
    | split
    | intro _
    | dsimp only
    | (unfold State.inv; dsimp only)

theorem execVsubFp_inv (f : FFmt) (rm : Rm) (vd va vb : VReg) (qp : QReg) {s : State} (hm : s.inv) :
    KeepsOut (execVsubFp f rm vd va vb qp s) := by
  unfold execVsubFp
  try dsimp only
  repeat' first
    | with_reducible assumption
    | with_reducible apply State.wf_of_inv
    | with_reducible apply keepsOut_next
    | with_reducible apply State.vfp_inv
    | split
    | intro _
    | dsimp only
    | (unfold State.inv; dsimp only)

theorem execVmulFp_inv (f : FFmt) (rm : Rm) (vd va vb : VReg) (qp : QReg) {s : State} (hm : s.inv) :
    KeepsOut (execVmulFp f rm vd va vb qp s) := by
  unfold execVmulFp
  try dsimp only
  repeat' first
    | with_reducible assumption
    | with_reducible apply State.wf_of_inv
    | with_reducible apply keepsOut_next
    | with_reducible apply State.vfp_inv
    | split
    | intro _
    | dsimp only
    | (unfold State.inv; dsimp only)

theorem execVfma_inv (f : FFmt) (rm : Rm) (vd va vb : VReg) (qp : QReg) {s : State} (hm : s.inv) :
    KeepsOut (execVfma f rm vd va vb qp s) := by
  unfold execVfma
  try dsimp only
  repeat' first
    | with_reducible assumption
    | with_reducible apply State.wf_of_inv
    | with_reducible apply keepsOut_next
    | with_reducible apply State.vfp_inv
    | split
    | intro _
    | dsimp only
    | (unfold State.inv; dsimp only)

theorem execVfms_inv (f : FFmt) (rm : Rm) (vd va vb : VReg) (qp : QReg) {s : State} (hm : s.inv) :
    KeepsOut (execVfms f rm vd va vb qp s) := by
  unfold execVfms
  try dsimp only
  repeat' first
    | with_reducible assumption
    | with_reducible apply State.wf_of_inv
    | with_reducible apply keepsOut_next
    | with_reducible apply State.vfp_inv
    | split
    | intro _
    | dsimp only
    | (unfold State.inv; dsimp only)

theorem execVfnma_inv (f : FFmt) (rm : Rm) (vd va vb : VReg) (qp : QReg) {s : State} (hm : s.inv) :
    KeepsOut (execVfnma f rm vd va vb qp s) := by
  unfold execVfnma
  try dsimp only
  repeat' first
    | with_reducible assumption
    | with_reducible apply State.wf_of_inv
    | with_reducible apply keepsOut_next
    | with_reducible apply State.vfp_inv
    | split
    | intro _
    | dsimp only
    | (unfold State.inv; dsimp only)

theorem execVdiv_inv (f : FFmt) (rm : Rm) (vd va vb : VReg) (qp : QReg) {s : State} (hm : s.inv) :
    KeepsOut (execVdiv f rm vd va vb qp s) := by
  unfold execVdiv
  try dsimp only
  repeat' first
    | with_reducible assumption
    | with_reducible apply State.wf_of_inv
    | with_reducible apply keepsOut_next
    | with_reducible apply State.vfp_inv
    | split
    | intro _
    | dsimp only
    | (unfold State.inv; dsimp only)

theorem execVminFp_inv (f : FFmt) (vd va vb : VReg) (qp : QReg) {s : State} (hm : s.inv) :
    KeepsOut (execVminFp f vd va vb qp s) := by
  unfold execVminFp
  try dsimp only
  repeat' first
    | with_reducible assumption
    | with_reducible apply State.wf_of_inv
    | with_reducible apply keepsOut_next
    | with_reducible apply State.vmap_inv
    | split
    | intro _
    | dsimp only
    | (unfold State.inv; dsimp only)

theorem execVmaxFp_inv (f : FFmt) (vd va vb : VReg) (qp : QReg) {s : State} (hm : s.inv) :
    KeepsOut (execVmaxFp f vd va vb qp s) := by
  unfold execVmaxFp
  try dsimp only
  repeat' first
    | with_reducible assumption
    | with_reducible apply State.wf_of_inv
    | with_reducible apply keepsOut_next
    | with_reducible apply State.vmap_inv
    | split
    | intro _
    | dsimp only
    | (unfold State.inv; dsimp only)

theorem execVminn_inv (f : FFmt) (vd va vb : VReg) (qp : QReg) {s : State} (hm : s.inv) :
    KeepsOut (execVminn f vd va vb qp s) := by
  unfold execVminn
  try dsimp only
  repeat' first
    | with_reducible assumption
    | with_reducible apply State.wf_of_inv
    | with_reducible apply keepsOut_next
    | with_reducible apply State.vmap_inv
    | split
    | intro _
    | dsimp only
    | (unfold State.inv; dsimp only)

theorem execVmaxn_inv (f : FFmt) (vd va vb : VReg) (qp : QReg) {s : State} (hm : s.inv) :
    KeepsOut (execVmaxn f vd va vb qp s) := by
  unfold execVmaxn
  try dsimp only
  repeat' first
    | with_reducible assumption
    | with_reducible apply State.wf_of_inv
    | with_reducible apply keepsOut_next
    | with_reducible apply State.vmap_inv
    | split
    | intro _
    | dsimp only
    | (unfold State.inv; dsimp only)

theorem execVabsFp_inv (f : FFmt) (vd va : VReg) (qp : QReg) {s : State} (hm : s.inv) :
    KeepsOut (execVabsFp f vd va qp s) := by
  unfold execVabsFp
  try dsimp only
  repeat' first
    | with_reducible assumption
    | with_reducible apply State.wf_of_inv
    | with_reducible apply keepsOut_next
    | with_reducible apply State.vmap_inv
    | split
    | intro _
    | dsimp only
    | (unfold State.inv; dsimp only)

theorem execVnegFp_inv (f : FFmt) (vd va : VReg) (qp : QReg) {s : State} (hm : s.inv) :
    KeepsOut (execVnegFp f vd va qp s) := by
  unfold execVnegFp
  try dsimp only
  repeat' first
    | with_reducible assumption
    | with_reducible apply State.wf_of_inv
    | with_reducible apply keepsOut_next
    | with_reducible apply State.vmap_inv
    | split
    | intro _
    | dsimp only
    | (unfold State.inv; dsimp only)

theorem execVcsgn_inv (f : FFmt) (vd va vb : VReg) (qp : QReg) {s : State} (hm : s.inv) :
    KeepsOut (execVcsgn f vd va vb qp s) := by
  unfold execVcsgn
  try dsimp only
  repeat' first
    | with_reducible assumption
    | with_reducible apply State.wf_of_inv
    | with_reducible apply keepsOut_next
    | with_reducible apply State.vmap_inv
    | split
    | intro _
    | dsimp only
    | (unfold State.inv; dsimp only)

theorem execVcmp_inv (cond : VCond) (ty : VTy) (qd : QReg) (va vb : VReg) (qp : QReg) {s : State} (hm : s.inv) :
    KeepsOut (execVcmp cond ty qd va vb qp s) := by
  unfold execVcmp
  try dsimp only
  repeat' first
    | with_reducible assumption
    | with_reducible apply State.wf_of_inv
    | with_reducible apply keepsOut_next
    | with_reducible apply State.setTh_inv
    | split
    | intro _
    | dsimp only
    | (unfold State.inv; dsimp only)

theorem execVcvt_inv (src dst : VTy) (ns : Bool) (rm : Rm) (vd va : VReg) (part qp : BitVec 3) {s : State} (hm : s.inv) :
    KeepsOut (execVcvt src dst ns rm vd va part qp s) := by
  unfold execVcvt
  try dsimp only
  repeat' first
    | with_reducible assumption
    | with_reducible apply State.wf_of_inv
    | with_reducible apply keepsOut_next
    | with_reducible apply State.vdone_inv
    | split
    | intro _
    | dsimp only
    | (unfold State.inv; dsimp only)

theorem State.vspec_inv {s : State} (f : FFmt) (rm : Rm) (vd va : VReg) (qp : QReg) (op : FF → RMode → Nat → Nat × Flags) (hm : s.inv) :
    KeepsOut (State.vspec s f rm vd va qp op) := by
  unfold State.vspec
  try dsimp only
  repeat' first
    | with_reducible assumption
    | with_reducible apply State.wf_of_inv
    | with_reducible apply keepsOut_next
    | with_reducible apply State.vfp_inv
    | split
    | intro _
    | dsimp only
    | (unfold State.inv; dsimp only)

theorem execVrcp_inv (f : FFmt) (rm : Rm) (vd va : VReg) (qp : QReg) {s : State} (hm : s.inv) :
    KeepsOut (execVrcp f rm vd va qp s) := by
  unfold execVrcp
  try dsimp only
  repeat' first
    | with_reducible assumption
    | with_reducible apply State.wf_of_inv
    | with_reducible apply keepsOut_next
    | with_reducible apply State.vspec_inv
    | split
    | intro _
    | dsimp only
    | (unfold State.inv; dsimp only)

theorem execVrsq_inv (f : FFmt) (rm : Rm) (vd va : VReg) (qp : QReg) {s : State} (hm : s.inv) :
    KeepsOut (execVrsq f rm vd va qp s) := by
  unfold execVrsq
  try dsimp only
  repeat' first
    | with_reducible assumption
    | with_reducible apply State.wf_of_inv
    | with_reducible apply keepsOut_next
    | with_reducible apply State.vspec_inv
    | split
    | intro _
    | dsimp only
    | (unfold State.inv; dsimp only)

theorem execVsqrt_inv (f : FFmt) (rm : Rm) (vd va : VReg) (qp : QReg) {s : State} (hm : s.inv) :
    KeepsOut (execVsqrt f rm vd va qp s) := by
  unfold execVsqrt
  try dsimp only
  repeat' first
    | with_reducible assumption
    | with_reducible apply State.wf_of_inv
    | with_reducible apply keepsOut_next
    | with_reducible apply State.vspec_inv
    | split
    | intro _
    | dsimp only
    | (unfold State.inv; dsimp only)

theorem execVexp2_inv (f : FFmt) (rm : Rm) (vd va : VReg) (qp : QReg) {s : State} (hm : s.inv) :
    KeepsOut (execVexp2 f rm vd va qp s) := by
  unfold execVexp2
  try dsimp only
  repeat' first
    | with_reducible assumption
    | with_reducible apply State.wf_of_inv
    | with_reducible apply keepsOut_next
    | with_reducible apply State.vspec_inv
    | split
    | intro _
    | dsimp only
    | (unfold State.inv; dsimp only)

theorem execVlog2_inv (f : FFmt) (rm : Rm) (vd va : VReg) (qp : QReg) {s : State} (hm : s.inv) :
    KeepsOut (execVlog2 f rm vd va qp s) := by
  unfold execVlog2
  try dsimp only
  repeat' first
    | with_reducible assumption
    | with_reducible apply State.wf_of_inv
    | with_reducible apply keepsOut_next
    | with_reducible apply State.vspec_inv
    | split
    | intro _
    | dsimp only
    | (unfold State.inv; dsimp only)

theorem execVperm_inv (ty : VTy) (vd va vb : VReg) (qp : QReg) {s : State} (hm : s.inv) :
    KeepsOut (execVperm ty vd va vb qp s) := by
  unfold execVperm
  try dsimp only
  repeat' first
    | with_reducible assumption
    | with_reducible apply State.wf_of_inv
    | with_reducible apply keepsOut_next
    | with_reducible apply State.vdone_inv
    | split
    | intro _
    | dsimp only
    | (unfold State.inv; dsimp only)

theorem execVbcst_inv (_ty : VTy) (vd va : VReg) (lane : BitVec 3) (qp : QReg) {s : State} (hm : s.inv) :
    KeepsOut (execVbcst _ty vd va lane qp s) := by
  unfold execVbcst
  try dsimp only
  repeat' first
    | with_reducible assumption
    | with_reducible apply State.wf_of_inv
    | with_reducible apply keepsOut_next
    | with_reducible apply State.vdone_inv
    | split
    | intro _
    | dsimp only
    | (unfold State.inv; dsimp only)

theorem execVzip_inv (ty : VTy) (vd va vb : VReg) (qp : QReg) {s : State} (hm : s.inv) :
    KeepsOut (execVzip ty vd va vb qp s) := by
  unfold execVzip
  try dsimp only
  repeat' first
    | with_reducible assumption
    | with_reducible apply State.wf_of_inv
    | with_reducible apply keepsOut_next
    | with_reducible apply State.vdone_inv
    | split
    | intro _
    | dsimp only
    | (unfold State.inv; dsimp only)

theorem execVunzip_inv (ty : VTy) (vd va vb : VReg) (qp : QReg) {s : State} (hm : s.inv) :
    KeepsOut (execVunzip ty vd va vb qp s) := by
  unfold execVunzip
  try dsimp only
  repeat' first
    | with_reducible assumption
    | with_reducible apply State.wf_of_inv
    | with_reducible apply keepsOut_next
    | with_reducible apply State.vdone_inv
    | split
    | intro _
    | dsimp only
    | (unfold State.inv; dsimp only)

theorem State.reduce_inv {s : State} (ty : VTy) (vd va : VReg) (qp : QReg) (istep : IFmt → Nat → Nat → Nat) (fstep : Nat → Nat → Nat × Flags) (hm : s.inv) :
    KeepsOut (State.reduce s ty vd va qp istep fstep) := by
  unfold State.reduce
  try dsimp only
  repeat' first
    | with_reducible assumption
    | with_reducible apply State.wf_of_inv
    | with_reducible apply keepsOut_next
    | with_reducible apply State.vdone_inv
    | split
    | intro _
    | dsimp only
    | (unfold State.inv; dsimp only)

theorem execVredadd_inv (ty : VTy) (vd va : VReg) (qp : QReg) {s : State} (hm : s.inv) :
    KeepsOut (execVredadd ty vd va qp s) := by
  unfold execVredadd
  try dsimp only
  repeat' first
    | with_reducible assumption
    | with_reducible apply State.wf_of_inv
    | with_reducible apply keepsOut_next
    | with_reducible apply State.reduce_inv
    | split
    | intro _
    | dsimp only
    | (unfold State.inv; dsimp only)

theorem execVredmin_inv (ty : VTy) (vd va : VReg) (qp : QReg) {s : State} (hm : s.inv) :
    KeepsOut (execVredmin ty vd va qp s) := by
  unfold execVredmin
  try dsimp only
  repeat' first
    | with_reducible assumption
    | with_reducible apply State.wf_of_inv
    | with_reducible apply keepsOut_next
    | with_reducible apply State.reduce_inv
    | split
    | intro _
    | dsimp only
    | (unfold State.inv; dsimp only)

theorem execVredmax_inv (ty : VTy) (vd va : VReg) (qp : QReg) {s : State} (hm : s.inv) :
    KeepsOut (execVredmax ty vd va qp s) := by
  unfold execVredmax
  try dsimp only
  repeat' first
    | with_reducible assumption
    | with_reducible apply State.wf_of_inv
    | with_reducible apply keepsOut_next
    | with_reducible apply State.reduce_inv
    | split
    | intro _
    | dsimp only
    | (unfold State.inv; dsimp only)

theorem execVredminn_inv (ty : VTy) (vd va : VReg) (qp : QReg) {s : State} (hm : s.inv) :
    KeepsOut (execVredminn ty vd va qp s) := by
  unfold execVredminn
  try dsimp only
  repeat' first
    | with_reducible assumption
    | with_reducible apply State.wf_of_inv
    | with_reducible apply keepsOut_next
    | with_reducible apply State.reduce_inv
    | split
    | intro _
    | dsimp only
    | (unfold State.inv; dsimp only)

theorem execVredmaxn_inv (ty : VTy) (vd va : VReg) (qp : QReg) {s : State} (hm : s.inv) :
    KeepsOut (execVredmaxn ty vd va qp s) := by
  unfold execVredmaxn
  try dsimp only
  repeat' first
    | with_reducible assumption
    | with_reducible apply State.wf_of_inv
    | with_reducible apply keepsOut_next
    | with_reducible apply State.reduce_inv
    | split
    | intro _
    | dsimp only
    | (unfold State.inv; dsimp only)

theorem execVsll_inv (ty : VTy) (vd va vb : VReg) (qp : QReg) {s : State} (hm : s.inv) :
    KeepsOut (execVsll ty vd va vb qp s) := by
  unfold execVsll
  try dsimp only
  repeat' first
    | with_reducible assumption
    | with_reducible apply State.wf_of_inv
    | with_reducible apply keepsOut_next
    | with_reducible apply State.vmap_inv
    | split
    | intro _
    | dsimp only
    | (unfold State.inv; dsimp only)

theorem execVsrl_inv (ty : VTy) (vd va vb : VReg) (qp : QReg) {s : State} (hm : s.inv) :
    KeepsOut (execVsrl ty vd va vb qp s) := by
  unfold execVsrl
  try dsimp only
  repeat' first
    | with_reducible assumption
    | with_reducible apply State.wf_of_inv
    | with_reducible apply keepsOut_next
    | with_reducible apply State.vmap_inv
    | split
    | intro _
    | dsimp only
    | (unfold State.inv; dsimp only)

theorem execVsra_inv (ty : VTy) (vd va vb : VReg) (qp : QReg) {s : State} (hm : s.inv) :
    KeepsOut (execVsra ty vd va vb qp s) := by
  unfold execVsra
  try dsimp only
  repeat' first
    | with_reducible assumption
    | with_reducible apply State.wf_of_inv
    | with_reducible apply keepsOut_next
    | with_reducible apply State.vmap_inv
    | split
    | intro _
    | dsimp only
    | (unfold State.inv; dsimp only)

theorem execVslli_inv (ty : VTy) (vd va : VReg) (sh : BitVec 7) (qp : QReg) {s : State} (hm : s.inv) :
    KeepsOut (execVslli ty vd va sh qp s) := by
  unfold execVslli
  try dsimp only
  repeat' first
    | with_reducible assumption
    | with_reducible apply State.wf_of_inv
    | with_reducible apply keepsOut_next
    | with_reducible apply State.vmap_inv
    | split
    | intro _
    | dsimp only
    | (unfold State.inv; dsimp only)

theorem execVsrli_inv (ty : VTy) (vd va : VReg) (sh : BitVec 7) (qp : QReg) {s : State} (hm : s.inv) :
    KeepsOut (execVsrli ty vd va sh qp s) := by
  unfold execVsrli
  try dsimp only
  repeat' first
    | with_reducible assumption
    | with_reducible apply State.wf_of_inv
    | with_reducible apply keepsOut_next
    | with_reducible apply State.vmap_inv
    | split
    | intro _
    | dsimp only
    | (unfold State.inv; dsimp only)

theorem execVsrai_inv (ty : VTy) (vd va : VReg) (sh : BitVec 7) (qp : QReg) {s : State} (hm : s.inv) :
    KeepsOut (execVsrai ty vd va sh qp s) := by
  unfold execVsrai
  try dsimp only
  repeat' first
    | with_reducible assumption
    | with_reducible apply State.wf_of_inv
    | with_reducible apply keepsOut_next
    | with_reducible apply State.vmap_inv
    | split
    | intro _
    | dsimp only
    | (unfold State.inv; dsimp only)

theorem execVbool3_inv (vd va vb : VReg) (qp : QReg) (tab : BitVec 8) {s : State} (hm : s.inv) :
    KeepsOut (execVbool3 vd va vb qp tab s) := by
  unfold execVbool3
  try dsimp only
  repeat' first
    | with_reducible assumption
    | with_reducible apply State.wf_of_inv
    | with_reducible apply keepsOut_next
    | with_reducible apply State.vdone_inv
    | split
    | intro _
    | dsimp only
    | (unfold State.inv; dsimp only)

theorem execVins_inv (v : VReg) (sr : SReg) (lane : BitVec 3) {s : State} (hm : s.inv) :
    KeepsOut (execVins v sr lane s) := by
  unfold execVins
  try dsimp only
  repeat' first
    | with_reducible assumption
    | with_reducible apply State.wf_of_inv
    | with_reducible apply keepsOut_next
    | with_reducible apply State.setTh_inv
    | split
    | intro _
    | dsimp only
    | (unfold State.inv; dsimp only)

theorem execVext_inv (v : VReg) (sr : SReg) (lane : BitVec 3) {s : State} (hm : s.inv) :
    KeepsOut (execVext v sr lane s) := by
  unfold execVext
  try dsimp only
  repeat' first
    | with_reducible assumption
    | with_reducible apply State.wf_of_inv
    | with_reducible apply keepsOut_next
    | with_reducible apply State.const_inv
    | split
    | intro _
    | dsimp only
    | (unfold State.inv; dsimp only)

theorem execVdup_inv (v : VReg) (sr : SReg) {s : State} (hm : s.inv) :
    KeepsOut (execVdup v sr s) := by
  unfold execVdup
  try dsimp only
  repeat' first
    | with_reducible assumption
    | with_reducible apply State.wf_of_inv
    | with_reducible apply keepsOut_next
    | with_reducible apply State.setTh_inv
    | split
    | intro _
    | dsimp only
    | (unfold State.inv; dsimp only)

theorem execQset_inv (sr : SReg) (q : QReg) {s : State} (hm : s.inv) :
    KeepsOut (execQset sr q s) := by
  unfold execQset
  try dsimp only
  repeat' first
    | with_reducible assumption
    | with_reducible apply State.wf_of_inv
    | with_reducible apply keepsOut_next
    | with_reducible apply State.setTh_inv
    | split
    | intro _
    | dsimp only
    | (unfold State.inv; dsimp only)

theorem execQget_inv (sr : SReg) (q : QReg) {s : State} (hm : s.inv) :
    KeepsOut (execQget sr q s) := by
  unfold execQget
  try dsimp only
  repeat' first
    | with_reducible assumption
    | with_reducible apply State.wf_of_inv
    | with_reducible apply keepsOut_next
    | with_reducible apply State.const_inv
    | split
    | intro _
    | dsimp only
    | (unfold State.inv; dsimp only)


end Sys2Proof.Machine
end

