-- ==== Sys2Proof/Laws/Encode.lean ====
section
/-! SUPPORT. Laws of the encoding: a field of packed fields, the codes of names, and the two words of a
long form. -/

namespace Sys2Proof

/-- Every value of a field list fits its field. -/
def fieldsFit : List (Nat × Nat) → Bool
  | [] => true
  | (w, v) :: fs => decide (v < 2 ^ w) && fieldsFit fs

/-- The total width of a field list. -/
def widthOf : List (Nat × Nat) → Nat
  | [] => 0
  | (w, _) :: fs => w + widthOf fs

theorem fld_lt (x lo w : Nat) : fld x lo w < 2 ^ w := Nat.mod_lt _ (Nat.two_pow_pos w)

theorem fld_zero (lo w : Nat) : fld 0 lo w = 0 := by simp [fld]

/-- The lowest field. -/
theorem fld_pack_here {w v n : Nat} {fs : List (Nat × Nat)} (hv : v < 2 ^ w) (hn : n = w) :
    fld (pack ((w, v) :: fs)) 0 n = v := by
  subst hn
  simp only [fld, pack, Nat.pow_zero, Nat.div_one, Nat.add_mul_mod_self_left]
  exact Nat.mod_eq_of_lt hv

/-- A field above the lowest one. -/
theorem fld_pack_above {w v lo n : Nat} {fs : List (Nat × Nat)} (hv : v < 2 ^ w) (hlo : w ≤ lo) :
    fld (pack ((w, v) :: fs)) lo n = fld (pack fs) (lo - w) n := by
  obtain ⟨k, rfl⟩ := Nat.exists_eq_add_of_le hlo
  simp only [fld, pack, Nat.add_sub_cancel_left, Nat.pow_add]
  rw [← Nat.div_div_eq_div_mul, Nat.add_mul_div_left _ _ (Nat.two_pow_pos w),
    Nat.div_eq_of_lt hv, Nat.zero_add]

theorem pack_lt (fs : List (Nat × Nat)) (h : fieldsFit fs = true) : pack fs < 2 ^ widthOf fs := by
  induction fs with
  | nil => simp [pack, widthOf]
  | cons p fs ih =>
    obtain ⟨w, v⟩ := p
    simp only [fieldsFit, Bool.and_eq_true, decide_eq_true_eq] at h
    have ih := ih h.2
    simp only [pack, widthOf, Nat.pow_add]
    calc v + 2 ^ w * pack fs < 2 ^ w + 2 ^ w * pack fs := by omega
      _ = 2 ^ w * (pack fs + 1) := by rw [Nat.mul_add, Nat.mul_one, Nat.add_comm]
      _ ≤ 2 ^ w * 2 ^ widthOf fs := Nat.mul_le_mul_left _ ih

/-- The two words of an encoding decode as the whole does. -/
theorem decodeWords_split {x : Nat} (h64 : x < 2 ^ 64) (h32 : fld x 26 6 ≠ 0x3F → x < 2 ^ 32) :
    decodeWords (x % 2 ^ 32) (x / 2 ^ 32) = decode x := by
  have hf : fld (x % 2 ^ 32) 26 6 = fld x 26 6 := by simp only [fld]; omega
  unfold decodeWords isLongWord
  rw [hf]
  by_cases h : fld x 26 6 = 0x3F
  · have e : x % 2 ^ 32 % 2 ^ 32 + 2 ^ 32 * (x / 2 ^ 32 % 2 ^ 32) = x := by omega
    rw [e]; simp [h]
  · have := h32 h
    have e : x % 2 ^ 32 % 2 ^ 32 = x := by omega
    rw [e]; simp [h]

theorem FFmt.ofCode_code (a : FFmt) : FFmt.ofCode (FFmt.code a) = some a := by cases a <;> rfl
theorem FFmt.code_lt (a : FFmt) : FFmt.code a < 2 ^ 2 := by cases a <;> decide
theorem FTy.ofCode_code (a : FFmt) : FTy.ofCode (FTy.code a) = some a := by cases a <;> rfl
theorem FTy.code_lt (a : FFmt) : FTy.code a < 2 ^ 4 := by cases a <;> decide
theorem Rm.ofCode_code (a : Rm) : Rm.ofCode (Rm.code a) = some a := by cases a <;> rfl
theorem Rm.code_lt (a : Rm) : Rm.code a < 2 ^ 3 := by cases a <;> decide
theorem Cond.ofCode_code (a : Cond) : Cond.ofCode (Cond.code a) = some a := by cases a <;> rfl
theorem Cond.code_lt (a : Cond) : Cond.code a < 2 ^ 4 := by cases a <;> decide
theorem Quant.ofCode_code (a : Quant) : Quant.ofCode (Quant.code a) = some a := by cases a <;> rfl
theorem Quant.code_lt (a : Quant) : Quant.code a < 2 ^ 2 := by cases a <;> decide
theorem MSize.ofCode_code (a : MSize) : MSize.ofCode (MSize.code a) = some a := by cases a <;> rfl
theorem MSize.code_lt (a : MSize) : MSize.code a < 2 ^ 3 := by cases a <;> decide
theorem AmoOp.ofCode_code (a : AmoOp) : AmoOp.ofCode (AmoOp.code a) = some a := by cases a <;> rfl
theorem AmoOp.code_lt (a : AmoOp) : AmoOp.code a < 2 ^ 5 := by cases a <;> decide
theorem Scope.ofCode_code (a : Scope) : Scope.ofCode (Scope.code a) = some a := by cases a <;> rfl
theorem Scope.code_lt (a : Scope) : Scope.code a < 2 ^ 3 := by cases a <;> decide
theorem Cls.ofCode_code (a : Cls) : Cls.ofCode (Cls.code a) = some a := by cases a <;> rfl
theorem Cls.code_lt (a : Cls) : Cls.code a < 2 ^ 2 := by cases a <;> decide
theorem VTy.ofCode_code (a : VTy) : VTy.ofCode (VTy.code a) = some a := by cases a <;> rfl
theorem VTy.code_lt (a : VTy) : VTy.code a < 2 ^ 4 := by cases a <;> decide
theorem VCond.ofCode_code (a : VCond) : VCond.ofCode (VCond.code a) = some a := by cases a <;> rfl
theorem VCond.code_lt (a : VCond) : VCond.code a < 2 ^ 4 := by cases a <;> decide
theorem Tag.ofCode_code (a : Tag) : Tag.ofCode (Tag.code a) = some a := by cases a <;> rfl
theorem Tag.code_lt (a : Tag) : Tag.code a < 2 ^ 4 := by cases a <;> decide
theorem Csr.ofCode_code (a : Csr) : Csr.ofCode (Csr.code a) = some a := by cases a <;> rfl
theorem Csr.code_lt (a : Csr) : Csr.code a < 2 ^ 12 := by cases a <;> decide
theorem boolToNat_lt (b : Bool) : b.toNat < 2 ^ 1 := by cases b <;> decide
theorem bitVec_ofNat_toNat {w : Nat} (b : BitVec w) : BitVec.ofNat w b.toNat = b := by simp

/-- An encoding without the range checks decodes to its instruction once the checks pass. -/
theorem decodeWords_pack {i : Instr} {fs : List (Nat × Nat)} (hw : i.wf = true)
    (hfit : fieldsFit fs = true) (hlen : widthOf fs = 32 ∨ (widthOf fs = 64 ∧ fld (pack fs) 26 6 = 0x3F))
    (hd : decRaw (pack fs) = some i) :
    decodeWords (pack fs % 2 ^ 32) (pack fs / 2 ^ 32) = .ok i := by
  have hp := pack_lt fs hfit
  have h64 : pack fs < 2 ^ 64 := by
    rcases hlen with h | h
    · rw [h] at hp; omega
    · rw [h.1] at hp; exact hp
  have h32 : fld (pack fs) 26 6 ≠ 0x3F → pack fs < 2 ^ 32 := by
    intro hn
    rcases hlen with h | h
    · rw [h] at hp; exact hp
    · exact absurd h.2 hn
  rw [decodeWords_split h64 h32]
  simp [decode, hd, hw]

end Sys2Proof
end

