-- ==== Sys2Proof/Laws/NetKeep.lean ====
section
/-! SUPPORT. The canonical form of memory is kept by the home, the replies, the dealer and the fabric. -/

namespace Sys2Proof.Machine


theorem State.sendReply_inv {s : State} (p : Packet) (hm : s.inv) :
    (State.sendReply s p).inv := by
  unfold State.sendReply
  try dsimp only
  repeat' first
    | with_reducible assumption
    | with_reducible apply State.wf_of_inv
    | with_reducible apply State.launch_inv
    | split
    | intro _
    | dsimp only
    | (unfold State.inv; dsimp only)

theorem State.dropFlight_inv {s : State} (n : Nat) (hm : s.inv) :
    (State.dropFlight s n).inv := by
  unfold State.dropFlight
  try dsimp only
  repeat' first
    | with_reducible assumption
    | with_reducible apply State.wf_of_inv
    | split
    | intro _
    | dsimp only
    | (unfold State.inv; dsimp only)

theorem State.tilePart_inv {s : State} (p : Packet) (pl : Nat) (e : Word) (hm : s.inv) :
    (State.tilePart s p pl e).inv := by
  unfold State.tilePart
  try dsimp only
  repeat' first
    | with_reducible assumption
    | with_reducible apply State.wf_of_inv
    | with_reducible apply State.wholeTile_inv
    | with_reducible apply getD_inv
    | with_reducible apply foldl_inv
    | split
    | intro _
    | dsimp only
    | (unfold State.inv; dsimp only)

theorem State.amoWrite_inv {s : State} (pl w v : Nat) (psn : Bool) (hm : s.inv) :
    (State.amoWrite s pl w v psn).inv := by
  unfold State.amoWrite
  try dsimp only
  repeat' first
    | with_reducible assumption
    | with_reducible apply State.wf_of_inv
    | with_reducible apply State.storeWord_inv
    | split
    | intro _
    | dsimp only
    | (unfold State.inv; dsimp only)

theorem State.writeWords_inv {s : State} (f : Flight) (ps : List (Nat × Word × BitVec 16 × Bool)) (hm : s.inv) :
    (State.writeWords s f ps).1.inv := by
  unfold State.writeWords
  try dsimp only
  repeat' first
    | with_reducible assumption
    | with_reducible apply State.wf_of_inv
    | with_reducible apply State.storeWords_inv
    | with_reducible apply foldl_inv
    | split
    | intro _
    | dsimp only
    | (unfold State.inv; dsimp only)

theorem State.atomicAt_inv {s : State} (f : Flight) (pl : Nat) (hm : s.inv) :
    (State.atomicAt s f pl).1.inv := by
  unfold State.atomicAt
  try dsimp only
  repeat' first
    | with_reducible assumption
    | with_reducible apply State.wf_of_inv
    | with_reducible apply State.amoWrite_inv
    | with_reducible apply getD_inv
    | split
    | intro _
    | dsimp only
    | (unfold State.inv; dsimp only)

theorem State.perform_inv {s : State} (f : Flight) (pl : Nat) (hm : s.inv) :
    (State.perform s f pl).1.inv := by
  unfold State.perform
  try dsimp only
  repeat' first
    | with_reducible assumption
    | with_reducible apply State.wf_of_inv
    | with_reducible apply State.setTile_inv
    | with_reducible apply State.tilePart_inv
    | with_reducible apply State.writeWords_inv
    | with_reducible apply State.atomicAt_inv
    | split
    | intro _
    | dsimp only
    | (unfold State.inv; dsimp only)

theorem State.nack_inv {s : State} (n : Nat) (f : Flight) (hm : s.inv) :
    (State.nack s n f).inv := by
  unfold State.nack
  try dsimp only
  repeat' first
    | with_reducible assumption
    | with_reducible apply State.wf_of_inv
    | with_reducible apply State.sendReply_inv
    | with_reducible apply State.dropFlight_inv
    | split
    | intro _
    | dsimp only
    | (unfold State.inv; dsimp only)

theorem State.parkNoticeTo_inv {s : State} (f : Flight) (hm : s.inv) :
    (State.parkNoticeTo s f).inv := by
  unfold State.parkNoticeTo
  try dsimp only
  repeat' first
    | with_reducible assumption
    | with_reducible apply State.wf_of_inv
    | with_reducible apply State.sendReply_inv
    | split
    | intro _
    | dsimp only
    | (unfold State.inv; dsimp only)

theorem State.faultNotice_inv {s : State} (f : Flight) (stack entry state : Nat) (hm : s.inv) :
    (State.faultNotice s f stack entry state).inv := by
  unfold State.faultNotice
  try dsimp only
  repeat' first
    | with_reducible assumption
    | with_reducible apply State.wf_of_inv
    | with_reducible apply State.report_inv
    | with_reducible apply getD_inv
    | split
    | intro _
    | dsimp only
    | (unfold State.inv; dsimp only)

theorem State.parkRequest_inv {s : State} (n : Nat) (f : Flight) (stack entry page state : Nat) (hm : s.inv) :
    (State.parkRequest s n f stack entry page state).inv := by
  unfold State.parkRequest
  try dsimp only
  repeat' first
    | with_reducible assumption
    | with_reducible apply State.wf_of_inv
    | with_reducible apply State.dropFlight_inv
    | with_reducible apply State.nack_inv
    | with_reducible apply State.parkNoticeTo_inv
    | with_reducible apply State.faultNotice_inv
    | split
    | intro _
    | dsimp only
    | (unfold State.inv; dsimp only)

theorem State.answer_inv {s : State} (f : Flight) (ep : Nat) (r : Packet) (hm : s.inv) :
    (State.answer s f ep r).inv := by
  unfold State.answer
  try dsimp only
  repeat' first
    | with_reducible assumption
    | with_reducible apply State.wf_of_inv
    | with_reducible apply State.sendReply_inv
    | split
    | intro _
    | dsimp only
    | (unfold State.inv; dsimp only)

theorem State.performAt_inv {s : State} (n : Nat) (f : Flight) (pl : Nat) (hm : s.inv) :
    (State.performAt s n f pl).inv := by
  unfold State.performAt
  try dsimp only
  repeat' first
    | with_reducible assumption
    | with_reducible apply State.wf_of_inv
    | with_reducible apply State.place_inv
    | with_reducible apply State.dropFlight_inv
    | with_reducible apply State.perform_inv
    | with_reducible apply State.answer_inv
    | split
    | intro _
    | dsimp only
    | (unfold State.inv; dsimp only)

theorem State.forwardTo_inv {s : State} (n : Nat) (f : Flight) (pl : Nat) (hm : s.inv) :
    (State.forwardTo s n f pl).inv := by
  unfold State.forwardTo
  try dsimp only
  repeat' first
    | with_reducible assumption
    | with_reducible apply State.wf_of_inv
    | with_reducible apply State.place_inv
    | split
    | intro _
    | dsimp only
    | (unfold State.inv; dsimp only)

theorem State.actOn_inv {s : State} (n : Nat) (f : Flight) (replay : Bool) (hm : s.inv) :
    (State.actOn s n f replay).inv := by
  unfold State.actOn
  try dsimp only
  repeat' first
    | with_reducible assumption
    | with_reducible apply State.wf_of_inv
    | with_reducible apply State.translate_inv
    | with_reducible apply State.dropFlight_inv
    | with_reducible apply State.perform_inv
    | with_reducible apply State.nack_inv
    | with_reducible apply State.parkRequest_inv
    | with_reducible apply State.answer_inv
    | with_reducible apply State.performAt_inv
    | with_reducible apply State.forwardTo_inv
    | with_reducible apply State.replay_inv
    | with_reducible apply getD_inv
    | split
    | intro _
    | dsimp only
    | (unfold State.inv; dsimp only)

theorem State.atHome_inv {s : State} (n : Nat) (f : Flight) (hm : s.inv) :
    (State.atHome s n f).inv := by
  unfold State.atHome
  try dsimp only
  repeat' first
    | with_reducible assumption
    | with_reducible apply State.wf_of_inv
    | with_reducible apply State.place_inv
    | with_reducible apply State.sendReply_inv
    | with_reducible apply State.dropFlight_inv
    | with_reducible apply State.actOn_inv
    | split
    | intro _
    | dsimp only
    | (unfold State.inv; dsimp only)

theorem State.homeActs_inv {s : State} (n kind : Nat) (hm : s.inv) :
    (State.homeActs s n kind).inv := by
  unfold State.homeActs
  try dsimp only
  repeat' first
    | with_reducible assumption
    | with_reducible apply State.wf_of_inv
    | with_reducible apply State.place_inv
    | with_reducible apply State.performAt_inv
    | with_reducible apply State.atHome_inv
    | split
    | intro _
    | dsimp only
    | (unfold State.inv; dsimp only)

theorem execRdRequest_inv (n : Nat) {s : State} (hm : s.inv) :
    KeepsOut (execRdRequest n s) := by
  unfold execRdRequest
  try dsimp only
  repeat' first
    | with_reducible assumption
    | with_reducible apply State.wf_of_inv
    | with_reducible apply keepsOut_next
    | with_reducible apply State.homeActs_inv
    | split
    | intro _
    | dsimp only
    | (unfold State.inv; dsimp only)

theorem execWrRequest_inv (n : Nat) {s : State} (hm : s.inv) :
    KeepsOut (execWrRequest n s) := by
  unfold execWrRequest
  try dsimp only
  repeat' first
    | with_reducible assumption
    | with_reducible apply State.wf_of_inv
    | with_reducible apply keepsOut_next
    | with_reducible apply State.homeActs_inv
    | split
    | intro _
    | dsimp only
    | (unfold State.inv; dsimp only)

theorem execAmoRequest_inv (n : Nat) {s : State} (hm : s.inv) :
    KeepsOut (execAmoRequest n s) := by
  unfold execAmoRequest
  try dsimp only
  repeat' first
    | with_reducible assumption
    | with_reducible apply State.wf_of_inv
    | with_reducible apply keepsOut_next
    | with_reducible apply State.homeActs_inv
    | split
    | intro _
    | dsimp only
    | (unfold State.inv; dsimp only)

theorem execAmopRequest_inv (n : Nat) {s : State} (hm : s.inv) :
    KeepsOut (execAmopRequest n s) := by
  unfold execAmopRequest
  try dsimp only
  repeat' first
    | with_reducible assumption
    | with_reducible apply State.wf_of_inv
    | with_reducible apply keepsOut_next
    | with_reducible apply State.homeActs_inv
    | split
    | intro _
    | dsimp only
    | (unfold State.inv; dsimp only)

theorem execCasRequest_inv (n : Nat) {s : State} (hm : s.inv) :
    KeepsOut (execCasRequest n s) := by
  unfold execCasRequest
  try dsimp only
  repeat' first
    | with_reducible assumption
    | with_reducible apply State.wf_of_inv
    | with_reducible apply keepsOut_next
    | with_reducible apply State.homeActs_inv
    | split
    | intro _
    | dsimp only
    | (unfold State.inv; dsimp only)

theorem execParkNoticeRepeat_inv (stack : BitVec 5) (n : Nat) {s : State} (hm : s.inv) :
    KeepsOut (execParkNoticeRepeat stack n s) := by
  unfold execParkNoticeRepeat
  try dsimp only
  repeat' first
    | with_reducible assumption
    | with_reducible apply State.wf_of_inv
    | with_reducible apply keepsOut_next
    | with_reducible apply State.parkNoticeTo_inv
    | split
    | intro _
    | dsimp only
    | (unfold State.inv; dsimp only)

theorem execParkLimitExpiry_inv (stack : BitVec 5) (n : Nat) {s : State} (hm : s.inv) :
    KeepsOut (execParkLimitExpiry stack n s) := by
  unfold execParkLimitExpiry
  try dsimp only
  repeat' first
    | with_reducible assumption
    | with_reducible apply State.wf_of_inv
    | with_reducible apply keepsOut_next
    | with_reducible apply State.answer_inv
    | split
    | intro _
    | dsimp only
    | (unfold State.inv; dsimp only)

theorem State.unrelease_inv {s : State} (page : Nat) (hm : s.inv) :
    (State.unrelease s page).inv := by
  unfold State.unrelease
  try dsimp only
  repeat' first
    | with_reducible assumption
    | with_reducible apply State.wf_of_inv
    | split
    | intro _
    | dsimp only
    | (unfold State.inv; dsimp only)

theorem State.replay_inv {s : State} (n : Nat) (k : ParkSlot) (hm : s.inv) :
    (State.replay s n k).inv := by
  unfold State.replay
  try dsimp only
  repeat' first
    | with_reducible assumption
    | with_reducible apply State.wf_of_inv
    | with_reducible apply State.launch_inv
    | with_reducible apply State.translate_inv
    | with_reducible apply State.perform_inv
    | with_reducible apply State.parkNoticeTo_inv
    | with_reducible apply State.faultNotice_inv
    | with_reducible apply State.actOn_inv
    | with_reducible apply State.unrelease_inv
    | with_reducible apply getD_inv
    | split
    | intro _
    | dsimp only
    | (unfold State.inv; dsimp only)

theorem execParkedRequestReplay_inv (stack : BitVec 5) (n : Nat) {s : State} (hm : s.inv) :
    KeepsOut (execParkedRequestReplay stack n s) := by
  unfold execParkedRequestReplay
  try dsimp only
  repeat' first
    | with_reducible assumption
    | with_reducible apply State.wf_of_inv
    | with_reducible apply keepsOut_next
    | with_reducible apply State.replay_inv
    | split
    | intro _
    | dsimp only
    | (unfold State.inv; dsimp only)

theorem execCompletedTransactionCacheExpiry_inv (n : Nat) {s : State} (hm : s.inv) :
    KeepsOut (execCompletedTransactionCacheExpiry n s) := by
  unfold execCompletedTransactionCacheExpiry
  try dsimp only
  repeat' first
    | with_reducible assumption
    | with_reducible apply State.wf_of_inv
    | with_reducible apply keepsOut_next
    | split
    | intro _
    | dsimp only
    | (unfold State.inv; dsimp only)

theorem State.supervised_inv {s : State} (i : Instr) {go : State} (hm : s.inv) (hgo : go.inv) :
    KeepsOut (State.supervised s i go) := by
  unfold State.supervised
  try dsimp only
  repeat' first
    | with_reducible assumption
    | with_reducible apply State.wf_of_inv
    | with_reducible apply keepsOut_next
    | with_reducible apply State.trapIllegal_inv
    | split
    | intro _
    | dsimp only
    | (unfold State.inv; dsimp only)

theorem State.done8_inv {s : State} (hm : s.inv) :
    (State.done8 s).inv := by
  unfold State.done8
  try dsimp only
  repeat' first
    | with_reducible assumption
    | with_reducible apply State.wf_of_inv
    | with_reducible apply State.setTh_inv
    | split
    | intro _
    | dsimp only
    | (unfold State.inv; dsimp only)

theorem execRngw_inv (a b c : SReg) {s : State} (hm : s.inv) :
    KeepsOut (execRngw a b c s) := by
  unfold execRngw
  try dsimp only
  repeat' first
    | with_reducible assumption
    | with_reducible apply State.wf_of_inv
    | with_reducible apply keepsOut_next
    | with_reducible apply State.trap_inv
    | with_reducible apply State.supervised_inv
    | with_reducible apply State.done8_inv
    | split
    | intro _
    | dsimp only
    | (unfold State.inv; dsimp only)

theorem execRngr_inv (d a : SReg) (half : Bool) {s : State} (hm : s.inv) :
    KeepsOut (execRngr d a half s) := by
  unfold execRngr
  try dsimp only
  repeat' first
    | with_reducible assumption
    | with_reducible apply State.wf_of_inv
    | with_reducible apply keepsOut_next
    | with_reducible apply State.setTh_inv
    | with_reducible apply State.trap_inv
    | with_reducible apply State.supervised_inv
    | split
    | intro _
    | dsimp only
    | (unfold State.inv; dsimp only)

theorem State.clearRange_inv {s : State} (i : Nat) (hm : s.inv) :
    (State.clearRange s i).inv := by
  unfold State.clearRange
  try dsimp only
  repeat' first
    | with_reducible assumption
    | with_reducible apply State.wf_of_inv
    | split
    | intro _
    | dsimp only
    | (unfold State.inv; dsimp only)

theorem execRngclr_inv (a : SReg) {s : State} (hm : s.inv) :
    KeepsOut (execRngclr a s) := by
  unfold execRngclr
  try dsimp only
  repeat' first
    | with_reducible assumption
    | with_reducible apply State.wf_of_inv
    | with_reducible apply keepsOut_next
    | with_reducible apply State.stall_inv
    | with_reducible apply State.trap_inv
    | with_reducible apply State.supervised_inv
    | with_reducible apply State.done8_inv
    | with_reducible apply State.clearRange_inv
    | split
    | intro _
    | dsimp only
    | (unfold State.inv; dsimp only)

theorem State.releasePage_inv {s : State} (pl : Nat) (hm : s.inv) :
    (State.releasePage s pl).inv := by
  unfold State.releasePage
  try dsimp only
  repeat' first
    | with_reducible assumption
    | with_reducible apply State.wf_of_inv
    | split
    | intro _
    | dsimp only
    | (unfold State.inv; dsimp only)

theorem execPgw_inv (a b : SReg) {s : State} (hm : s.inv) :
    KeepsOut (execPgw a b s) := by
  unfold execPgw
  try dsimp only
  repeat' first
    | with_reducible assumption
    | with_reducible apply State.wf_of_inv
    | with_reducible apply keepsOut_next
    | with_reducible apply State.stall_inv
    | with_reducible apply State.trap_inv
    | with_reducible apply State.setPage_inv
    | with_reducible apply State.supervised_inv
    | with_reducible apply State.done8_inv
    | with_reducible apply State.releasePage_inv
    | split
    | intro _
    | dsimp only
    | (unfold State.inv; dsimp only)

theorem execPgr_inv (d a : SReg) {s : State} (hm : s.inv) :
    KeepsOut (execPgr d a s) := by
  unfold execPgr
  try dsimp only
  repeat' first
    | with_reducible assumption
    | with_reducible apply State.wf_of_inv
    | with_reducible apply keepsOut_next
    | with_reducible apply State.setTh_inv
    | with_reducible apply State.trap_inv
    | with_reducible apply State.supervised_inv
    | split
    | intro _
    | dsimp only
    | (unfold State.inv; dsimp only)

theorem execPginv_inv (a : SReg) {s : State} (hm : s.inv) :
    KeepsOut (execPginv a s) := by
  unfold execPginv
  try dsimp only
  repeat' first
    | with_reducible assumption
    | with_reducible apply State.wf_of_inv
    | with_reducible apply keepsOut_next
    | with_reducible apply State.trap_inv
    | with_reducible apply State.supervised_inv
    | with_reducible apply State.done8_inv
    | split
    | intro _
    | dsimp only
    | (unfold State.inv; dsimp only)

theorem State.modReq_inv {s : State} (c : CoreIx) (tx : BitVec 16) (f : Req → Req) (hm : s.inv) :
    (State.modReq s c tx f).inv := by
  unfold State.modReq
  try dsimp only
  repeat' first
    | with_reducible assumption
    | with_reducible apply State.wf_of_inv
    | with_reducible apply State.modCore_inv
    | split
    | intro _
    | dsimp only
    | (unfold State.inv; dsimp only)

theorem State.closeReq_inv {s : State} (c : CoreIx) (r : Req) (hm : s.inv) :
    (State.closeReq s c r).inv := by
  unfold State.closeReq
  try dsimp only
  repeat' first
    | with_reducible assumption
    | with_reducible apply State.wf_of_inv
    | with_reducible apply State.modCore_inv
    | split
    | intro _
    | dsimp only
    | (unfold State.inv; dsimp only)

theorem State.threadData_inv {s : State} (c : CoreIx) (t : ThrIx) (tx : BitVec 16) (p : Packet) (got : SMap (Word × Bool)) (hm : s.inv) :
    (State.threadData s c t tx p got).inv := by
  unfold State.threadData
  try dsimp only
  repeat' first
    | with_reducible assumption
    | with_reducible apply State.wf_of_inv
    | with_reducible apply State.storeWords_inv
    | with_reducible apply State.putTh_inv
    | with_reducible apply State.postSelf_inv
    | with_reducible apply getD_inv
    | split
    | intro _
    | dsimp only
    | (unfold State.inv; dsimp only)

theorem State.threadError_inv {s : State} (c : CoreIx) (t : ThrIx) (tx : BitVec 16) (st : BitVec 4) (hm : s.inv) :
    (State.threadError s c t tx st).inv := by
  unfold State.threadError
  try dsimp only
  repeat' first
    | with_reducible assumption
    | with_reducible apply State.wf_of_inv
    | with_reducible apply State.putTh_inv
    | with_reducible apply State.postSelf_inv
    | with_reducible apply State.postFault_inv
    | split
    | intro _
    | dsimp only
    | (unfold State.inv; dsimp only)

theorem State.threadAck_inv {s : State} (c : CoreIx) (t : ThrIx) (tx : BitVec 16) (hm : s.inv) :
    (State.threadAck s c t tx).inv := by
  unfold State.threadAck
  try dsimp only
  repeat' first
    | with_reducible assumption
    | with_reducible apply State.wf_of_inv
    | with_reducible apply State.modTh_inv
    | split
    | intro _
    | dsimp only
    | (unfold State.inv; dsimp only)

theorem State.modEng_inv {s : State} (cl : BitVec 8) (id : Nat) (f : EngCmd → EngCmd) (hm : s.inv) :
    (State.modEng s cl id f).inv := by
  unfold State.modEng
  try dsimp only
  repeat' first
    | with_reducible assumption
    | with_reducible apply State.wf_of_inv
    | with_reducible apply State.modCluster_inv
    | split
    | intro _
    | dsimp only
    | (unfold State.inv; dsimp only)

theorem State.engineReply_inv {s : State} (cl : BitVec 8) (id : Nat) (tx : BitVec 16) (kind : Nat) (p : Packet) (st : Nat) (hm : s.inv) :
    (State.engineReply s cl id tx kind p st).inv := by
  unfold State.engineReply
  try dsimp only
  repeat' first
    | with_reducible assumption
    | with_reducible apply State.wf_of_inv
    | with_reducible apply State.modEng_inv
    | split
    | intro _
    | dsimp only
    | (unfold State.inv; dsimp only)

theorem State.modSaved_inv {s : State} (cl : BitVec 8) (job : BitVec 8) (f : Saved → Saved) (hm : s.inv) :
    (State.modSaved s cl job f).inv := by
  unfold State.modSaved
  try dsimp only
  repeat' first
    | with_reducible assumption
    | with_reducible apply State.wf_of_inv
    | with_reducible apply State.modCluster_inv
    | split
    | intro _
    | dsimp only
    | (unfold State.inv; dsimp only)

theorem State.put64_inv {s : State} (p : Nat) (x : Word) (hm : s.inv) :
    (State.put64 s p x).inv := by
  unfold State.put64
  try dsimp only
  repeat' first
    | with_reducible assumption
    | with_reducible apply State.wf_of_inv
    | with_reducible apply State.storeWord_inv
    | split
    | intro _
    | dsimp only
    | (unfold State.inv; dsimp only)

theorem State.savedMsg_inv {s : State} (cl : BitVec 8) (job : BitVec 8) (c : CoreIx) (m : Message) (hm : s.inv) :
    (State.savedMsg s cl job c m).inv := by
  unfold State.savedMsg
  try dsimp only
  repeat' first
    | with_reducible assumption
    | with_reducible apply State.wf_of_inv
    | with_reducible apply State.modCore_inv
    | with_reducible apply State.kittyAdd_inv
    | with_reducible apply State.report4_inv
    | with_reducible apply State.modSaved_inv
    | with_reducible apply State.put64_inv
    | split
    | intro _
    | dsimp only
    | (unfold State.inv; dsimp only)

theorem State.savedSelf_inv {s : State} (v : Saved) (c : CoreIx) (lab : Label) (cls : Cls) (ws : List Word) (hm : s.inv) :
    (State.savedSelf s v c lab cls ws).inv := by
  unfold State.savedSelf
  try dsimp only
  repeat' first
    | with_reducible assumption
    | with_reducible apply State.wf_of_inv
    | with_reducible apply State.modCore_inv
    | with_reducible apply State.fresh_inv
    | with_reducible apply State.modSaved_inv
    | with_reducible apply State.savedMsg_inv
    | split
    | intro _
    | dsimp only
    | (unfold State.inv; dsimp only)

theorem State.unpark_inv {s : State} (c : CoreIx) (tx : BitVec 16) (hm : s.inv) :
    (State.unpark s c tx).inv := by
  unfold State.unpark
  try dsimp only
  repeat' first
    | with_reducible assumption
    | with_reducible apply State.wf_of_inv
    | with_reducible apply State.put64_inv
    | with_reducible apply foldl_inv
    | split
    | intro _
    | dsimp only
    | (unfold State.inv; dsimp only)

theorem State.storeAt_inv {s : State} (place : Nat → Nat) (bs : List Byte) (bad : List Nat) (hm : s.inv) :
    (State.storeAt s place bs bad).inv := by
  unfold State.storeAt
  try dsimp only
  repeat' first
    | with_reducible assumption
    | with_reducible apply State.wf_of_inv
    | with_reducible apply State.storeWord_inv
    | with_reducible apply State.place_inv
    | with_reducible apply foldl_inv
    | split
    | intro _
    | dsimp only
    | (unfold State.inv; dsimp only)

theorem State.markReplied_inv {s : State} (rec : Nat → Nat) (tx : BitVec 16) (st : BitVec 4) (psn : Bool) (hm : s.inv) :
    (State.markReplied s rec tx st psn).inv := by
  unfold State.markReplied
  try dsimp only
  repeat' first
    | with_reducible assumption
    | with_reducible apply State.wf_of_inv
    | with_reducible apply State.storeWord_inv
    | split
    | intro _
    | dsimp only
    | (unfold State.inv; dsimp only)

theorem State.fillSlot_inv {s : State} (rec : Nat → Nat) (th : Thread) (x : Dest) (hm : s.inv) :
    (State.fillSlot s rec th x).inv := by
  unfold State.fillSlot
  try dsimp only
  repeat' first
    | with_reducible assumption
    | with_reducible apply State.wf_of_inv
    | with_reducible apply State.put64_inv
    | with_reducible apply foldl_inv
    | split
    | intro _
    | dsimp only
    | (unfold State.inv; dsimp only)

theorem State.savedData_inv {s : State} (v : Saved) (c : CoreIx) (t : ThrIx) (tx : BitVec 16) (p : Packet) (hm : s.inv) :
    (State.savedData s v c t tx p).inv := by
  unfold State.savedData
  try dsimp only
  repeat' first
    | with_reducible assumption
    | with_reducible apply State.wf_of_inv
    | with_reducible apply State.modTh_inv
    | with_reducible apply State.place_inv
    | with_reducible apply State.modSaved_inv
    | with_reducible apply State.put64_inv
    | with_reducible apply State.savedSelf_inv
    | with_reducible apply State.storeAt_inv
    | with_reducible apply State.markReplied_inv
    | with_reducible apply State.fillSlot_inv
    | with_reducible apply getD_inv
    | split
    | intro _
    | dsimp only
    | (unfold State.inv; dsimp only)

theorem State.savedError_inv {s : State} (v : Saved) (c : CoreIx) (t : ThrIx) (tx : BitVec 16) (st : BitVec 4) (hm : s.inv) :
    (State.savedError s v c t tx st).inv := by
  unfold State.savedError
  try dsimp only
  repeat' first
    | with_reducible assumption
    | with_reducible apply State.wf_of_inv
    | with_reducible apply State.modTh_inv
    | with_reducible apply State.report_inv
    | with_reducible apply State.modSaved_inv
    | with_reducible apply State.savedSelf_inv
    | with_reducible apply State.markReplied_inv
    | split
    | intro _
    | dsimp only
    | (unfold State.inv; dsimp only)

theorem State.finalReply_inv {s : State} (c : CoreIx) (r : Req) (kind : Nat) (p : Packet) (st : BitVec 4) (got : SMap (Word × Bool)) (hm : s.inv) :
    (State.finalReply s c r kind p st got).inv := by
  unfold State.finalReply
  try dsimp only
  repeat' first
    | with_reducible assumption
    | with_reducible apply State.wf_of_inv
    | with_reducible apply State.modTh_inv
    | with_reducible apply State.closeReq_inv
    | with_reducible apply State.threadData_inv
    | with_reducible apply State.threadError_inv
    | with_reducible apply State.threadAck_inv
    | with_reducible apply State.engineReply_inv
    | with_reducible apply State.modSaved_inv
    | with_reducible apply State.unpark_inv
    | with_reducible apply State.savedData_inv
    | with_reducible apply State.savedError_inv
    | split
    | intro _
    | dsimp only
    | (unfold State.inv; dsimp only)

theorem State.replyAt_inv {s : State} (n kind : Nat) (f : State → CoreIx → Req → Packet → State) (hm : s.inv) (hf : ∀ (u : State) c r p, u.inv → (f u c r p).inv) :
    KeepsOut (State.replyAt s n kind f) := by
  unfold State.replyAt
  try dsimp only
  repeat' first
    | with_reducible assumption
    | with_reducible apply State.wf_of_inv
    | with_reducible apply keepsOut_next
    | with_reducible apply hf
    | with_reducible apply State.dropFlight_inv
    | split
    | intro _
    | dsimp only
    | (unfold State.inv; dsimp only)

theorem State.getPart_inv {s : State} (n : Nat) (fl : Flight) (hm : s.inv) :
    Keeps (State.getPart s n fl) := by
  unfold State.getPart
  try dsimp only
  repeat' first
    | with_reducible assumption
    | with_reducible apply State.wf_of_inv
    | with_reducible exact keeps_none
    | with_reducible apply keeps_some
    | with_reducible apply State.writeWords_inv
    | split
    | intro _
    | dsimp only
    | (unfold State.inv; dsimp only)

theorem execRdataReply_inv (n : Nat) {s : State} (hm : s.inv) :
    KeepsOut (execRdataReply n s) := by
  unfold execRdataReply
  try dsimp only
  repeat' first
    | with_reducible assumption
    | with_reducible apply State.wf_of_inv
    | with_reducible apply keepsOut_next
    | with_reducible apply State.finalReply_inv
    | with_reducible apply State.replyAt_inv
    | exact State.getPart_inv _ _ (by assumption) _ (by assumption)
    | with_reducible apply State.getPart_inv
    | split
    | intro _
    | dsimp only
    | (unfold State.inv; dsimp only)

theorem execAckReply_inv (n : Nat) {s : State} (hm : s.inv) :
    KeepsOut (execAckReply n s) := by
  unfold execAckReply
  try dsimp only
  repeat' first
    | with_reducible assumption
    | with_reducible apply State.wf_of_inv
    | with_reducible apply keepsOut_next
    | with_reducible apply State.finalReply_inv
    | with_reducible apply State.replyAt_inv
    | split
    | intro _
    | dsimp only
    | (unfold State.inv; dsimp only)

theorem execParkNotice_inv (n : Nat) {s : State} (hm : s.inv) :
    KeepsOut (execParkNotice n s) := by
  unfold execParkNotice
  try dsimp only
  repeat' first
    | with_reducible assumption
    | with_reducible apply State.wf_of_inv
    | with_reducible apply keepsOut_next
    | with_reducible apply State.modReq_inv
    | with_reducible apply State.replyAt_inv
    | split
    | intro _
    | dsimp only
    | (unfold State.inv; dsimp only)

theorem execErrReply_inv (n : Nat) {s : State} (hm : s.inv) :
    KeepsOut (execErrReply n s) := by
  unfold execErrReply
  try dsimp only
  repeat' first
    | with_reducible assumption
    | with_reducible apply State.wf_of_inv
    | with_reducible apply keepsOut_next
    | with_reducible apply State.nack_inv
    | with_reducible apply State.modReq_inv
    | with_reducible apply State.finalReply_inv
    | with_reducible apply State.replyAt_inv
    | split
    | intro _
    | dsimp only
    | (unfold State.inv; dsimp only)

theorem State.resend_inv {s : State} (c : CoreIx) (r : Req) (hm : s.inv) :
    (State.resend s c r).inv := by
  unfold State.resend
  try dsimp only
  repeat' first
    | with_reducible assumption
    | with_reducible apply State.wf_of_inv
    | with_reducible apply State.sendRequest_inv
    | with_reducible apply State.nack_inv
    | with_reducible apply State.modReq_inv
    | split
    | intro _
    | dsimp only
    | (unfold State.inv; dsimp only)

theorem execFarTimerExpiry_inv (core : CoreIx) (txid : BitVec 16) {s : State} (hm : s.inv) :
    KeepsOut (execFarTimerExpiry core txid s) := by
  unfold execFarTimerExpiry
  try dsimp only
  repeat' first
    | with_reducible assumption
    | with_reducible apply State.wf_of_inv
    | with_reducible apply keepsOut_next
    | with_reducible apply State.modReq_inv
    | with_reducible apply State.finalReply_inv
    | with_reducible apply State.resend_inv
    | split
    | intro _
    | dsimp only
    | (unfold State.inv; dsimp only)

theorem execNackResend_inv (core : CoreIx) (txid : BitVec 16) {s : State} (hm : s.inv) :
    KeepsOut (execNackResend core txid s) := by
  unfold execNackResend
  try dsimp only
  repeat' first
    | with_reducible assumption
    | with_reducible apply State.wf_of_inv
    | with_reducible apply keepsOut_next
    | with_reducible apply State.nack_inv
    | with_reducible apply State.resend_inv
    | split
    | intro _
    | dsimp only
    | (unfold State.inv; dsimp only)

theorem execCommitInjection_inv (core : CoreIx) (thr : ThrIx) {s : State} (hm : s.inv) :
    KeepsOut (execCommitInjection core thr s) := by
  unfold execCommitInjection
  try dsimp only
  repeat' first
    | with_reducible assumption
    | with_reducible apply State.wf_of_inv
    | with_reducible apply keepsOut_next
    | exact State.commitStep_inv _ _ (by assumption) _ (by assumption)
    | with_reducible apply State.commitStep_inv
    | with_reducible apply getD_inv
    | split
    | intro _
    | dsimp only
    | (unfold State.inv; dsimp only)

theorem State.sink_inv {s : State} (c : CoreIx) (m : Message) (hm : s.inv) :
    (State.sink s c m).inv := by
  unfold State.sink
  try dsimp only
  repeat' first
    | with_reducible assumption
    | with_reducible apply State.wf_of_inv
    | with_reducible apply State.report4_inv
    | with_reducible apply State.dropMsg_inv
    | with_reducible apply State.place_inv
    | with_reducible apply State.countRecv_inv
    | with_reducible apply State.savedMsg_inv
    | split
    | intro _
    | dsimp only
    | (unfold State.inv; dsimp only)

theorem execMessageArrival_inv (n : Nat) {s : State} (hm : s.inv) :
    KeepsOut (execMessageArrival n s) := by
  unfold execMessageArrival
  try dsimp only
  repeat' first
    | with_reducible assumption
    | with_reducible apply State.wf_of_inv
    | with_reducible apply keepsOut_next
    | with_reducible apply State.modCore_inv
    | with_reducible apply State.noRoom_inv
    | with_reducible apply State.fresh_inv
    | with_reducible apply State.dropFlight_inv
    | with_reducible apply State.sink_inv
    | split
    | intro _
    | dsimp only
    | (unfold State.inv; dsimp only)

theorem State.saveArrived_inv {s : State} (rec : Nat → Nat) (k : Core) (m : Message) (hm : s.inv) :
    (State.saveArrived s rec k m).inv := by
  unfold State.saveArrived
  try dsimp only
  repeat' first
    | with_reducible assumption
    | with_reducible apply State.wf_of_inv
    | with_reducible apply State.put64_inv
    | with_reducible apply State.storeAt_inv
    | with_reducible apply foldl_inv
    | split
    | intro _
    | dsimp only
    | (unfold State.inv; dsimp only)

theorem State.ringArrived_inv {s : State} (y : Kitty) (id : Nat) (hm : s.inv) :
    (State.ringArrived s y id).inv := by
  unfold State.ringArrived
  try dsimp only
  repeat' first
    | with_reducible assumption
    | with_reducible apply State.wf_of_inv
    | with_reducible apply State.ringFlit_inv
    | split
    | intro _
    | dsimp only
    | (unfold State.inv; dsimp only)

theorem execPayloadFlitArrival_inv (core : CoreIx) (id : Nat) {s : State} (hm : s.inv) :
    KeepsOut (execPayloadFlitArrival core id s) := by
  unfold execPayloadFlitArrival
  try dsimp only
  repeat' first
    | with_reducible assumption
    | with_reducible apply State.wf_of_inv
    | with_reducible apply keepsOut_next
    | with_reducible apply State.modCore_inv
    | with_reducible apply State.modSaved_inv
    | with_reducible apply State.saveArrived_inv
    | with_reducible apply State.ringArrived_inv
    | with_reducible apply foldl_inv
    | split
    | intro _
    | dsimp only
    | (unfold State.inv; dsimp only)

theorem State.postHeld_inv {s : State} (c : CoreIx) (x : Nat) (hm : s.inv) :
    (State.postHeld s c x).inv := by
  induction x generalizing s with
  | zero => exact hm
  | succ n ih =>
    unfold State.postHeld
    try dsimp only
    repeat' first
      | with_reducible assumption
      | with_reducible apply ih
      | with_reducible apply State.wf_of_inv
      | with_reducible apply State.setCore_inv
      | with_reducible apply State.selfMsg_inv
      | split
      | intro _
      | dsimp only
      | (unfold State.inv; dsimp only)

theorem State.kittyRoom_inv {s : State} (c : CoreIx) (hm : s.inv) :
    (State.kittyRoom s c).inv := by
  unfold State.kittyRoom
  try dsimp only
  repeat' first
    | with_reducible assumption
    | with_reducible apply State.wf_of_inv
    | with_reducible apply State.setCore_inv
    | with_reducible apply State.postHeld_inv
    | split
    | intro _
    | dsimp only
    | (unfold State.inv; dsimp only)

theorem execKittyReturn_inv (core : CoreIx) (cls : Cls) {s : State} (hm : s.inv) :
    KeepsOut (execKittyReturn core cls s) := by
  unfold execKittyReturn
  try dsimp only
  repeat' first
    | with_reducible assumption
    | with_reducible apply State.wf_of_inv
    | with_reducible apply keepsOut_next
    | with_reducible apply State.setCore_inv
    | with_reducible apply State.toQueue_inv
    | with_reducible apply State.kittyRoom_inv
    | split
    | intro _
    | dsimp only
    | (unfold State.inv; dsimp only)

theorem execRecvDelivery_inv (core : CoreIx) (lab : Label) {s : State} (hm : s.inv) :
    KeepsOut (execRecvDelivery core lab s) := by
  unfold execRecvDelivery
  try dsimp only
  repeat' first
    | with_reducible assumption
    | with_reducible apply State.wf_of_inv
    | with_reducible apply keepsOut_next
    | with_reducible apply State.setCore_inv
    | with_reducible apply State.trapAt_inv
    | with_reducible apply State.recvTake_inv
    | with_reducible apply getD_inv
    | split
    | intro _
    | dsimp only
    | (unfold State.inv; dsimp only)

theorem execHandlerStart_inv (core : CoreIx) {s : State} (hm : s.inv) :
    KeepsOut (execHandlerStart core s) := by
  unfold execHandlerStart
  try dsimp only
  repeat' first
    | with_reducible assumption
    | with_reducible apply State.wf_of_inv
    | with_reducible apply keepsOut_next
    | with_reducible apply State.setCore_inv
    | with_reducible apply State.startOn_inv
    | split
    | intro _
    | dsimp only
    | (unfold State.inv; dsimp only)

theorem State.moveEntries_inv {s : State} (a b : CoreIx) (l : Label) (x : Nat) (hm : s.inv) :
    (State.moveEntries s a b l x).inv := by
  induction x generalizing s with
  | zero => exact hm
  | succ n ih =>
    unfold State.moveEntries
    try dsimp only
    repeat' first
      | with_reducible assumption
      | with_reducible apply ih
      | with_reducible apply State.wf_of_inv
      | with_reducible apply State.setCore_inv
      | with_reducible apply State.toQueue_inv
      | split
      | intro _
      | dsimp only
      | (unfold State.inv; dsimp only)

theorem State.spreadFrom_inv {s snap : State} (a b : CoreIx) (hm : s.inv) :
    (State.spreadFrom s snap a b).inv := by
  unfold State.spreadFrom
  try dsimp only
  repeat' first
    | with_reducible assumption
    | with_reducible apply State.wf_of_inv
    | with_reducible apply State.moveEntries_inv
    | with_reducible apply foldl_inv
    | split
    | intro _
    | dsimp only
    | (unfold State.inv; dsimp only)

theorem execSpreadMove_inv (core : CoreIx) {s : State} (hm : s.inv) :
    KeepsOut (execSpreadMove core s) := by
  unfold execSpreadMove
  try dsimp only
  repeat' first
    | with_reducible assumption
    | with_reducible apply State.wf_of_inv
    | with_reducible apply keepsOut_next
    | with_reducible apply State.modCore_inv
    | with_reducible apply State.spreadFrom_inv
    | with_reducible apply getD_inv
    | with_reducible apply foldl_inv
    | split
    | intro _
    | dsimp only
    | (unfold State.inv; dsimp only)

theorem State.releasePhase_inv {s : State} (h : Header) (g : Group) (grp : Nat) (hm : s.inv) :
    (State.releasePhase s h g grp).inv := by
  unfold State.releasePhase
  try dsimp only
  repeat' first
    | with_reducible assumption
    | with_reducible apply State.wf_of_inv
    | with_reducible apply State.launch_inv
    | with_reducible apply getD_inv
    | with_reducible apply foldl_inv
    | split
    | intro _
    | dsimp only
    | (unfold State.inv; dsimp only)

theorem execBarArrival_inv (n : Nat) {s : State} (hm : s.inv) :
    KeepsOut (execBarArrival n s) := by
  unfold execBarArrival
  try dsimp only
  repeat' first
    | with_reducible assumption
    | with_reducible apply State.wf_of_inv
    | with_reducible apply keepsOut_next
    | with_reducible apply State.dropFlight_inv
    | with_reducible apply State.releasePhase_inv
    | split
    | intro _
    | dsimp only
    | (unfold State.inv; dsimp only)

theorem State.saveBars_inv {s : State} (rec : Nat → Nat) (k : Core) (grp : BitVec 8) (hm : s.inv) :
    (State.saveBars s rec k grp).inv := by
  unfold State.saveBars
  try dsimp only
  repeat' first
    | with_reducible assumption
    | with_reducible apply State.wf_of_inv
    | with_reducible apply State.put64_inv
    | with_reducible apply foldl_inv
    | split
    | intro _
    | dsimp only
    | (unfold State.inv; dsimp only)

theorem execBarrierRelease_inv (n : Nat) {s : State} (hm : s.inv) :
    KeepsOut (execBarrierRelease n s) := by
  unfold execBarrierRelease
  try dsimp only
  repeat' first
    | with_reducible assumption
    | with_reducible apply State.wf_of_inv
    | with_reducible apply keepsOut_next
    | with_reducible apply State.modCore_inv
    | with_reducible apply State.dropFlight_inv
    | with_reducible apply State.modSaved_inv
    | with_reducible apply State.saveBars_inv
    | with_reducible apply State.release_inv
    | split
    | intro _
    | dsimp only
    | (unfold State.inv; dsimp only)

theorem execWaitDeadline_inv (core : CoreIx) (thr : ThrIx) {s : State} (hm : s.inv) :
    KeepsOut (execWaitDeadline core thr s) := by
  unfold execWaitDeadline
  try dsimp only
  repeat' first
    | with_reducible assumption
    | with_reducible apply State.wf_of_inv
    | with_reducible apply keepsOut_next
    | with_reducible apply State.putTh_inv
    | split
    | intro _
    | dsimp only
    | (unfold State.inv; dsimp only)

theorem execWatchdogStop_inv (core : CoreIx) {s : State} (hm : s.inv) :
    KeepsOut (execWatchdogStop core s) := by
  unfold execWatchdogStop
  try dsimp only
  repeat' first
    | with_reducible assumption
    | with_reducible apply State.wf_of_inv
    | with_reducible apply keepsOut_next
    | with_reducible apply State.modCore_inv
    | with_reducible apply State.putTh_inv
    | with_reducible apply State.report5_inv
    | split
    | intro _
    | dsimp only
    | (unfold State.inv; dsimp only)

theorem State.malformedCheck_inv {s : State} (cl : BitVec 8) (h : Header) (hm : s.inv) :
    (State.malformedCheck s cl h).inv := by
  unfold State.malformedCheck
  try dsimp only
  repeat' first
    | with_reducible assumption
    | with_reducible apply State.wf_of_inv
    | with_reducible apply State.machineCheck_inv
    | split
    | intro _
    | dsimp only
    | (unfold State.inv; dsimp only)

theorem State.setLink_inv {s : State} (l : Nat) (k : Link) (hm : s.inv) :
    (State.setLink s l k).inv := by
  unfold State.setLink
  try dsimp only
  repeat' first
    | with_reducible assumption
    | with_reducible apply State.wf_of_inv
    | split
    | intro _
    | dsimp only
    | (unfold State.inv; dsimp only)

theorem State.lostCheck_inv {s : State} (cl : BitVec 8) (l : Nat) (h : Header) (hm : s.inv) :
    (State.lostCheck s cl l h).inv := by
  unfold State.lostCheck
  try dsimp only
  repeat' first
    | with_reducible assumption
    | with_reducible apply State.wf_of_inv
    | with_reducible apply State.machineCheck_inv
    | split
    | intro _
    | dsimp only
    | (unfold State.inv; dsimp only)

theorem State.moveFlight_inv {s : State} (n : Nat) (f : Flight) (loc : Loc) (hm : s.inv) :
    (State.moveFlight s n f loc).inv := by
  unfold State.moveFlight
  try dsimp only
  repeat' first
    | with_reducible assumption
    | with_reducible apply State.wf_of_inv
    | split
    | intro _
    | dsimp only
    | (unfold State.inv; dsimp only)

theorem State.hop_inv {s : State} (n : Nat) (f : Flight) (cl : BitVec 8) (hm : s.inv) :
    (State.hop s n f cl).inv := by
  unfold State.hop
  try dsimp only
  repeat' first
    | with_reducible assumption
    | with_reducible apply State.wf_of_inv
    | with_reducible apply State.dropFlight_inv
    | with_reducible apply State.malformedCheck_inv
    | with_reducible apply State.lostCheck_inv
    | with_reducible apply State.moveFlight_inv
    | split
    | intro _
    | dsimp only
    | (unfold State.inv; dsimp only)

theorem State.linkHop_inv {s : State} (n : Nat) (f : Flight) (l : BitVec 6) (hm : s.inv) :
    (State.linkHop s n f l).inv := by
  unfold State.linkHop
  try dsimp only
  repeat' first
    | with_reducible assumption
    | with_reducible apply State.wf_of_inv
    | with_reducible apply State.dropFlight_inv
    | with_reducible apply State.setLink_inv
    | split
    | intro _
    | dsimp only
    | (unfold State.inv; dsimp only)

theorem execRouterForward_inv (n : Nat) {s : State} (hm : s.inv) :
    KeepsOut (execRouterForward n s) := by
  unfold execRouterForward
  try dsimp only
  repeat' first
    | with_reducible assumption
    | with_reducible apply State.wf_of_inv
    | with_reducible apply keepsOut_next
    | with_reducible apply State.hop_inv
    | with_reducible apply State.linkHop_inv
    | split
    | intro _
    | dsimp only
    | (unfold State.inv; dsimp only)

theorem State.setSwitch_inv {s : State} (i : Nat) (k : Switch) (hm : s.inv) :
    (State.setSwitch s i k).inv := by
  unfold State.setSwitch
  try dsimp only
  repeat' first
    | with_reducible assumption
    | with_reducible apply State.wf_of_inv
    | split
    | intro _
    | dsimp only
    | (unfold State.inv; dsimp only)

theorem State.gatewayViolation_inv {s : State} (i : Nat) (p : Packet) (hm : s.inv) :
    (State.gatewayViolation s i p).inv := by
  unfold State.gatewayViolation
  try dsimp only
  repeat' first
    | with_reducible assumption
    | with_reducible apply State.wf_of_inv
    | with_reducible apply State.report_inv
    | split
    | intro _
    | dsimp only
    | (unfold State.inv; dsimp only)

theorem execGatewayArrival_inv (sw : BitVec 3) (p : Packet) {s : State} (hm : s.inv) :
    KeepsOut (execGatewayArrival sw p s) := by
  unfold execGatewayArrival
  try dsimp only
  repeat' first
    | with_reducible assumption
    | with_reducible apply State.wf_of_inv
    | with_reducible apply keepsOut_next
    | with_reducible apply State.launch_inv
    | with_reducible apply State.malformedCheck_inv
    | with_reducible apply State.setSwitch_inv
    | with_reducible apply State.gatewayViolation_inv
    | split
    | intro _
    | dsimp only
    | (unfold State.inv; dsimp only)

theorem execArrivalRingReentry_inv (sw : BitVec 3) {s : State} (hm : s.inv) :
    KeepsOut (execArrivalRingReentry sw s) := by
  unfold execArrivalRingReentry
  try dsimp only
  repeat' first
    | with_reducible assumption
    | with_reducible apply State.wf_of_inv
    | with_reducible apply keepsOut_next
    | with_reducible apply State.launch_inv
    | with_reducible apply State.setSwitch_inv
    | split
    | intro _
    | dsimp only
    | (unfold State.inv; dsimp only)

theorem execArrivalRingFullReport_inv (sw : BitVec 3) {s : State} (hm : s.inv) :
    KeepsOut (execArrivalRingFullReport sw s) := by
  unfold execArrivalRingFullReport
  try dsimp only
  repeat' first
    | with_reducible assumption
    | with_reducible apply State.wf_of_inv
    | with_reducible apply keepsOut_next
    | with_reducible apply State.machineCheck_inv
    | with_reducible apply State.setSwitch_inv
    | split
    | intro _
    | dsimp only
    | (unfold State.inv; dsimp only)

theorem execLinkCrcError_inv (link : BitVec 6) {s : State} (hm : s.inv) :
    KeepsOut (execLinkCrcError link s) := by
  unfold execLinkCrcError
  try dsimp only
  repeat' first
    | with_reducible assumption
    | with_reducible apply State.wf_of_inv
    | with_reducible apply keepsOut_next
    | with_reducible apply State.setLink_inv
    | split
    | intro _
    | dsimp only
    | (unfold State.inv; dsimp only)

theorem execLinkRetrain_inv (link : BitVec 6) {s : State} (hm : s.inv) :
    KeepsOut (execLinkRetrain link s) := by
  unfold execLinkRetrain
  try dsimp only
  repeat' first
    | with_reducible assumption
    | with_reducible apply State.wf_of_inv
    | with_reducible apply keepsOut_next
    | with_reducible apply State.setLink_inv
    | split
    | intro _
    | dsimp only
    | (unfold State.inv; dsimp only)

theorem execLinkRetrained_inv (link : BitVec 6) {s : State} (hm : s.inv) :
    KeepsOut (execLinkRetrained link s) := by
  unfold execLinkRetrained
  try dsimp only
  repeat' first
    | with_reducible assumption
    | with_reducible apply State.wf_of_inv
    | with_reducible apply keepsOut_next
    | with_reducible apply State.setLink_inv
    | split
    | intro _
    | dsimp only
    | (unfold State.inv; dsimp only)

theorem execLinkDown_inv (link : BitVec 6) {s : State} (hm : s.inv) :
    KeepsOut (execLinkDown link s) := by
  unfold execLinkDown
  try dsimp only
  repeat' first
    | with_reducible assumption
    | with_reducible apply State.wf_of_inv
    | with_reducible apply keepsOut_next
    | with_reducible apply State.machineCheck_inv
    | with_reducible apply State.setLink_inv
    | with_reducible apply State.lostCheck_inv
    | with_reducible apply foldl_inv
    | split
    | intro _
    | dsimp only
    | (unfold State.inv; dsimp only)

theorem execPodCounterExchange_inv (sw : BitVec 3) (value : BitVec 64) {s : State} (hm : s.inv) :
    KeepsOut (execPodCounterExchange sw value s) := by
  unfold execPodCounterExchange
  try dsimp only
  repeat' first
    | with_reducible assumption
    | with_reducible apply State.wf_of_inv
    | with_reducible apply keepsOut_next
    | with_reducible apply State.setSwitch_inv
    | split
    | intro _
    | dsimp only
    | (unfold State.inv; dsimp only)


end Sys2Proof.Machine
end

