-- ==== Sys2Proof/Laws/EngineKeep.lean ====
section
/-! SUPPORT. The canonical form of memory is kept by the copy engine and the arrays. -/

namespace Sys2Proof.Machine


theorem State.engIssue_inv {s : State} (i : Instr) (vals : Word × Word × Word × Word) (cls : Cls) (lab : Label) (th : Thread → Thread) (hm : s.inv) :
    (State.engIssue s i vals cls lab th).inv := by
  unfold State.engIssue
  try dsimp only
  repeat' first
    | with_reducible assumption
    | with_reducible apply State.wf_of_inv
    | with_reducible apply State.modCluster_inv
    | with_reducible apply State.setTh_inv
    | with_reducible apply State.stall_inv
    | with_reducible apply State.fresh_inv
    | with_reducible apply State.atNearCommit_inv
    | split
    | intro _
    | dsimp only
    | (unfold State.inv; dsimp only)

theorem State.command_inv {s : State} (i : Instr) (d a b c : SReg) (cls : Cls) (lab : Label) (hm : s.inv) :
    KeepsOut (State.command s i d a b c cls lab) := by
  unfold State.command
  try dsimp only
  repeat' first
    | with_reducible assumption
    | with_reducible apply State.wf_of_inv
    | with_reducible apply keepsOut_next
    | with_reducible apply State.engIssue_inv
    | split
    | intro _
    | dsimp only
    | (unfold State.inv; dsimp only)

theorem execTzero_inv (a c : SReg) (lab : Label) {s : State} (hm : s.inv) :
    KeepsOut (execTzero a c lab s) := by
  unfold execTzero
  try dsimp only
  repeat' first
    | with_reducible assumption
    | with_reducible apply State.wf_of_inv
    | with_reducible apply keepsOut_next
    | with_reducible apply State.command_inv
    | split
    | intro _
    | dsimp only
    | (unfold State.inv; dsimp only)

theorem execTfill_inv (f : Tag) (a b c : SReg) (lab : Label) {s : State} (hm : s.inv) :
    KeepsOut (execTfill f a b c lab s) := by
  unfold execTfill
  try dsimp only
  repeat' first
    | with_reducible assumption
    | with_reducible apply State.wf_of_inv
    | with_reducible apply keepsOut_next
    | with_reducible apply State.command_inv
    | split
    | intro _
    | dsimp only
    | (unfold State.inv; dsimp only)

theorem execTident_inv (f : Tag) (diag : BitVec 7) (a c : SReg) (lab : Label) {s : State} (hm : s.inv) :
    KeepsOut (execTident f diag a c lab s) := by
  unfold execTident
  try dsimp only
  repeat' first
    | with_reducible assumption
    | with_reducible apply State.wf_of_inv
    | with_reducible apply keepsOut_next
    | with_reducible apply State.command_inv
    | split
    | intro _
    | dsimp only
    | (unfold State.inv; dsimp only)

theorem execXcopy_inv (dir : Dir2) (f : Tag) (cls : Cls) (d a b : SReg) (lab : Label) {s : State} (hm : s.inv) :
    KeepsOut (execXcopy dir f cls d a b lab s) := by
  unfold execXcopy
  try dsimp only
  repeat' first
    | with_reducible assumption
    | with_reducible apply State.wf_of_inv
    | with_reducible apply keepsOut_next
    | with_reducible apply State.command_inv
    | split
    | intro _
    | dsimp only
    | (unfold State.inv; dsimp only)

theorem execXmapLd_inv (cls : Cls) (d a b c : SReg) (lab : Label) {s : State} (hm : s.inv) :
    KeepsOut (execXmapLd cls d a b c lab s) := by
  unfold execXmapLd
  try dsimp only
  repeat' first
    | with_reducible assumption
    | with_reducible apply State.wf_of_inv
    | with_reducible apply keepsOut_next
    | with_reducible apply State.command_inv
    | split
    | intro _
    | dsimp only
    | (unfold State.inv; dsimp only)

theorem execXmapSt_inv (cls : Cls) (d a b c : SReg) (lab : Label) {s : State} (hm : s.inv) :
    KeepsOut (execXmapSt cls d a b c lab s) := by
  unfold execXmapSt
  try dsimp only
  repeat' first
    | with_reducible assumption
    | with_reducible apply State.wf_of_inv
    | with_reducible apply keepsOut_next
    | with_reducible apply State.command_inv
    | split
    | intro _
    | dsimp only
    | (unfold State.inv; dsimp only)

theorem execXgather_inv (x64 : Bool) (cls : Cls) (d a b c : SReg) (lab : Label) {s : State} (hm : s.inv) :
    KeepsOut (execXgather x64 cls d a b c lab s) := by
  unfold execXgather
  try dsimp only
  repeat' first
    | with_reducible assumption
    | with_reducible apply State.wf_of_inv
    | with_reducible apply keepsOut_next
    | with_reducible apply State.command_inv
    | split
    | intro _
    | dsimp only
    | (unfold State.inv; dsimp only)

theorem execXscatter_inv (x64 acc : Bool) (f : Tag) (cls : Cls) (d a b c : SReg) (lab : Label) {s : State} (hm : s.inv) :
    KeepsOut (execXscatter x64 acc f cls d a b c lab s) := by
  unfold execXscatter
  try dsimp only
  repeat' first
    | with_reducible assumption
    | with_reducible apply State.wf_of_inv
    | with_reducible apply keepsOut_next
    | with_reducible apply State.command_inv
    | split
    | intro _
    | dsimp only
    | (unfold State.inv; dsimp only)

theorem execXpack_inv (dstNear : Bool) (f : Tag) (cls : Cls) (d a b : SReg) (lab : Label) {s : State} (hm : s.inv) :
    KeepsOut (execXpack dstNear f cls d a b lab s) := by
  unfold execXpack
  try dsimp only
  repeat' first
    | with_reducible assumption
    | with_reducible apply State.wf_of_inv
    | with_reducible apply keepsOut_next
    | with_reducible apply State.command_inv
    | split
    | intro _
    | dsimp only
    | (unfold State.inv; dsimp only)

theorem execXunpack_inv (srcNear : Bool) (f : Tag) (cls : Cls) (d a b : SReg) (lab : Label) {s : State} (hm : s.inv) :
    KeepsOut (execXunpack srcNear f cls d a b lab s) := by
  unfold execXunpack
  try dsimp only
  repeat' first
    | with_reducible assumption
    | with_reducible apply State.wf_of_inv
    | with_reducible apply keepsOut_next
    | with_reducible apply State.command_inv
    | split
    | intro _
    | dsimp only
    | (unfold State.inv; dsimp only)

theorem execXembed_inv (f : Tag) (cls : Cls) (d a b c : SReg) (lab : Label) {s : State} (hm : s.inv) :
    KeepsOut (execXembed f cls d a b c lab s) := by
  unfold execXembed
  try dsimp only
  repeat' first
    | with_reducible assumption
    | with_reducible apply State.wf_of_inv
    | with_reducible apply keepsOut_next
    | with_reducible apply State.command_inv
    | split
    | intro _
    | dsimp only
    | (unfold State.inv; dsimp only)

theorem execXstream_inv (toHost near : Bool) (cls : Cls) (d a b c : SReg) (lab : Label) {s : State} (hm : s.inv) :
    KeepsOut (execXstream toHost near cls d a b c lab s) := by
  unfold execXstream
  try dsimp only
  repeat' first
    | with_reducible assumption
    | with_reducible apply State.wf_of_inv
    | with_reducible apply keepsOut_next
    | with_reducible apply State.command_inv
    | split
    | intro _
    | dsimp only
    | (unfold State.inv; dsimp only)

theorem State.landAdd_inv {s : State} (cl : BitVec 8) (l : Landing) (hm : s.inv) :
    (State.landAdd s cl l).inv := by
  unfold State.landAdd
  try dsimp only
  repeat' first
    | with_reducible assumption
    | with_reducible apply State.wf_of_inv
    | with_reducible apply State.modCluster_inv
    | split
    | intro _
    | dsimp only
    | (unfold State.inv; dsimp only)

theorem State.landDrop_inv {s : State} (cl : BitVec 8) (id : Nat) (hm : s.inv) :
    (State.landDrop s cl id).inv := by
  unfold State.landDrop
  try dsimp only
  repeat' first
    | with_reducible assumption
    | with_reducible apply State.wf_of_inv
    | with_reducible apply State.modCluster_inv
    | split
    | intro _
    | dsimp only
    | (unfold State.inv; dsimp only)

theorem State.engRequest_inv {s : State} (k : EngCmd) (kind : Nat) (g : Word) (n flits : Nat) (words : List Word) (aux : Nat) (stage : Option Nat) (tile : Option Word) (psn : List Nat) (off : Nat) (hm : s.inv) :
    Keeps (State.engRequest s k kind g n flits words aux stage tile psn off) := by
  unfold State.engRequest
  try dsimp only
  repeat' first
    | with_reducible assumption
    | with_reducible apply State.wf_of_inv
    | with_reducible exact keeps_none
    | with_reducible apply keeps_some
    | with_reducible apply State.violation_inv
    | with_reducible apply State.request_inv
    | with_reducible apply State.modEng_inv
    | split
    | intro _
    | dsimp only
    | (unfold State.inv; dsimp only)

theorem execEngineCompletion_inv (cl : BitVec 8) (k : Nat) {s : State} (hm : s.inv) :
    KeepsOut (execEngineCompletion cl k s) := by
  unfold execEngineCompletion
  try dsimp only
  repeat' first
    | with_reducible assumption
    | with_reducible apply State.wf_of_inv
    | with_reducible apply keepsOut_next
    | with_reducible apply State.modCluster_inv
    | with_reducible apply State.noRoom_inv
    | with_reducible apply State.selfMsg_inv
    | split
    | intro _
    | dsimp only
    | (unfold State.inv; dsimp only)

theorem State.nextSub_inv {s : State} (k : EngCmd) (f : EngCmd → EngCmd) (hm : s.inv) :
    (State.nextSub s k f).inv := by
  unfold State.nextSub
  try dsimp only
  repeat' first
    | with_reducible assumption
    | with_reducible apply State.wf_of_inv
    | with_reducible apply State.modEng_inv
    | split
    | intro _
    | dsimp only
    | (unfold State.inv; dsimp only)

theorem State.engStore_inv {s : State} (k : EngCmd) (p : Nat) (bs : List Byte) (bad : List Nat) (hm : s.inv) :
    (State.engStore s k p bs bad).inv := by
  unfold State.engStore
  try dsimp only
  repeat' first
    | with_reducible assumption
    | with_reducible apply State.wf_of_inv
    | with_reducible apply State.storeBytes_inv
    | with_reducible apply State.modCore_inv
    | with_reducible apply foldl_inv
    | split
    | intro _
    | dsimp only
    | (unfold State.inv; dsimp only)

theorem State.act_inv {s : State} (k : EngCmd) (a : Act) (hm : s.inv) :
    Keeps (State.act s k a) := by
  unfold State.act
  try dsimp only
  repeat' first
    | with_reducible assumption
    | with_reducible apply State.wf_of_inv
    | with_reducible exact keeps_none
    | with_reducible apply keeps_some
    | with_reducible apply State.storeBytes_inv
    | with_reducible apply State.wholeTile_inv
    | with_reducible apply State.setTile_inv
    | with_reducible apply State.modEng_inv
    | exact State.engRequest_inv _ _ _ _ _ _ _ _ _ _ _ (by assumption) _ (by assumption)
    | with_reducible apply State.engRequest_inv
    | with_reducible apply State.nextSub_inv
    | with_reducible apply State.engStore_inv
    | split
    | intro _
    | dsimp only
    | (unfold State.inv; dsimp only)

theorem State.work_inv {s : State} (k : EngCmd) (hm : s.inv) :
    Keeps (State.work s k) := by
  unfold State.work
  try dsimp only
  repeat' first
    | with_reducible assumption
    | with_reducible apply State.wf_of_inv
    | with_reducible exact keeps_none
    | with_reducible apply keeps_some
    | with_reducible apply State.modEng_inv
    | with_reducible apply State.landDrop_inv
    | exact State.act_inv _ _ (by assumption) _ (by assumption)
    | with_reducible apply State.act_inv
    | split
    | intro _
    | dsimp only
    | (unfold State.inv; dsimp only)

theorem State.endStart_inv {s : State} (k : EngCmd) (st fst : Nat) (w : Word) (hm : s.inv) :
    (State.endStart s k st fst w).inv := by
  unfold State.endStart
  try dsimp only
  repeat' first
    | with_reducible assumption
    | with_reducible apply State.wf_of_inv
    | with_reducible apply State.modEng_inv
    | split
    | intro _
    | dsimp only
    | (unfold State.inv; dsimp only)

theorem State.beginWork_inv {s : State} (k : EngCmd) (hm : s.inv) :
    Keeps (State.beginWork s k) := by
  unfold State.beginWork
  try dsimp only
  repeat' first
    | with_reducible assumption
    | with_reducible apply State.wf_of_inv
    | with_reducible exact keeps_none
    | with_reducible apply keeps_some
    | with_reducible apply State.modEng_inv
    | with_reducible apply State.landAdd_inv
    | exact State.work_inv _ (by assumption) _ (by assumption)
    | with_reducible apply State.work_inv
    | split
    | intro _
    | dsimp only
    | (unfold State.inv; dsimp only)

theorem State.secondRound_inv {s : State} (k : EngCmd) (hm : s.inv) :
    Keeps (State.secondRound s k) := by
  unfold State.secondRound
  try dsimp only
  repeat' first
    | with_reducible assumption
    | with_reducible apply State.wf_of_inv
    | with_reducible exact keeps_none
    | with_reducible apply keeps_some
    | with_reducible apply State.modEng_inv
    | with_reducible apply State.endStart_inv
    | exact State.beginWork_inv _ (by assumption) _ (by assumption)
    | with_reducible apply State.beginWork_inv
    | with_reducible apply getD_inv
    | split
    | intro _
    | dsimp only
    | (unfold State.inv; dsimp only)

theorem State.slotStep_inv {s : State} (k : EngCmd) (hm : s.inv) :
    Keeps (State.slotStep s k) := by
  unfold State.slotStep
  try dsimp only
  repeat' first
    | with_reducible assumption
    | with_reducible apply State.wf_of_inv
    | with_reducible exact keeps_none
    | with_reducible apply keeps_some
    | with_reducible apply State.modEng_inv
    | exact State.act_inv _ _ (by assumption) _ (by assumption)
    | with_reducible apply State.act_inv
    | with_reducible apply State.endStart_inv
    | split
    | intro _
    | dsimp only
    | (unfold State.inv; dsimp only)

theorem State.engStep_inv {s : State} (cl : BitVec 8) (id : Nat) (hm : s.inv) :
    Keeps (State.engStep s cl id) := by
  unfold State.engStep
  try dsimp only
  repeat' first
    | with_reducible assumption
    | with_reducible apply State.wf_of_inv
    | with_reducible exact keeps_none
    | with_reducible apply keeps_some
    | with_reducible apply State.modEng_inv
    | exact State.work_inv _ (by assumption) _ (by assumption)
    | with_reducible apply State.work_inv
    | with_reducible apply State.endStart_inv
    | exact State.beginWork_inv _ (by assumption) _ (by assumption)
    | with_reducible apply State.beginWork_inv
    | exact State.secondRound_inv _ (by assumption) _ (by assumption)
    | with_reducible apply State.secondRound_inv
    | exact State.slotStep_inv _ (by assumption) _ (by assumption)
    | with_reducible apply State.slotStep_inv
    | split
    | intro _
    | dsimp only
    | (unfold State.inv; dsimp only)

theorem State.engSteps_inv {s : State} (cl : BitVec 8) (id : Nat) (x : Nat) (hm : s.inv) :
    (State.engSteps s cl id x).inv := by
  induction x generalizing s with
  | zero => exact hm
  | succ n ih =>
    unfold State.engSteps
    try dsimp only
    repeat' first
      | with_reducible assumption
      | with_reducible apply ih
      | with_reducible apply State.wf_of_inv
      | exact State.engStep_inv _ _ (by assumption) _ (by assumption)
      | with_reducible apply State.engStep_inv
      | split
      | intro _
      | dsimp only
      | (unfold State.inv; dsimp only)

theorem execEngineCommandStart_inv (cl : BitVec 8) (k : Nat) (n : Nat) {s : State} (hm : s.inv) :
    KeepsOut (execEngineCommandStart cl k n s) := by
  unfold execEngineCommandStart
  try dsimp only
  repeat' first
    | with_reducible assumption
    | with_reducible apply State.wf_of_inv
    | with_reducible apply keepsOut_next
    | with_reducible apply State.engSteps_inv
    | split
    | intro _
    | dsimp only
    | (unfold State.inv; dsimp only)

theorem State.modMat_inv {s : State} (cl : BitVec 8) (arr : BitVec 2) (f : MatArray → MatArray) (hm : s.inv) :
    (State.modMat s cl arr f).inv := by
  unfold State.modMat
  try dsimp only
  repeat' first
    | with_reducible assumption
    | with_reducible apply State.wf_of_inv
    | with_reducible apply State.modCluster_inv
    | split
    | intro _
    | dsimp only
    | (unfold State.inv; dsimp only)

theorem State.modCmd_inv {s : State} (cl : BitVec 8) (arr : BitVec 2) (id : Nat) (f : MatCmd → MatCmd) (hm : s.inv) :
    (State.modCmd s cl arr id f).inv := by
  unfold State.modCmd
  try dsimp only
  repeat' first
    | with_reducible assumption
    | with_reducible apply State.wf_of_inv
    | with_reducible apply State.modMat_inv
    | split
    | intro _
    | dsimp only
    | (unfold State.inv; dsimp only)

theorem State.matIssue_inv {s : State} (i : Instr) (vals : Word × Word × Word × Word) (dyn : Bool) (lab : Label) (th : Thread → Thread) (hm : s.inv) :
    (State.matIssue s i vals dyn lab th).inv := by
  unfold State.matIssue
  try dsimp only
  repeat' first
    | with_reducible assumption
    | with_reducible apply State.wf_of_inv
    | with_reducible apply State.setTh_inv
    | with_reducible apply State.stall_inv
    | with_reducible apply State.noRoom_inv
    | with_reducible apply State.fresh_inv
    | with_reducible apply State.selfMsg_inv
    | with_reducible apply State.atNearCommit_inv
    | with_reducible apply State.modMat_inv
    | split
    | intro _
    | dsimp only
    | (unfold State.inv; dsimp only)

theorem State.matrix_inv {s : State} (i : Instr) (d a b c : SReg) (dyn : Bool) (lab : Label) (hm : s.inv) :
    KeepsOut (State.matrix s i d a b c dyn lab) := by
  unfold State.matrix
  try dsimp only
  repeat' first
    | with_reducible assumption
    | with_reducible apply State.wf_of_inv
    | with_reducible apply keepsOut_next
    | with_reducible apply State.matIssue_inv
    | split
    | intro _
    | dsimp only
    | (unfold State.inv; dsimp only)

theorem execMop_inv (n : BitVec 2) (m : Bool) (fA fB : Tag) (a b c : SReg) (lab : Label) {s : State} (hm : s.inv) :
    KeepsOut (execMop n m fA fB a b c lab s) := by
  unfold execMop
  try dsimp only
  repeat' first
    | with_reducible assumption
    | with_reducible apply State.wf_of_inv
    | with_reducible apply keepsOut_next
    | with_reducible apply State.matrix_inv
    | split
    | intro _
    | dsimp only
    | (unfold State.inv; dsimp only)

theorem execMopsZc_inv (n : BitVec 2) (m : Bool) (fA fB : Tag) (d a b c : SReg) (lab : Label) {s : State} (hm : s.inv) :
    KeepsOut (execMopsZc n m fA fB d a b c lab s) := by
  unfold execMopsZc
  try dsimp only
  repeat' first
    | with_reducible assumption
    | with_reducible apply State.wf_of_inv
    | with_reducible apply keepsOut_next
    | with_reducible apply State.matrix_inv
    | split
    | intro _
    | dsimp only
    | (unfold State.inv; dsimp only)

theorem execMopsS24_inv (n : BitVec 2) (m : Bool) (fA fB : Tag) (d a b c : SReg) (lab : Label) {s : State} (hm : s.inv) :
    KeepsOut (execMopsS24 n m fA fB d a b c lab s) := by
  unfold execMopsS24
  try dsimp only
  repeat' first
    | with_reducible assumption
    | with_reducible apply State.wf_of_inv
    | with_reducible apply keepsOut_next
    | with_reducible apply State.matrix_inv
    | split
    | intro _
    | dsimp only
    | (unfold State.inv; dsimp only)

theorem execMzero_inv (n : BitVec 2) (m : Bool) (lab : Label) {s : State} (hm : s.inv) :
    KeepsOut (execMzero n m lab s) := by
  unfold execMzero
  try dsimp only
  repeat' first
    | with_reducible assumption
    | with_reducible apply State.wf_of_inv
    | with_reducible apply keepsOut_next
    | with_reducible apply State.matrix_inv
    | split
    | intro _
    | dsimp only
    | (unfold State.inv; dsimp only)

theorem execMload_inv (n : BitVec 2) (m : Bool) (fA : Tag) (a : SReg) (lab : Label) {s : State} (hm : s.inv) :
    KeepsOut (execMload n m fA a lab s) := by
  unfold execMload
  try dsimp only
  repeat' first
    | with_reducible assumption
    | with_reducible apply State.wf_of_inv
    | with_reducible apply keepsOut_next
    | with_reducible apply State.matrix_inv
    | split
    | intro _
    | dsimp only
    | (unfold State.inv; dsimp only)

theorem execMdrain_inv (n : BitVec 2) (m : Bool) (fA : Tag) (rm : Rm) (relu : Bool) (scale : BitVec 8) (a : SReg) (lab : Label) {s : State} (hm : s.inv) :
    KeepsOut (execMdrain n m fA rm relu scale a lab s) := by
  unfold execMdrain
  try dsimp only
  repeat' first
    | with_reducible assumption
    | with_reducible apply State.wf_of_inv
    | with_reducible apply keepsOut_next
    | with_reducible apply State.matrix_inv
    | split
    | intro _
    | dsimp only
    | (unfold State.inv; dsimp only)

theorem execMseed_inv (n : BitVec 2) (a : SReg) {s : State} (hm : s.inv) :
    KeepsOut (execMseed n a s) := by
  unfold execMseed
  try dsimp only
  repeat' first
    | with_reducible assumption
    | with_reducible apply State.wf_of_inv
    | with_reducible apply keepsOut_next
    | with_reducible apply State.matrix_inv
    | split
    | intro _
    | dsimp only
    | (unfold State.inv; dsimp only)

theorem State.matEnd_inv {s : State} (cl : BitVec 8) (arr : BitVec 2) (id : Nat) (hm : s.inv) :
    (State.matEnd s cl arr id).inv := by
  unfold State.matEnd
  try dsimp only
  repeat' first
    | with_reducible assumption
    | with_reducible apply State.wf_of_inv
    | with_reducible apply State.landDrop_inv
    | with_reducible apply State.modCmd_inv
    | split
    | intro _
    | dsimp only
    | (unfold State.inv; dsimp only)

theorem State.matFail_inv {s : State} (cl : BitVec 8) (arr : BitVec 2) (id st : Nat) (w : Word) (hm : s.inv) :
    (State.matFail s cl arr id st w).inv := by
  unfold State.matFail
  try dsimp only
  repeat' first
    | with_reducible assumption
    | with_reducible apply State.wf_of_inv
    | with_reducible apply State.modCmd_inv
    | split
    | intro _
    | dsimp only
    | (unfold State.inv; dsimp only)

theorem State.gridStart_inv {s : State} (cl : BitVec 8) (arr : BitVec 2) (k : MatCmd) (m : Bool) (hm : s.inv) :
    (State.gridStart s cl arr k m).inv := by
  unfold State.gridStart
  try dsimp only
  repeat' first
    | with_reducible assumption
    | with_reducible apply State.wf_of_inv
    | with_reducible apply State.modMat_inv
    | with_reducible apply State.modCmd_inv
    | with_reducible apply State.matFail_inv
    | split
    | intro _
    | dsimp only
    | (unfold State.inv; dsimp only)

theorem State.govRefresh_inv {s : State} (cl : BitVec 8) (hm : s.inv) :
    (State.govRefresh s cl).inv := by
  unfold State.govRefresh
  try dsimp only
  repeat' first
    | with_reducible assumption
    | with_reducible apply State.wf_of_inv
    | with_reducible apply State.modCluster_inv
    | split
    | intro _
    | dsimp only
    | (unfold State.inv; dsimp only)

theorem State.gridCycle_inv {s : State} (cl : BitVec 8) (arr : BitVec 2) (k : MatCmd) (m : Bool) (hm : s.inv) :
    Keeps (State.gridCycle s cl arr k m) := by
  unfold State.gridCycle
  try dsimp only
  repeat' first
    | with_reducible assumption
    | with_reducible apply State.wf_of_inv
    | with_reducible exact keeps_none
    | with_reducible apply keeps_some
    | with_reducible apply State.modCluster_inv
    | with_reducible apply State.modMat_inv
    | with_reducible apply State.modCmd_inv
    | with_reducible apply State.govRefresh_inv
    | split
    | intro _
    | dsimp only
    | (unfold State.inv; dsimp only)

theorem State.loadTile_inv {s : State} (cl : BitVec 8) (arr : BitVec 2) (k : MatCmd) (m : Bool) (hm : s.inv) :
    (State.loadTile s cl arr k m).inv := by
  unfold State.loadTile
  try dsimp only
  repeat' first
    | with_reducible assumption
    | with_reducible apply State.wf_of_inv
    | with_reducible apply State.modMat_inv
    | with_reducible apply State.modCmd_inv
    | split
    | intro _
    | dsimp only
    | (unfold State.inv; dsimp only)

theorem State.drainTile_inv {s : State} (cl : BitVec 8) (arr : BitVec 2) (k : MatCmd) (m : Bool) (rm : Rm) (relu : Bool) (scale : BitVec 8) (hm : s.inv) :
    (State.drainTile s cl arr k m rm relu scale).inv := by
  unfold State.drainTile
  try dsimp only
  repeat' first
    | with_reducible assumption
    | with_reducible apply State.wf_of_inv
    | with_reducible apply State.wholeTile_inv
    | with_reducible apply State.modMat_inv
    | with_reducible apply State.modCmd_inv
    | split
    | intro _
    | dsimp only
    | (unfold State.inv; dsimp only)

theorem State.matBegin_inv {s : State} (cl : BitVec 8) (arr : BitVec 2) (k : MatCmd) (hm : s.inv) :
    (State.matBegin s cl arr k).inv := by
  unfold State.matBegin
  try dsimp only
  repeat' first
    | with_reducible assumption
    | with_reducible apply State.wf_of_inv
    | with_reducible apply State.modMat_inv
    | with_reducible apply State.modCmd_inv
    | with_reducible apply State.matEnd_inv
    | with_reducible apply State.matFail_inv
    | split
    | intro _
    | dsimp only
    | (unfold State.inv; dsimp only)

theorem State.matReady_inv {s : State} (cl : BitVec 8) (arr : BitVec 2) (k : MatCmd) (m : Bool) (hm : s.inv) :
    Keeps (State.matReady s cl arr k m) := by
  unfold State.matReady
  try dsimp only
  repeat' first
    | with_reducible assumption
    | with_reducible apply State.wf_of_inv
    | with_reducible exact keeps_none
    | with_reducible apply keeps_some
    | with_reducible apply State.landAdd_inv
    | with_reducible apply State.modMat_inv
    | with_reducible apply State.modCmd_inv
    | with_reducible apply State.gridStart_inv
    | split
    | intro _
    | dsimp only
    | (unfold State.inv; dsimp only)

theorem State.matWork_inv {s : State} (cl : BitVec 8) (arr : BitVec 2) (k : MatCmd) (m : Bool) (hm : s.inv) :
    Keeps (State.matWork s cl arr k m) := by
  unfold State.matWork
  try dsimp only
  repeat' first
    | with_reducible assumption
    | with_reducible apply State.wf_of_inv
    | with_reducible exact keeps_none
    | with_reducible apply keeps_some
    | with_reducible apply State.matEnd_inv
    | exact State.gridCycle_inv _ _ _ _ (by assumption) _ (by assumption)
    | with_reducible apply State.gridCycle_inv
    | with_reducible apply State.loadTile_inv
    | with_reducible apply State.drainTile_inv
    | split
    | intro _
    | dsimp only
    | (unfold State.inv; dsimp only)

theorem State.fetchEarly_inv {s : State} (cl : BitVec 8) (arr : BitVec 2) (k : Nat) (ws : List Nat) (hm : s.inv) :
    (State.fetchEarly s cl arr k ws).inv := by
  unfold State.fetchEarly
  try dsimp only
  repeat' first
    | with_reducible assumption
    | with_reducible apply State.wf_of_inv
    | with_reducible apply State.modCmd_inv
    | with_reducible apply foldl_inv
    | split
    | intro _
    | dsimp only
    | (unfold State.inv; dsimp only)

theorem State.matStep_inv {s : State} (cl : BitVec 8) (arr : BitVec 2) (id : Nat) (hm : s.inv) :
    Keeps (State.matStep s cl arr id) := by
  unfold State.matStep
  try dsimp only
  repeat' first
    | with_reducible assumption
    | with_reducible apply State.wf_of_inv
    | with_reducible exact keeps_none
    | with_reducible apply keeps_some
    | with_reducible apply State.matBegin_inv
    | exact State.matReady_inv _ _ _ _ (by assumption) _ (by assumption)
    | with_reducible apply State.matReady_inv
    | exact State.matWork_inv _ _ _ _ (by assumption) _ (by assumption)
    | with_reducible apply State.matWork_inv
    | with_reducible apply getD_inv
    | split
    | intro _
    | dsimp only
    | (unfold State.inv; dsimp only)

theorem State.matSteps_inv {s : State} (cl : BitVec 8) (arr : BitVec 2) (id : Nat) (x : Nat) (hm : s.inv) :
    (State.matSteps s cl arr id x).inv := by
  induction x generalizing s with
  | zero => exact hm
  | succ n ih =>
    unfold State.matSteps
    try dsimp only
    repeat' first
      | with_reducible assumption
      | with_reducible apply ih
      | with_reducible apply State.wf_of_inv
      | exact State.matStep_inv _ _ _ (by assumption) _ (by assumption)
      | with_reducible apply State.matStep_inv
      | split
      | intro _
      | dsimp only
      | (unfold State.inv; dsimp only)

theorem execMatrixCommandStart_inv (cl : BitVec 8) (arr : BitVec 2) (k : Nat) (n : Nat) {s : State} (hm : s.inv) :
    KeepsOut (execMatrixCommandStart cl arr k n s) := by
  unfold execMatrixCommandStart
  try dsimp only
  repeat' first
    | with_reducible assumption
    | with_reducible apply State.wf_of_inv
    | with_reducible apply keepsOut_next
    | with_reducible apply State.matSteps_inv
    | split
    | intro _
    | dsimp only
    | (unfold State.inv; dsimp only)

theorem execMatrixCompletion_inv (cl : BitVec 8) (arr : BitVec 2) {s : State} (hm : s.inv) :
    KeepsOut (execMatrixCompletion cl arr s) := by
  unfold execMatrixCompletion
  try dsimp only
  repeat' first
    | with_reducible assumption
    | with_reducible apply State.wf_of_inv
    | with_reducible apply keepsOut_next
    | with_reducible apply State.noRoom_inv
    | with_reducible apply State.selfMsg_inv
    | with_reducible apply State.modMat_inv
    | split
    | intro _
    | dsimp only
    | (unfold State.inv; dsimp only)

theorem execGovernorWindow_inv (cl : BitVec 8) {s : State} (hm : s.inv) :
    KeepsOut (execGovernorWindow cl s) := by
  unfold execGovernorWindow
  try dsimp only
  repeat' first
    | with_reducible assumption
    | with_reducible apply State.wf_of_inv
    | with_reducible apply keepsOut_next
    | with_reducible apply State.govRefresh_inv
    | split
    | intro _
    | dsimp only
    | (unfold State.inv; dsimp only)


end Sys2Proof.Machine
end

