-- ==== Sys2Proof/Laws/PerInstr.lean ====
section
/-! SUPPORT. The family RoundTrip, instruction by instruction: the words the encoder gives a well-formed
instruction decode to that instruction, every operand with the value it had. -/

namespace Sys2Proof

set_option Elab.async false

/-- The words of a well-formed instruction decode to it (Chapter 2). -/
def Laws.RoundTrip.Statement (i : Instr) : Prop :=
  i.wf = true → ∀ x, encode i = some x → decodeWords (x % 2 ^ 32) (x / 2 ^ 32) = .ok i

theorem Laws.RoundTrip.of_fields {i : Instr} {fs : List (Nat × Nat)} (hf : i.fields = some fs)
    (hfit : fieldsFit fs = true)
    (hlen : widthOf fs = 32 ∨ (widthOf fs = 64 ∧ fld (pack fs) 26 6 = 0x3F))
    (hd : decRaw (pack fs) = some i) : Laws.RoundTrip.Statement i := by
  intro hw x hx
  rw [encode, hf] at hx
  cases hx
  exact decodeWords_pack hw hfit hlen hd

/-- A step of a unit has no word. -/
theorem Laws.RoundTrip.of_none {i : Instr} (hf : i.fields = none) : Laws.RoundTrip.Statement i := by
  intro _ x hx
  rw [encode, hf] at hx
  cases hx

theorem Laws.RoundTrip.add (d a b : SReg) : Statement (.add d a b) :=
  of_fields rfl (by simp [fieldsFit]; exact ⟨b.isLt, a.isLt, d.isLt⟩) (.inl rfl)
    (by simp (disch := first | decide | exact BitVec.isLt _) [decRaw, dec00, fld_pack_here, fld_pack_above])
theorem Laws.RoundTrip.sub (d a b : SReg) : Statement (.sub d a b) :=
  of_fields rfl (by simp [fieldsFit]; exact ⟨b.isLt, a.isLt, d.isLt⟩) (.inl rfl)
    (by simp (disch := first | decide | exact BitVec.isLt _) [decRaw, dec00, fld_pack_here, fld_pack_above])
theorem Laws.RoundTrip.mul (d a b : SReg) : Statement (.mul d a b) :=
  of_fields rfl (by simp [fieldsFit]; exact ⟨b.isLt, a.isLt, d.isLt⟩) (.inl rfl)
    (by simp (disch := first | decide | exact BitVec.isLt _) [decRaw, dec00, fld_pack_here, fld_pack_above])
theorem Laws.RoundTrip.mulh (d a b : SReg) : Statement (.mulh d a b) :=
  of_fields rfl (by simp [fieldsFit]; exact ⟨b.isLt, a.isLt, d.isLt⟩) (.inl rfl)
    (by simp (disch := first | decide | exact BitVec.isLt _) [decRaw, dec00, fld_pack_here, fld_pack_above])
theorem Laws.RoundTrip.mulhu (d a b : SReg) : Statement (.mulhu d a b) :=
  of_fields rfl (by simp [fieldsFit]; exact ⟨b.isLt, a.isLt, d.isLt⟩) (.inl rfl)
    (by simp (disch := first | decide | exact BitVec.isLt _) [decRaw, dec00, fld_pack_here, fld_pack_above])
theorem Laws.RoundTrip.mulhsu (d a b : SReg) : Statement (.mulhsu d a b) :=
  of_fields rfl (by simp [fieldsFit]; exact ⟨b.isLt, a.isLt, d.isLt⟩) (.inl rfl)
    (by simp (disch := first | decide | exact BitVec.isLt _) [decRaw, dec00, fld_pack_here, fld_pack_above])
theorem Laws.RoundTrip.div (d a b : SReg) : Statement (.div d a b) :=
  of_fields rfl (by simp [fieldsFit]; exact ⟨b.isLt, a.isLt, d.isLt⟩) (.inl rfl)
    (by simp (disch := first | decide | exact BitVec.isLt _) [decRaw, dec00, fld_pack_here, fld_pack_above])
theorem Laws.RoundTrip.divu (d a b : SReg) : Statement (.divu d a b) :=
  of_fields rfl (by simp [fieldsFit]; exact ⟨b.isLt, a.isLt, d.isLt⟩) (.inl rfl)
    (by simp (disch := first | decide | exact BitVec.isLt _) [decRaw, dec00, fld_pack_here, fld_pack_above])
theorem Laws.RoundTrip.rem (d a b : SReg) : Statement (.rem d a b) :=
  of_fields rfl (by simp [fieldsFit]; exact ⟨b.isLt, a.isLt, d.isLt⟩) (.inl rfl)
    (by simp (disch := first | decide | exact BitVec.isLt _) [decRaw, dec00, fld_pack_here, fld_pack_above])
theorem Laws.RoundTrip.remu (d a b : SReg) : Statement (.remu d a b) :=
  of_fields rfl (by simp [fieldsFit]; exact ⟨b.isLt, a.isLt, d.isLt⟩) (.inl rfl)
    (by simp (disch := first | decide | exact BitVec.isLt _) [decRaw, dec00, fld_pack_here, fld_pack_above])
theorem Laws.RoundTrip.and (d a b : SReg) : Statement (.and d a b) :=
  of_fields rfl (by simp [fieldsFit]; exact ⟨b.isLt, a.isLt, d.isLt⟩) (.inl rfl)
    (by simp (disch := first | decide | exact BitVec.isLt _) [decRaw, dec00, fld_pack_here, fld_pack_above])
theorem Laws.RoundTrip.or (d a b : SReg) : Statement (.or d a b) :=
  of_fields rfl (by simp [fieldsFit]; exact ⟨b.isLt, a.isLt, d.isLt⟩) (.inl rfl)
    (by simp (disch := first | decide | exact BitVec.isLt _) [decRaw, dec00, fld_pack_here, fld_pack_above])
theorem Laws.RoundTrip.xor (d a b : SReg) : Statement (.xor d a b) :=
  of_fields rfl (by simp [fieldsFit]; exact ⟨b.isLt, a.isLt, d.isLt⟩) (.inl rfl)
    (by simp (disch := first | decide | exact BitVec.isLt _) [decRaw, dec00, fld_pack_here, fld_pack_above])
theorem Laws.RoundTrip.andn (d a b : SReg) : Statement (.andn d a b) :=
  of_fields rfl (by simp [fieldsFit]; exact ⟨b.isLt, a.isLt, d.isLt⟩) (.inl rfl)
    (by simp (disch := first | decide | exact BitVec.isLt _) [decRaw, dec00, fld_pack_here, fld_pack_above])
theorem Laws.RoundTrip.orn (d a b : SReg) : Statement (.orn d a b) :=
  of_fields rfl (by simp [fieldsFit]; exact ⟨b.isLt, a.isLt, d.isLt⟩) (.inl rfl)
    (by simp (disch := first | decide | exact BitVec.isLt _) [decRaw, dec00, fld_pack_here, fld_pack_above])
theorem Laws.RoundTrip.sll (d a b : SReg) : Statement (.sll d a b) :=
  of_fields rfl (by simp [fieldsFit]; exact ⟨b.isLt, a.isLt, d.isLt⟩) (.inl rfl)
    (by simp (disch := first | decide | exact BitVec.isLt _) [decRaw, dec00, fld_pack_here, fld_pack_above])
theorem Laws.RoundTrip.srl (d a b : SReg) : Statement (.srl d a b) :=
  of_fields rfl (by simp [fieldsFit]; exact ⟨b.isLt, a.isLt, d.isLt⟩) (.inl rfl)
    (by simp (disch := first | decide | exact BitVec.isLt _) [decRaw, dec00, fld_pack_here, fld_pack_above])
theorem Laws.RoundTrip.sra (d a b : SReg) : Statement (.sra d a b) :=
  of_fields rfl (by simp [fieldsFit]; exact ⟨b.isLt, a.isLt, d.isLt⟩) (.inl rfl)
    (by simp (disch := first | decide | exact BitVec.isLt _) [decRaw, dec00, fld_pack_here, fld_pack_above])
theorem Laws.RoundTrip.rol (d a b : SReg) : Statement (.rol d a b) :=
  of_fields rfl (by simp [fieldsFit]; exact ⟨b.isLt, a.isLt, d.isLt⟩) (.inl rfl)
    (by simp (disch := first | decide | exact BitVec.isLt _) [decRaw, dec00, fld_pack_here, fld_pack_above])
theorem Laws.RoundTrip.ror (d a b : SReg) : Statement (.ror d a b) :=
  of_fields rfl (by simp [fieldsFit]; exact ⟨b.isLt, a.isLt, d.isLt⟩) (.inl rfl)
    (by simp (disch := first | decide | exact BitVec.isLt _) [decRaw, dec00, fld_pack_here, fld_pack_above])
theorem Laws.RoundTrip.min (d a b : SReg) : Statement (.min d a b) :=
  of_fields rfl (by simp [fieldsFit]; exact ⟨b.isLt, a.isLt, d.isLt⟩) (.inl rfl)
    (by simp (disch := first | decide | exact BitVec.isLt _) [decRaw, dec00, fld_pack_here, fld_pack_above])
theorem Laws.RoundTrip.minu (d a b : SReg) : Statement (.minu d a b) :=
  of_fields rfl (by simp [fieldsFit]; exact ⟨b.isLt, a.isLt, d.isLt⟩) (.inl rfl)
    (by simp (disch := first | decide | exact BitVec.isLt _) [decRaw, dec00, fld_pack_here, fld_pack_above])
theorem Laws.RoundTrip.max (d a b : SReg) : Statement (.max d a b) :=
  of_fields rfl (by simp [fieldsFit]; exact ⟨b.isLt, a.isLt, d.isLt⟩) (.inl rfl)
    (by simp (disch := first | decide | exact BitVec.isLt _) [decRaw, dec00, fld_pack_here, fld_pack_above])
theorem Laws.RoundTrip.maxu (d a b : SReg) : Statement (.maxu d a b) :=
  of_fields rfl (by simp [fieldsFit]; exact ⟨b.isLt, a.isLt, d.isLt⟩) (.inl rfl)
    (by simp (disch := first | decide | exact BitVec.isLt _) [decRaw, dec00, fld_pack_here, fld_pack_above])
theorem Laws.RoundTrip.adds (d a b : SReg) : Statement (.adds d a b) :=
  of_fields rfl (by simp [fieldsFit]; exact ⟨b.isLt, a.isLt, d.isLt⟩) (.inl rfl)
    (by simp (disch := first | decide | exact BitVec.isLt _) [decRaw, dec00, fld_pack_here, fld_pack_above])
theorem Laws.RoundTrip.subs (d a b : SReg) : Statement (.subs d a b) :=
  of_fields rfl (by simp [fieldsFit]; exact ⟨b.isLt, a.isLt, d.isLt⟩) (.inl rfl)
    (by simp (disch := first | decide | exact BitVec.isLt _) [decRaw, dec00, fld_pack_here, fld_pack_above])
theorem Laws.RoundTrip.addsu (d a b : SReg) : Statement (.addsu d a b) :=
  of_fields rfl (by simp [fieldsFit]; exact ⟨b.isLt, a.isLt, d.isLt⟩) (.inl rfl)
    (by simp (disch := first | decide | exact BitVec.isLt _) [decRaw, dec00, fld_pack_here, fld_pack_above])
theorem Laws.RoundTrip.subsu (d a b : SReg) : Statement (.subsu d a b) :=
  of_fields rfl (by simp [fieldsFit]; exact ⟨b.isLt, a.isLt, d.isLt⟩) (.inl rfl)
    (by simp (disch := first | decide | exact BitVec.isLt _) [decRaw, dec00, fld_pack_here, fld_pack_above])
theorem Laws.RoundTrip.clz (d a : SReg) : Statement (.clz d a) :=
  of_fields rfl (by simp [fieldsFit]; exact ⟨a.isLt, d.isLt⟩) (.inl rfl)
    (by simp (disch := first | decide | exact BitVec.isLt _) [decRaw, dec00, fld_pack_here, fld_pack_above])
theorem Laws.RoundTrip.ctz (d a : SReg) : Statement (.ctz d a) :=
  of_fields rfl (by simp [fieldsFit]; exact ⟨a.isLt, d.isLt⟩) (.inl rfl)
    (by simp (disch := first | decide | exact BitVec.isLt _) [decRaw, dec00, fld_pack_here, fld_pack_above])
theorem Laws.RoundTrip.popc (d a : SReg) : Statement (.popc d a) :=
  of_fields rfl (by simp [fieldsFit]; exact ⟨a.isLt, d.isLt⟩) (.inl rfl)
    (by simp (disch := first | decide | exact BitVec.isLt _) [decRaw, dec00, fld_pack_here, fld_pack_above])
theorem Laws.RoundTrip.bswap (d a : SReg) : Statement (.bswap d a) :=
  of_fields rfl (by simp [fieldsFit]; exact ⟨a.isLt, d.isLt⟩) (.inl rfl)
    (by simp (disch := first | decide | exact BitVec.isLt _) [decRaw, dec00, fld_pack_here, fld_pack_above])
theorem Laws.RoundTrip.fadd (f : FFmt) (rm : Rm) (d a b : SReg) : Statement (.fadd f rm d a b) :=
  of_fields rfl (by simp [fieldsFit]; exact ⟨FFmt.code_lt f, Rm.code_lt rm, b.isLt, a.isLt, d.isLt⟩) (.inl rfl)
    (by simp (disch := first | decide | exact BitVec.isLt _ | exact FFmt.code_lt _ | exact Rm.code_lt _) [decRaw, dec00, fld_pack_here, fld_pack_above, FFmt.ofCode_code, Rm.ofCode_code])
theorem Laws.RoundTrip.fsub (f : FFmt) (rm : Rm) (d a b : SReg) : Statement (.fsub f rm d a b) :=
  of_fields rfl (by simp [fieldsFit]; exact ⟨FFmt.code_lt f, Rm.code_lt rm, b.isLt, a.isLt, d.isLt⟩) (.inl rfl)
    (by simp (disch := first | decide | exact BitVec.isLt _ | exact FFmt.code_lt _ | exact Rm.code_lt _) [decRaw, dec00, fld_pack_here, fld_pack_above, FFmt.ofCode_code, Rm.ofCode_code])
theorem Laws.RoundTrip.fmul (f : FFmt) (rm : Rm) (d a b : SReg) : Statement (.fmul f rm d a b) :=
  of_fields rfl (by simp [fieldsFit]; exact ⟨FFmt.code_lt f, Rm.code_lt rm, b.isLt, a.isLt, d.isLt⟩) (.inl rfl)
    (by simp (disch := first | decide | exact BitVec.isLt _ | exact FFmt.code_lt _ | exact Rm.code_lt _) [decRaw, dec00, fld_pack_here, fld_pack_above, FFmt.ofCode_code, Rm.ofCode_code])
theorem Laws.RoundTrip.fmin (f : FFmt) (d a b : SReg) : Statement (.fmin f d a b) :=
  of_fields rfl (by simp [fieldsFit]; exact ⟨FFmt.code_lt f, b.isLt, a.isLt, d.isLt⟩) (.inl rfl)
    (by simp (disch := first | decide | exact BitVec.isLt _ | exact FFmt.code_lt _) [decRaw, dec00, fld_pack_here, fld_pack_above, FFmt.ofCode_code])
theorem Laws.RoundTrip.fmax (f : FFmt) (d a b : SReg) : Statement (.fmax f d a b) :=
  of_fields rfl (by simp [fieldsFit]; exact ⟨FFmt.code_lt f, b.isLt, a.isLt, d.isLt⟩) (.inl rfl)
    (by simp (disch := first | decide | exact BitVec.isLt _ | exact FFmt.code_lt _) [decRaw, dec00, fld_pack_here, fld_pack_above, FFmt.ofCode_code])
theorem Laws.RoundTrip.fminn (f : FFmt) (d a b : SReg) : Statement (.fminn f d a b) :=
  of_fields rfl (by simp [fieldsFit]; exact ⟨FFmt.code_lt f, b.isLt, a.isLt, d.isLt⟩) (.inl rfl)
    (by simp (disch := first | decide | exact BitVec.isLt _ | exact FFmt.code_lt _) [decRaw, dec00, fld_pack_here, fld_pack_above, FFmt.ofCode_code])
theorem Laws.RoundTrip.fmaxn (f : FFmt) (d a b : SReg) : Statement (.fmaxn f d a b) :=
  of_fields rfl (by simp [fieldsFit]; exact ⟨FFmt.code_lt f, b.isLt, a.isLt, d.isLt⟩) (.inl rfl)
    (by simp (disch := first | decide | exact BitVec.isLt _ | exact FFmt.code_lt _) [decRaw, dec00, fld_pack_here, fld_pack_above, FFmt.ofCode_code])
theorem Laws.RoundTrip.bool3 (d a b : SReg) (tab : BitVec 8) : Statement (.bool3 d a b tab) :=
  of_fields rfl (by simp [fieldsFit]; exact ⟨tab.isLt, b.isLt, a.isLt, d.isLt⟩) (.inl rfl)
    (by simp (disch := first | decide | exact BitVec.isLt _) [decRaw, dec01, fld_pack_here, fld_pack_above])
theorem Laws.RoundTrip.fshlImm (d a b : SReg) (sh : BitVec 6) : Statement (.fshlImm d a b sh) :=
  of_fields rfl (by simp [fieldsFit]; exact ⟨sh.isLt, b.isLt, a.isLt, d.isLt⟩) (.inl rfl)
    (by simp (disch := first | decide | exact BitVec.isLt _) [decRaw, dec02, fld_pack_here, fld_pack_above])
theorem Laws.RoundTrip.fshrImm (d a b : SReg) (sh : BitVec 6) : Statement (.fshrImm d a b sh) :=
  of_fields rfl (by simp [fieldsFit]; exact ⟨sh.isLt, b.isLt, a.isLt, d.isLt⟩) (.inl rfl)
    (by simp (disch := first | decide | exact BitVec.isLt _) [decRaw, dec02, fld_pack_here, fld_pack_above])
theorem Laws.RoundTrip.fshlReg (d a b c : SReg) : Statement (.fshlReg d a b c) :=
  of_fields rfl (by simp [fieldsFit]; exact ⟨c.isLt, b.isLt, a.isLt, d.isLt⟩) (.inl rfl)
    (by simp (disch := first | decide | exact BitVec.isLt _) [decRaw, dec02, fld_pack_here, fld_pack_above])
theorem Laws.RoundTrip.fshrReg (d a b c : SReg) : Statement (.fshrReg d a b c) :=
  of_fields rfl (by simp [fieldsFit]; exact ⟨c.isLt, b.isLt, a.isLt, d.isLt⟩) (.inl rfl)
    (by simp (disch := first | decide | exact BitVec.isLt _) [decRaw, dec02, fld_pack_here, fld_pack_above])
theorem Laws.RoundTrip.ext (d a : SReg) (pos len1 : BitVec 6) : Statement (.ext d a pos len1) :=
  of_fields rfl (by simp [fieldsFit]; exact ⟨len1.isLt, pos.isLt, a.isLt, d.isLt⟩) (.inl rfl)
    (by simp (disch := first | decide | exact BitVec.isLt _) [decRaw, dec03, fld_pack_here, fld_pack_above])
theorem Laws.RoundTrip.extn (d a : SReg) (pos len1 : BitVec 6) : Statement (.extn d a pos len1) :=
  of_fields rfl (by simp [fieldsFit]; exact ⟨len1.isLt, pos.isLt, a.isLt, d.isLt⟩) (.inl rfl)
    (by simp (disch := first | decide | exact BitVec.isLt _) [decRaw, dec03, fld_pack_here, fld_pack_above])
theorem Laws.RoundTrip.ins (d a : SReg) (pos len1 : BitVec 6) : Statement (.ins d a pos len1) :=
  of_fields rfl (by simp [fieldsFit]; exact ⟨len1.isLt, pos.isLt, a.isLt, d.isLt⟩) (.inl rfl)
    (by simp (disch := first | decide | exact BitVec.isLt _) [decRaw, dec03, fld_pack_here, fld_pack_above])
theorem Laws.RoundTrip.addi (d a : SReg) (imm : BitVec 16) : Statement (.addi d a imm) :=
  of_fields rfl (by simp [fieldsFit]; exact ⟨imm.isLt, a.isLt, d.isLt⟩) (.inl rfl)
    (by simp (disch := first | decide | exact BitVec.isLt _) [decRaw, dec04, fld_pack_here, fld_pack_above])
theorem Laws.RoundTrip.andi (d a : SReg) (imm : BitVec 16) : Statement (.andi d a imm) :=
  of_fields rfl (by simp [fieldsFit]; exact ⟨imm.isLt, a.isLt, d.isLt⟩) (.inl rfl)
    (by simp (disch := first | decide | exact BitVec.isLt _) [decRaw, dec05, fld_pack_here, fld_pack_above])
theorem Laws.RoundTrip.ori (d a : SReg) (imm : BitVec 16) : Statement (.ori d a imm) :=
  of_fields rfl (by simp [fieldsFit]; exact ⟨imm.isLt, a.isLt, d.isLt⟩) (.inl rfl)
    (by simp (disch := first | decide | exact BitVec.isLt _) [decRaw, dec06, fld_pack_here, fld_pack_above])
theorem Laws.RoundTrip.xori (d a : SReg) (imm : BitVec 16) : Statement (.xori d a imm) :=
  of_fields rfl (by simp [fieldsFit]; exact ⟨imm.isLt, a.isLt, d.isLt⟩) (.inl rfl)
    (by simp (disch := first | decide | exact BitVec.isLt _) [decRaw, dec07, fld_pack_here, fld_pack_above])
theorem Laws.RoundTrip.slli (d a : SReg) (sh : BitVec 6) : Statement (.slli d a sh) :=
  of_fields rfl (by simp [fieldsFit]; exact ⟨sh.isLt, a.isLt, d.isLt⟩) (.inl rfl)
    (by simp (disch := first | decide | exact BitVec.isLt _) [decRaw, dec08, fld_pack_here, fld_pack_above])
theorem Laws.RoundTrip.srli (d a : SReg) (sh : BitVec 6) : Statement (.srli d a sh) :=
  of_fields rfl (by simp [fieldsFit]; exact ⟨sh.isLt, a.isLt, d.isLt⟩) (.inl rfl)
    (by simp (disch := first | decide | exact BitVec.isLt _) [decRaw, dec08, fld_pack_here, fld_pack_above])
theorem Laws.RoundTrip.srai (d a : SReg) (sh : BitVec 6) : Statement (.srai d a sh) :=
  of_fields rfl (by simp [fieldsFit]; exact ⟨sh.isLt, a.isLt, d.isLt⟩) (.inl rfl)
    (by simp (disch := first | decide | exact BitVec.isLt _) [decRaw, dec08, fld_pack_here, fld_pack_above])
theorem Laws.RoundTrip.rori (d a : SReg) (sh : BitVec 6) : Statement (.rori d a sh) :=
  of_fields rfl (by simp [fieldsFit]; exact ⟨sh.isLt, a.isLt, d.isLt⟩) (.inl rfl)
    (by simp (disch := first | decide | exact BitVec.isLt _) [decRaw, dec08, fld_pack_here, fld_pack_above])
theorem Laws.RoundTrip.lui (d : SReg) (imm : BitVec 21) : Statement (.lui d imm) :=
  of_fields rfl (by simp [fieldsFit]; exact ⟨imm.isLt, d.isLt⟩) (.inl rfl)
    (by simp (disch := first | decide | exact BitVec.isLt _) [decRaw, dec09, fld_pack_here, fld_pack_above])
theorem Laws.RoundTrip.li (d : SReg) (imm : BitVec 48) : Statement (.li d imm) := by
  have h1 : imm.toNat % 65536 < 2 ^ 16 := Nat.mod_lt _ (by decide)
  have h2 : imm.toNat / 65536 < 2 ^ 32 := by have := imm.isLt; omega
  have h3 : imm.toNat / 65536 * 65536 + imm.toNat % 65536 = imm.toNat := by omega
  exact of_fields rfl (by simp [fieldsFit]; exact ⟨h1, d.isLt, h2⟩)
    (.inr ⟨rfl, by simp (disch := first | assumption | decide | exact BitVec.isLt _) only [fld_pack_here, fld_pack_above, Nat.reduceSub]⟩)
    (by simp (disch := first | assumption | decide | exact BitVec.isLt _) only [decRaw, dec3F, fld_pack_here, fld_pack_above, Nat.reduceSub, h3, bitVec_ofNat_toNat])
theorem Laws.RoundTrip.cmp (qd : QReg) (cond : Cond) (a b : SReg) : Statement (.cmp qd cond a b) :=
  of_fields rfl (by simp [fieldsFit]; exact ⟨b.isLt, a.isLt, Cond.code_lt cond, qd.isLt⟩) (.inl rfl)
    (by simp (disch := first | decide | exact BitVec.isLt _ | exact Cond.code_lt _) [decRaw, dec0A, fld_pack_here, fld_pack_above, Cond.ofCode_code])
theorem Laws.RoundTrip.cmpi (qd : QReg) (cond : Cond) (a : SReg) (imm : BitVec 14) : Statement (.cmpi qd cond a imm) :=
  of_fields rfl (by simp [fieldsFit]; exact ⟨imm.isLt, a.isLt, Cond.code_lt cond, qd.isLt⟩) (.inl rfl)
    (by simp (disch := first | decide | exact BitVec.isLt _ | exact Cond.code_lt _) [decRaw, dec0B, fld_pack_here, fld_pack_above, Cond.ofCode_code])
theorem Laws.RoundTrip.sel (d : SReg) (q : QReg) (a b : SReg) : Statement (.sel d q a b) :=
  of_fields rfl (by simp [fieldsFit]; exact ⟨q.isLt, b.isLt, a.isLt, d.isLt⟩) (.inl rfl)
    (by simp (disch := first | decide | exact BitVec.isLt _) [decRaw, dec0C, fld_pack_here, fld_pack_above])
theorem Laws.RoundTrip.lea (d a b : SReg) (sh : BitVec 3) : Statement (.lea d a b sh) :=
  of_fields rfl (by simp [fieldsFit]; exact ⟨sh.isLt, b.isLt, a.isLt, d.isLt⟩) (.inl rfl)
    (by simp (disch := first | decide | exact BitVec.isLt _) [decRaw, dec0D, fld_pack_here, fld_pack_above])
theorem Laws.RoundTrip.ldn (sz : MSize) (x : Bool) (d a : SReg) (off : BitVec 12) : Statement (.ldn sz x d a off) :=
  of_fields rfl (by simp [fieldsFit]; exact ⟨off.isLt, (by have := boolToNat_lt x; omega), MSize.code_lt sz, a.isLt, d.isLt⟩) (.inl rfl)
    (by simp (disch := first | decide | exact BitVec.isLt _ | exact boolToNat_lt _ | exact MSize.code_lt _) [decRaw, dec10, fld_pack_here, fld_pack_above, MSize.ofCode_code])
theorem Laws.RoundTrip.stn (sz : MSize) (d a : SReg) (off : BitVec 12) : Statement (.stn sz d a off) :=
  of_fields rfl (by simp [fieldsFit]; exact ⟨off.isLt, MSize.code_lt sz, a.isLt, d.isLt⟩) (.inl rfl)
    (by simp (disch := first | decide | exact BitVec.isLt _ | exact MSize.code_lt _) [decRaw, dec11, fld_pack_here, fld_pack_above, MSize.ofCode_code])
theorem Laws.RoundTrip.ldf (sz : MSize) (x : Bool) (d a : SReg) (off : BitVec 12) : Statement (.ldf sz x d a off) :=
  of_fields rfl (by simp [fieldsFit]; exact ⟨off.isLt, (by have := boolToNat_lt x; omega), MSize.code_lt sz, a.isLt, d.isLt⟩) (.inl rfl)
    (by simp (disch := first | decide | exact BitVec.isLt _ | exact boolToNat_lt _ | exact MSize.code_lt _) [decRaw, dec12, fld_pack_here, fld_pack_above, MSize.ofCode_code])
theorem Laws.RoundTrip.stf (sz : MSize) (d a : SReg) (off : BitVec 12) : Statement (.stf sz d a off) :=
  of_fields rfl (by simp [fieldsFit]; exact ⟨off.isLt, MSize.code_lt sz, a.isLt, d.isLt⟩) (.inl rfl)
    (by simp (disch := first | decide | exact BitVec.isLt _ | exact MSize.code_lt _) [decRaw, dec13, fld_pack_here, fld_pack_above, MSize.ofCode_code])
theorem Laws.RoundTrip.amoFetch (op : AmoOp) (dbl : Bool) (d a b : SReg) : Statement (.amoFetch op dbl d a b) :=
  of_fields rfl (by simp [fieldsFit]; exact ⟨(by have := boolToNat_lt dbl; omega), AmoOp.code_lt op, b.isLt, a.isLt, d.isLt⟩) (.inl rfl)
    (by simp (disch := first | decide | exact BitVec.isLt _ | exact boolToNat_lt _ | exact AmoOp.code_lt _) [decRaw, dec14, fld_pack_here, fld_pack_above, AmoOp.ofCode_code])
theorem Laws.RoundTrip.amoPost (op : AmoOp) (dbl : Bool) (a b : SReg) : Statement (.amoPost op dbl a b) :=
  of_fields rfl (by simp [fieldsFit]; exact ⟨(by have := boolToNat_lt dbl; omega), AmoOp.code_lt op, b.isLt, a.isLt⟩) (.inl rfl)
    (by simp (disch := first | decide | exact BitVec.isLt _ | exact boolToNat_lt _ | exact AmoOp.code_lt _) [decRaw, dec14, fld_pack_here, fld_pack_above, AmoOp.ofCode_code])
theorem Laws.RoundTrip.cas (dbl : Bool) (d a b : SReg) : Statement (.cas dbl d a b) :=
  of_fields rfl (by simp [fieldsFit]; exact ⟨(by have := boolToNat_lt dbl; omega), b.isLt, a.isLt, d.isLt⟩) (.inl rfl)
    (by simp (disch := first | decide | exact BitVec.isLt _ | exact boolToNat_lt _) [decRaw, dec15, fld_pack_here, fld_pack_above])
theorem Laws.RoundTrip.stnb (d a : SReg) (n1 : BitVec 4) (h : Bool) (off : BitVec 11) : Statement (.stnb d a n1 h off) :=
  of_fields rfl (by simp [fieldsFit]; exact ⟨off.isLt, (by have := boolToNat_lt h; omega), n1.isLt, a.isLt, d.isLt⟩) (.inl rfl)
    (by simp (disch := first | decide | exact BitVec.isLt _ | exact boolToNat_lt _) [decRaw, dec16, fld_pack_here, fld_pack_above])
theorem Laws.RoundTrip.vldn (vd : VReg) (a : SReg) (qp : QReg) (off : BitVec 12) : Statement (.vldn vd a qp off) :=
  of_fields rfl (by simp [fieldsFit]; exact ⟨off.isLt, qp.isLt, a.isLt, vd.isLt⟩) (.inl rfl)
    (by simp (disch := first | decide | exact BitVec.isLt _) [decRaw, dec18, fld_pack_here, fld_pack_above])
theorem Laws.RoundTrip.vstn (vd : VReg) (a : SReg) (qp : QReg) (off : BitVec 12) : Statement (.vstn vd a qp off) :=
  of_fields rfl (by simp [fieldsFit]; exact ⟨off.isLt, qp.isLt, a.isLt, vd.isLt⟩) (.inl rfl)
    (by simp (disch := first | decide | exact BitVec.isLt _) [decRaw, dec18, fld_pack_here, fld_pack_above])
theorem Laws.RoundTrip.vgthn (vd : VReg) (a : SReg) (qp : QReg) (vi : VReg) (sc : BitVec 2) : Statement (.vgthn vd a qp vi sc) :=
  of_fields rfl (by simp [fieldsFit]; exact ⟨sc.isLt, vi.isLt, qp.isLt, a.isLt, vd.isLt⟩) (.inl rfl)
    (by simp (disch := first | decide | exact BitVec.isLt _) [decRaw, dec19, fld_pack_here, fld_pack_above])
theorem Laws.RoundTrip.vsctn (vd : VReg) (a : SReg) (qp : QReg) (vi : VReg) (sc : BitVec 2) : Statement (.vsctn vd a qp vi sc) :=
  of_fields rfl (by simp [fieldsFit]; exact ⟨sc.isLt, vi.isLt, qp.isLt, a.isLt, vd.isLt⟩) (.inl rfl)
    (by simp (disch := first | decide | exact BitVec.isLt _) [decRaw, dec19, fld_pack_here, fld_pack_above])
theorem Laws.RoundTrip.vldf (vd : VReg) (a : SReg) (qp : QReg) (off : BitVec 12) : Statement (.vldf vd a qp off) :=
  of_fields rfl (by simp [fieldsFit]; exact ⟨off.isLt, qp.isLt, a.isLt, vd.isLt⟩) (.inl rfl)
    (by simp (disch := first | decide | exact BitVec.isLt _) [decRaw, dec1A, fld_pack_here, fld_pack_above])
theorem Laws.RoundTrip.vstf (vd : VReg) (a : SReg) (qp : QReg) (off : BitVec 12) : Statement (.vstf vd a qp off) :=
  of_fields rfl (by simp [fieldsFit]; exact ⟨off.isLt, qp.isLt, a.isLt, vd.isLt⟩) (.inl rfl)
    (by simp (disch := first | decide | exact BitVec.isLt _) [decRaw, dec1B, fld_pack_here, fld_pack_above])
theorem Laws.RoundTrip.br (q : QReg) (qn : Quant) (off : BitVec 21) : Statement (.br q qn off) :=
  of_fields rfl (by simp [fieldsFit]; exact ⟨off.isLt, Quant.code_lt qn, q.isLt⟩) (.inl rfl)
    (by simp (disch := first | decide | exact BitVec.isLt _ | exact Quant.code_lt _) [decRaw, dec20, fld_pack_here, fld_pack_above, Quant.ofCode_code])
theorem Laws.RoundTrip.j (off : BitVec 26) : Statement (.j off) :=
  of_fields rfl (by simp [fieldsFit]; exact off.isLt) (.inl rfl)
    (by simp (disch := first | decide | exact BitVec.isLt _) [decRaw, dec21, fld_pack_here, fld_pack_above])
theorem Laws.RoundTrip.jal (off : BitVec 26) : Statement (.jal off) :=
  of_fields rfl (by simp [fieldsFit]; exact off.isLt) (.inl rfl)
    (by simp (disch := first | decide | exact BitVec.isLt _) [decRaw, dec22, fld_pack_here, fld_pack_above])
theorem Laws.RoundTrip.jalr (d a : SReg) (imm : BitVec 16) : Statement (.jalr d a imm) :=
  of_fields rfl (by simp [fieldsFit]; exact ⟨imm.isLt, a.isLt, d.isLt⟩) (.inl rfl)
    (by simp (disch := first | decide | exact BitVec.isLt _) [decRaw, dec23, fld_pack_here, fld_pack_above])
theorem Laws.RoundTrip.btag (off : BitVec 21) : Statement (.btag off) :=
  of_fields rfl (by simp [fieldsFit]; exact off.isLt) (.inl rfl)
    (by simp (disch := first | decide | exact BitVec.isLt _) [decRaw, dec24, fld_pack_here, fld_pack_above])
theorem Laws.RoundTrip.loopReg (n : BitVec 5) (a : SReg) : Statement (.loopReg n a) :=
  of_fields rfl (by simp [fieldsFit]; exact ⟨a.isLt, n.isLt⟩) (.inl rfl)
    (by simp (disch := first | decide | exact BitVec.isLt _) [decRaw, dec25, fld_pack_here, fld_pack_above])
theorem Laws.RoundTrip.loopImm (n : BitVec 5) (cnt : BitVec 20) : Statement (.loopImm n cnt) :=
  of_fields rfl (by simp [fieldsFit]; exact ⟨cnt.isLt, n.isLt⟩) (.inl rfl)
    (by simp (disch := first | decide | exact BitVec.isLt _) [decRaw, dec25, fld_pack_here, fld_pack_above])
theorem Laws.RoundTrip.ret : Statement .ret :=
  of_fields rfl (by simp [fieldsFit]) (.inl rfl)
    (by simp (disch := decide) [decRaw, dec26, fld_pack_here, fld_pack_above])
theorem Laws.RoundTrip.nop : Statement .nop :=
  of_fields rfl (by simp [fieldsFit]) (.inl rfl)
    (by simp (disch := decide) [decRaw, dec27, fld_pack_here, fld_pack_above])
theorem Laws.RoundTrip.trap (imm : BitVec 16) : Statement (.trap imm) :=
  of_fields rfl (by simp [fieldsFit]; exact imm.isLt) (.inl rfl)
    (by simp (disch := first | decide | exact BitVec.isLt _) [decRaw, dec27, fld_pack_here, fld_pack_above])
theorem Laws.RoundTrip.eret : Statement .eret :=
  of_fields rfl (by simp [fieldsFit]) (.inl rfl)
    (by simp (disch := decide) [decRaw, dec27, fld_pack_here, fld_pack_above])
theorem Laws.RoundTrip.yield : Statement .yield :=
  of_fields rfl (by simp [fieldsFit]) (.inl rfl)
    (by simp (disch := decide) [decRaw, dec27, fld_pack_here, fld_pack_above])
theorem Laws.RoundTrip.commit : Statement .commit :=
  of_fields rfl (by simp [fieldsFit]) (.inl rfl)
    (by simp (disch := decide) [decRaw, dec27, fld_pack_here, fld_pack_above])
theorem Laws.RoundTrip.fence (scope : Scope) : Statement (.fence scope) :=
  of_fields rfl (by simp [fieldsFit]; exact Scope.code_lt scope) (.inl rfl)
    (by simp (disch := first | decide | exact Scope.code_lt _) [decRaw, dec27, fld_pack_here, fld_pack_above, Scope.ofCode_code])
theorem Laws.RoundTrip.brk (imm : BitVec 16) : Statement (.brk imm) :=
  of_fields rfl (by simp [fieldsFit]; exact imm.isLt) (.inl rfl)
    (by simp (disch := first | decide | exact BitVec.isLt _) [decRaw, dec27, fld_pack_here, fld_pack_above])
theorem Laws.RoundTrip.wait (a : SReg) : Statement (.wait a) :=
  of_fields rfl (by simp [fieldsFit]; exact a.isLt) (.inl rfl)
    (by simp (disch := first | decide | exact BitVec.isLt _) [decRaw, dec27, fld_pack_here, fld_pack_above])
theorem Laws.RoundTrip.send (cls : Cls) (a : SReg) (lab : Label) (tag : BitVec 4) : Statement (.send cls a lab tag) :=
  of_fields rfl (by simp [fieldsFit]; exact ⟨tag.isLt, lab.isLt, a.isLt, Cls.code_lt cls⟩) (.inl rfl)
    (by simp (disch := first | decide | exact BitVec.isLt _ | exact Cls.code_lt _) [decRaw, dec28, fld_pack_here, fld_pack_above, Cls.ofCode_code])
theorem Laws.RoundTrip.sendR (cls : Cls) (a : SReg) (lab : Label) (tag : BitVec 4) : Statement (.sendR cls a lab tag) :=
  of_fields rfl (by simp [fieldsFit]; exact ⟨tag.isLt, lab.isLt, a.isLt, Cls.code_lt cls⟩) (.inl rfl)
    (by simp (disch := first | decide | exact BitVec.isLt _ | exact Cls.code_lt _) [decRaw, dec28, fld_pack_here, fld_pack_above, Cls.ofCode_code])
theorem Laws.RoundTrip.sendv (cls : Cls) (a : SReg) (lab : Label) (tag : BitVec 4) (vb : VReg) : Statement (.sendv cls a lab tag vb) :=
  of_fields rfl (by simp [fieldsFit]; exact ⟨vb.isLt, tag.isLt, lab.isLt, a.isLt, Cls.code_lt cls⟩) (.inl rfl)
    (by simp (disch := first | decide | exact BitVec.isLt _ | exact Cls.code_lt _) [decRaw, dec28, fld_pack_here, fld_pack_above, Cls.ofCode_code])
theorem Laws.RoundTrip.mcast (cls : Cls) (a : SReg) (lab : Label) (tag : BitVec 4) : Statement (.mcast cls a lab tag) :=
  of_fields rfl (by simp [fieldsFit]; exact ⟨tag.isLt, lab.isLt, a.isLt, Cls.code_lt cls⟩) (.inl rfl)
    (by simp (disch := first | decide | exact BitVec.isLt _ | exact Cls.code_lt _) [decRaw, dec28, fld_pack_here, fld_pack_above, Cls.ofCode_code])
theorem Laws.RoundTrip.get (cls : Cls) (a : SReg) (lab : Label) (t : BitVec 4) (b : SReg) : Statement (.get cls a lab t b) :=
  of_fields rfl (by simp [fieldsFit]; exact ⟨b.isLt, t.isLt, lab.isLt, a.isLt, Cls.code_lt cls⟩) (.inl rfl)
    (by simp (disch := first | decide | exact BitVec.isLt _ | exact Cls.code_lt _) [decRaw, dec28, fld_pack_here, fld_pack_above, Cls.ofCode_code])
theorem Laws.RoundTrip.put (a : SReg) (t : BitVec 4) (b : SReg) : Statement (.put a t b) :=
  of_fields rfl (by simp [fieldsFit]; exact ⟨b.isLt, t.isLt, a.isLt⟩) (.inl rfl)
    (by simp (disch := first | decide | exact BitVec.isLt _) [decRaw, dec28, fld_pack_here, fld_pack_above])
theorem Laws.RoundTrip.recv (lab : Label) : Statement (.recv lab) :=
  of_fields rfl (by simp [fieldsFit]; exact lab.isLt) (.inl rfl)
    (by simp (disch := first | decide | exact BitVec.isLt _) [decRaw, dec28, fld_pack_here, fld_pack_above])
theorem Laws.RoundTrip.arm (lab : Label) : Statement (.arm lab) :=
  of_fields rfl (by simp [fieldsFit]; exact lab.isLt) (.inl rfl)
    (by simp (disch := first | decide | exact BitVec.isLt _) [decRaw, dec29, fld_pack_here, fld_pack_above])
theorem Laws.RoundTrip.disarm (lab : Label) : Statement (.disarm lab) :=
  of_fields rfl (by simp [fieldsFit]; exact lab.isLt) (.inl rfl)
    (by simp (disch := first | decide | exact BitVec.isLt _) [decRaw, dec29, fld_pack_here, fld_pack_above])
theorem Laws.RoundTrip.tcnt (d : SReg) (lab : Label) : Statement (.tcnt d lab) :=
  of_fields rfl (by simp [fieldsFit]; exact ⟨lab.isLt, d.isLt⟩) (.inl rfl)
    (by simp (disch := first | decide | exact BitVec.isLt _) [decRaw, dec29, fld_pack_here, fld_pack_above])
theorem Laws.RoundTrip.setf (mask : Byte) : Statement (.setf mask) :=
  of_fields rfl (by simp [fieldsFit]; exact mask.isLt) (.inl rfl)
    (by simp (disch := first | decide | exact BitVec.isLt _) [decRaw, dec29, fld_pack_here, fld_pack_above])
theorem Laws.RoundTrip.clrf (mask : Byte) : Statement (.clrf mask) :=
  of_fields rfl (by simp [fieldsFit]; exact mask.isLt) (.inl rfl)
    (by simp (disch := first | decide | exact BitVec.isLt _) [decRaw, dec29, fld_pack_here, fld_pack_above])
theorem Laws.RoundTrip.tlaunch (a : SReg) : Statement (.tlaunch a) :=
  of_fields rfl (by simp [fieldsFit]; exact a.isLt) (.inl rfl)
    (by simp (disch := first | decide | exact BitVec.isLt _) [decRaw, dec29, fld_pack_here, fld_pack_above])
theorem Laws.RoundTrip.jdone : Statement .jdone :=
  of_fields rfl (by simp [fieldsFit]) (.inl rfl)
    (by simp (disch := decide) [decRaw, dec29, fld_pack_here, fld_pack_above])
theorem Laws.RoundTrip.bar (grp : BitVec 8) : Statement (.bar grp) :=
  of_fields rfl (by simp [fieldsFit]; exact grp.isLt) (.inl rfl)
    (by simp (disch := first | decide | exact BitVec.isLt _) [decRaw, dec2A, fld_pack_here, fld_pack_above])
theorem Laws.RoundTrip.arrive (grp : BitVec 8) : Statement (.arrive grp) :=
  of_fields rfl (by simp [fieldsFit]; exact grp.isLt) (.inl rfl)
    (by simp (disch := first | decide | exact BitVec.isLt _) [decRaw, dec2A, fld_pack_here, fld_pack_above])
theorem Laws.RoundTrip.csrr (d : SReg) (csr : Csr) : Statement (.csrr d csr) :=
  of_fields rfl (by simp [fieldsFit]; exact ⟨Csr.code_lt csr, d.isLt⟩) (.inl rfl)
    (by simp (disch := first | decide | exact BitVec.isLt _ | exact Csr.code_lt _) [decRaw, dec2B, fld_pack_here, fld_pack_above, Csr.ofCode_code])
theorem Laws.RoundTrip.csrw (d a : SReg) (csr : Csr) : Statement (.csrw d a csr) :=
  of_fields rfl (by simp [fieldsFit]; exact ⟨Csr.code_lt csr, a.isLt, d.isLt⟩) (.inl rfl)
    (by simp (disch := first | decide | exact BitVec.isLt _ | exact Csr.code_lt _) [decRaw, dec2B, fld_pack_here, fld_pack_above, Csr.ofCode_code])
theorem Laws.RoundTrip.csrs (d a : SReg) (csr : Csr) : Statement (.csrs d a csr) :=
  of_fields rfl (by simp [fieldsFit]; exact ⟨Csr.code_lt csr, a.isLt, d.isLt⟩) (.inl rfl)
    (by simp (disch := first | decide | exact BitVec.isLt _ | exact Csr.code_lt _) [decRaw, dec2B, fld_pack_here, fld_pack_above, Csr.ofCode_code])
theorem Laws.RoundTrip.csrc (d a : SReg) (csr : Csr) : Statement (.csrc d a csr) :=
  of_fields rfl (by simp [fieldsFit]; exact ⟨Csr.code_lt csr, a.isLt, d.isLt⟩) (.inl rfl)
    (by simp (disch := first | decide | exact BitVec.isLt _ | exact Csr.code_lt _) [decRaw, dec2B, fld_pack_here, fld_pack_above, Csr.ofCode_code])
theorem Laws.RoundTrip.vaddInt (ty : VTy) (vd va vb : VReg) (qp : QReg) : Statement (.vaddInt ty vd va vb qp) :=
  of_fields rfl (by simp [fieldsFit]; exact ⟨VTy.code_lt ty, qp.isLt, vb.isLt, va.isLt, vd.isLt⟩) (.inl rfl)
    (by simp (disch := first | decide | exact BitVec.isLt _ | exact VTy.code_lt _) [decRaw, dec30, fld_pack_here, fld_pack_above, VTy.ofCode_code])
theorem Laws.RoundTrip.vsubInt (ty : VTy) (vd va vb : VReg) (qp : QReg) : Statement (.vsubInt ty vd va vb qp) :=
  of_fields rfl (by simp [fieldsFit]; exact ⟨VTy.code_lt ty, qp.isLt, vb.isLt, va.isLt, vd.isLt⟩) (.inl rfl)
    (by simp (disch := first | decide | exact BitVec.isLt _ | exact VTy.code_lt _) [decRaw, dec30, fld_pack_here, fld_pack_above, VTy.ofCode_code])
theorem Laws.RoundTrip.vmulInt (ty : VTy) (vd va vb : VReg) (qp : QReg) : Statement (.vmulInt ty vd va vb qp) :=
  of_fields rfl (by simp [fieldsFit]; exact ⟨VTy.code_lt ty, qp.isLt, vb.isLt, va.isLt, vd.isLt⟩) (.inl rfl)
    (by simp (disch := first | decide | exact BitVec.isLt _ | exact VTy.code_lt _) [decRaw, dec30, fld_pack_here, fld_pack_above, VTy.ofCode_code])
theorem Laws.RoundTrip.vmulh (ty : VTy) (vd va vb : VReg) (qp : QReg) : Statement (.vmulh ty vd va vb qp) :=
  of_fields rfl (by simp [fieldsFit]; exact ⟨VTy.code_lt ty, qp.isLt, vb.isLt, va.isLt, vd.isLt⟩) (.inl rfl)
    (by simp (disch := first | decide | exact BitVec.isLt _ | exact VTy.code_lt _) [decRaw, dec30, fld_pack_here, fld_pack_above, VTy.ofCode_code])
theorem Laws.RoundTrip.vadds (ty : VTy) (vd va vb : VReg) (qp : QReg) : Statement (.vadds ty vd va vb qp) :=
  of_fields rfl (by simp [fieldsFit]; exact ⟨VTy.code_lt ty, qp.isLt, vb.isLt, va.isLt, vd.isLt⟩) (.inl rfl)
    (by simp (disch := first | decide | exact BitVec.isLt _ | exact VTy.code_lt _) [decRaw, dec30, fld_pack_here, fld_pack_above, VTy.ofCode_code])
theorem Laws.RoundTrip.vsubs (ty : VTy) (vd va vb : VReg) (qp : QReg) : Statement (.vsubs ty vd va vb qp) :=
  of_fields rfl (by simp [fieldsFit]; exact ⟨VTy.code_lt ty, qp.isLt, vb.isLt, va.isLt, vd.isLt⟩) (.inl rfl)
    (by simp (disch := first | decide | exact BitVec.isLt _ | exact VTy.code_lt _) [decRaw, dec30, fld_pack_here, fld_pack_above, VTy.ofCode_code])
theorem Laws.RoundTrip.vminInt (ty : VTy) (vd va vb : VReg) (qp : QReg) : Statement (.vminInt ty vd va vb qp) :=
  of_fields rfl (by simp [fieldsFit]; exact ⟨VTy.code_lt ty, qp.isLt, vb.isLt, va.isLt, vd.isLt⟩) (.inl rfl)
    (by simp (disch := first | decide | exact BitVec.isLt _ | exact VTy.code_lt _) [decRaw, dec30, fld_pack_here, fld_pack_above, VTy.ofCode_code])
theorem Laws.RoundTrip.vmaxInt (ty : VTy) (vd va vb : VReg) (qp : QReg) : Statement (.vmaxInt ty vd va vb qp) :=
  of_fields rfl (by simp [fieldsFit]; exact ⟨VTy.code_lt ty, qp.isLt, vb.isLt, va.isLt, vd.isLt⟩) (.inl rfl)
    (by simp (disch := first | decide | exact BitVec.isLt _ | exact VTy.code_lt _) [decRaw, dec30, fld_pack_here, fld_pack_above, VTy.ofCode_code])
theorem Laws.RoundTrip.vand (ty : VTy) (vd va vb : VReg) (qp : QReg) : Statement (.vand ty vd va vb qp) :=
  of_fields rfl (by simp [fieldsFit]; exact ⟨VTy.code_lt ty, qp.isLt, vb.isLt, va.isLt, vd.isLt⟩) (.inl rfl)
    (by simp (disch := first | decide | exact BitVec.isLt _ | exact VTy.code_lt _) [decRaw, dec30, fld_pack_here, fld_pack_above, VTy.ofCode_code])
theorem Laws.RoundTrip.vor (ty : VTy) (vd va vb : VReg) (qp : QReg) : Statement (.vor ty vd va vb qp) :=
  of_fields rfl (by simp [fieldsFit]; exact ⟨VTy.code_lt ty, qp.isLt, vb.isLt, va.isLt, vd.isLt⟩) (.inl rfl)
    (by simp (disch := first | decide | exact BitVec.isLt _ | exact VTy.code_lt _) [decRaw, dec30, fld_pack_here, fld_pack_above, VTy.ofCode_code])
theorem Laws.RoundTrip.vxor (ty : VTy) (vd va vb : VReg) (qp : QReg) : Statement (.vxor ty vd va vb qp) :=
  of_fields rfl (by simp [fieldsFit]; exact ⟨VTy.code_lt ty, qp.isLt, vb.isLt, va.isLt, vd.isLt⟩) (.inl rfl)
    (by simp (disch := first | decide | exact BitVec.isLt _ | exact VTy.code_lt _) [decRaw, dec30, fld_pack_here, fld_pack_above, VTy.ofCode_code])
theorem Laws.RoundTrip.vabsInt (ty : VTy) (vd va : VReg) (qp : QReg) : Statement (.vabsInt ty vd va qp) :=
  of_fields rfl (by simp [fieldsFit]; exact ⟨VTy.code_lt ty, qp.isLt, va.isLt, vd.isLt⟩) (.inl rfl)
    (by simp (disch := first | decide | exact BitVec.isLt _ | exact VTy.code_lt _) [decRaw, dec30, fld_pack_here, fld_pack_above, VTy.ofCode_code])
theorem Laws.RoundTrip.vnegInt (ty : VTy) (vd va : VReg) (qp : QReg) : Statement (.vnegInt ty vd va qp) :=
  of_fields rfl (by simp [fieldsFit]; exact ⟨VTy.code_lt ty, qp.isLt, va.isLt, vd.isLt⟩) (.inl rfl)
    (by simp (disch := first | decide | exact BitVec.isLt _ | exact VTy.code_lt _) [decRaw, dec30, fld_pack_here, fld_pack_above, VTy.ofCode_code])
theorem Laws.RoundTrip.vaddFp (f : FFmt) (rm : Rm) (vd va vb : VReg) (qp : QReg) : Statement (.vaddFp f rm vd va vb qp) :=
  of_fields rfl (by simp [fieldsFit]; exact ⟨Rm.code_lt rm, FTy.code_lt f, qp.isLt, vb.isLt, va.isLt, vd.isLt⟩) (.inl rfl)
    (by simp (disch := first | decide | exact BitVec.isLt _ | exact FTy.code_lt _ | exact Rm.code_lt _) [decRaw, dec31, fld_pack_here, fld_pack_above, FTy.ofCode_code, Rm.ofCode_code])
theorem Laws.RoundTrip.vsubFp (f : FFmt) (rm : Rm) (vd va vb : VReg) (qp : QReg) : Statement (.vsubFp f rm vd va vb qp) :=
  of_fields rfl (by simp [fieldsFit]; exact ⟨Rm.code_lt rm, FTy.code_lt f, qp.isLt, vb.isLt, va.isLt, vd.isLt⟩) (.inl rfl)
    (by simp (disch := first | decide | exact BitVec.isLt _ | exact FTy.code_lt _ | exact Rm.code_lt _) [decRaw, dec31, fld_pack_here, fld_pack_above, FTy.ofCode_code, Rm.ofCode_code])
theorem Laws.RoundTrip.vmulFp (f : FFmt) (rm : Rm) (vd va vb : VReg) (qp : QReg) : Statement (.vmulFp f rm vd va vb qp) :=
  of_fields rfl (by simp [fieldsFit]; exact ⟨Rm.code_lt rm, FTy.code_lt f, qp.isLt, vb.isLt, va.isLt, vd.isLt⟩) (.inl rfl)
    (by simp (disch := first | decide | exact BitVec.isLt _ | exact FTy.code_lt _ | exact Rm.code_lt _) [decRaw, dec31, fld_pack_here, fld_pack_above, FTy.ofCode_code, Rm.ofCode_code])
theorem Laws.RoundTrip.vfma (f : FFmt) (rm : Rm) (vd va vb : VReg) (qp : QReg) : Statement (.vfma f rm vd va vb qp) :=
  of_fields rfl (by simp [fieldsFit]; exact ⟨Rm.code_lt rm, FTy.code_lt f, qp.isLt, vb.isLt, va.isLt, vd.isLt⟩) (.inl rfl)
    (by simp (disch := first | decide | exact BitVec.isLt _ | exact FTy.code_lt _ | exact Rm.code_lt _) [decRaw, dec31, fld_pack_here, fld_pack_above, FTy.ofCode_code, Rm.ofCode_code])
theorem Laws.RoundTrip.vfms (f : FFmt) (rm : Rm) (vd va vb : VReg) (qp : QReg) : Statement (.vfms f rm vd va vb qp) :=
  of_fields rfl (by simp [fieldsFit]; exact ⟨Rm.code_lt rm, FTy.code_lt f, qp.isLt, vb.isLt, va.isLt, vd.isLt⟩) (.inl rfl)
    (by simp (disch := first | decide | exact BitVec.isLt _ | exact FTy.code_lt _ | exact Rm.code_lt _) [decRaw, dec31, fld_pack_here, fld_pack_above, FTy.ofCode_code, Rm.ofCode_code])
theorem Laws.RoundTrip.vfnma (f : FFmt) (rm : Rm) (vd va vb : VReg) (qp : QReg) : Statement (.vfnma f rm vd va vb qp) :=
  of_fields rfl (by simp [fieldsFit]; exact ⟨Rm.code_lt rm, FTy.code_lt f, qp.isLt, vb.isLt, va.isLt, vd.isLt⟩) (.inl rfl)
    (by simp (disch := first | decide | exact BitVec.isLt _ | exact FTy.code_lt _ | exact Rm.code_lt _) [decRaw, dec31, fld_pack_here, fld_pack_above, FTy.ofCode_code, Rm.ofCode_code])
theorem Laws.RoundTrip.vminFp (f : FFmt) (vd va vb : VReg) (qp : QReg) : Statement (.vminFp f vd va vb qp) :=
  of_fields rfl (by simp [fieldsFit]; exact ⟨FTy.code_lt f, qp.isLt, vb.isLt, va.isLt, vd.isLt⟩) (.inl rfl)
    (by simp (disch := first | decide | exact BitVec.isLt _ | exact FTy.code_lt _) [decRaw, dec31, fld_pack_here, fld_pack_above, FTy.ofCode_code])
theorem Laws.RoundTrip.vmaxFp (f : FFmt) (vd va vb : VReg) (qp : QReg) : Statement (.vmaxFp f vd va vb qp) :=
  of_fields rfl (by simp [fieldsFit]; exact ⟨FTy.code_lt f, qp.isLt, vb.isLt, va.isLt, vd.isLt⟩) (.inl rfl)
    (by simp (disch := first | decide | exact BitVec.isLt _ | exact FTy.code_lt _) [decRaw, dec31, fld_pack_here, fld_pack_above, FTy.ofCode_code])
theorem Laws.RoundTrip.vminn (f : FFmt) (vd va vb : VReg) (qp : QReg) : Statement (.vminn f vd va vb qp) :=
  of_fields rfl (by simp [fieldsFit]; exact ⟨FTy.code_lt f, qp.isLt, vb.isLt, va.isLt, vd.isLt⟩) (.inl rfl)
    (by simp (disch := first | decide | exact BitVec.isLt _ | exact FTy.code_lt _) [decRaw, dec31, fld_pack_here, fld_pack_above, FTy.ofCode_code])
theorem Laws.RoundTrip.vmaxn (f : FFmt) (vd va vb : VReg) (qp : QReg) : Statement (.vmaxn f vd va vb qp) :=
  of_fields rfl (by simp [fieldsFit]; exact ⟨FTy.code_lt f, qp.isLt, vb.isLt, va.isLt, vd.isLt⟩) (.inl rfl)
    (by simp (disch := first | decide | exact BitVec.isLt _ | exact FTy.code_lt _) [decRaw, dec31, fld_pack_here, fld_pack_above, FTy.ofCode_code])
theorem Laws.RoundTrip.vabsFp (f : FFmt) (vd va : VReg) (qp : QReg) : Statement (.vabsFp f vd va qp) :=
  of_fields rfl (by simp [fieldsFit]; exact ⟨FTy.code_lt f, qp.isLt, va.isLt, vd.isLt⟩) (.inl rfl)
    (by simp (disch := first | decide | exact BitVec.isLt _ | exact FTy.code_lt _) [decRaw, dec31, fld_pack_here, fld_pack_above, FTy.ofCode_code])
theorem Laws.RoundTrip.vnegFp (f : FFmt) (vd va : VReg) (qp : QReg) : Statement (.vnegFp f vd va qp) :=
  of_fields rfl (by simp [fieldsFit]; exact ⟨FTy.code_lt f, qp.isLt, va.isLt, vd.isLt⟩) (.inl rfl)
    (by simp (disch := first | decide | exact BitVec.isLt _ | exact FTy.code_lt _) [decRaw, dec31, fld_pack_here, fld_pack_above, FTy.ofCode_code])
theorem Laws.RoundTrip.vcsgn (f : FFmt) (vd va vb : VReg) (qp : QReg) : Statement (.vcsgn f vd va vb qp) :=
  of_fields rfl (by simp [fieldsFit]; exact ⟨FTy.code_lt f, qp.isLt, vb.isLt, va.isLt, vd.isLt⟩) (.inl rfl)
    (by simp (disch := first | decide | exact BitVec.isLt _ | exact FTy.code_lt _) [decRaw, dec31, fld_pack_here, fld_pack_above, FTy.ofCode_code])
theorem Laws.RoundTrip.vcmp (cond : VCond) (ty : VTy) (qd : QReg) (va vb : VReg) (qp : QReg) : Statement (.vcmp cond ty qd va vb qp) :=
  of_fields rfl (by simp [fieldsFit]; exact ⟨VCond.code_lt cond, VTy.code_lt ty, qp.isLt, vb.isLt, va.isLt, qd.isLt⟩) (.inl rfl)
    (by simp (disch := first | decide | exact BitVec.isLt _ | exact VCond.code_lt _ | exact VTy.code_lt _) [decRaw, dec32, fld_pack_here, fld_pack_above, VCond.ofCode_code, VTy.ofCode_code])
theorem Laws.RoundTrip.vcvt (src dst : VTy) (ns : Bool) (rm : Rm) (vd va : VReg) (part qp : BitVec 3) : Statement (.vcvt src dst ns rm vd va part qp) :=
  of_fields rfl (by simp [fieldsFit]; exact ⟨(by have := boolToNat_lt ns; omega), part.isLt, Rm.code_lt rm, VTy.code_lt src, qp.isLt, VTy.code_lt dst, va.isLt, vd.isLt⟩) (.inl rfl)
    (by simp (disch := first | decide | exact BitVec.isLt _ | exact boolToNat_lt _ | exact Rm.code_lt _ | exact VTy.code_lt _) [decRaw, dec33, fld_pack_here, fld_pack_above, Rm.ofCode_code, VTy.ofCode_code])
theorem Laws.RoundTrip.vrcp (f : FFmt) (rm : Rm) (vd va : VReg) (qp : QReg) : Statement (.vrcp f rm vd va qp) :=
  of_fields rfl (by simp [fieldsFit]; exact ⟨Rm.code_lt rm, FTy.code_lt f, qp.isLt, va.isLt, vd.isLt⟩) (.inl rfl)
    (by simp (disch := first | decide | exact BitVec.isLt _ | exact FTy.code_lt _ | exact Rm.code_lt _) [decRaw, dec34, fld_pack_here, fld_pack_above, FTy.ofCode_code, Rm.ofCode_code])
theorem Laws.RoundTrip.vrsq (f : FFmt) (rm : Rm) (vd va : VReg) (qp : QReg) : Statement (.vrsq f rm vd va qp) :=
  of_fields rfl (by simp [fieldsFit]; exact ⟨Rm.code_lt rm, FTy.code_lt f, qp.isLt, va.isLt, vd.isLt⟩) (.inl rfl)
    (by simp (disch := first | decide | exact BitVec.isLt _ | exact FTy.code_lt _ | exact Rm.code_lt _) [decRaw, dec34, fld_pack_here, fld_pack_above, FTy.ofCode_code, Rm.ofCode_code])
theorem Laws.RoundTrip.vsqrt (f : FFmt) (rm : Rm) (vd va : VReg) (qp : QReg) : Statement (.vsqrt f rm vd va qp) :=
  of_fields rfl (by simp [fieldsFit]; exact ⟨Rm.code_lt rm, FTy.code_lt f, qp.isLt, va.isLt, vd.isLt⟩) (.inl rfl)
    (by simp (disch := first | decide | exact BitVec.isLt _ | exact FTy.code_lt _ | exact Rm.code_lt _) [decRaw, dec34, fld_pack_here, fld_pack_above, FTy.ofCode_code, Rm.ofCode_code])
theorem Laws.RoundTrip.vdiv (f : FFmt) (rm : Rm) (vd va vb : VReg) (qp : QReg) : Statement (.vdiv f rm vd va vb qp) :=
  of_fields rfl (by simp [fieldsFit]; exact ⟨Rm.code_lt rm, FTy.code_lt f, qp.isLt, vb.isLt, va.isLt, vd.isLt⟩) (.inl rfl)
    (by simp (disch := first | decide | exact BitVec.isLt _ | exact FTy.code_lt _ | exact Rm.code_lt _) [decRaw, dec34, fld_pack_here, fld_pack_above, FTy.ofCode_code, Rm.ofCode_code])
theorem Laws.RoundTrip.vexp2 (f : FFmt) (rm : Rm) (vd va : VReg) (qp : QReg) : Statement (.vexp2 f rm vd va qp) :=
  of_fields rfl (by simp [fieldsFit]; exact ⟨Rm.code_lt rm, FTy.code_lt f, qp.isLt, va.isLt, vd.isLt⟩) (.inl rfl)
    (by simp (disch := first | decide | exact BitVec.isLt _ | exact FTy.code_lt _ | exact Rm.code_lt _) [decRaw, dec34, fld_pack_here, fld_pack_above, FTy.ofCode_code, Rm.ofCode_code])
theorem Laws.RoundTrip.vlog2 (f : FFmt) (rm : Rm) (vd va : VReg) (qp : QReg) : Statement (.vlog2 f rm vd va qp) :=
  of_fields rfl (by simp [fieldsFit]; exact ⟨Rm.code_lt rm, FTy.code_lt f, qp.isLt, va.isLt, vd.isLt⟩) (.inl rfl)
    (by simp (disch := first | decide | exact BitVec.isLt _ | exact FTy.code_lt _ | exact Rm.code_lt _) [decRaw, dec34, fld_pack_here, fld_pack_above, FTy.ofCode_code, Rm.ofCode_code])
theorem Laws.RoundTrip.vperm (ty : VTy) (vd va vb : VReg) (qp : QReg) : Statement (.vperm ty vd va vb qp) :=
  of_fields rfl (by simp [fieldsFit]; exact ⟨VTy.code_lt ty, qp.isLt, vb.isLt, va.isLt, vd.isLt⟩) (.inl rfl)
    (by simp (disch := first | decide | exact BitVec.isLt _ | exact VTy.code_lt _) [decRaw, dec35, fld_pack_here, fld_pack_above, VTy.ofCode_code])
theorem Laws.RoundTrip.vbcst (ty : VTy) (vd va : VReg) (lane : BitVec 3) (qp : QReg) : Statement (.vbcst ty vd va lane qp) :=
  of_fields rfl (by simp [fieldsFit]; exact ⟨VTy.code_lt ty, qp.isLt, lane.isLt, va.isLt, vd.isLt⟩) (.inl rfl)
    (by simp (disch := first | decide | exact BitVec.isLt _ | exact VTy.code_lt _) [decRaw, dec35, fld_pack_here, fld_pack_above, VTy.ofCode_code])
theorem Laws.RoundTrip.vzip (ty : VTy) (vd va vb : VReg) (qp : QReg) : Statement (.vzip ty vd va vb qp) :=
  of_fields rfl (by simp [fieldsFit]; exact ⟨VTy.code_lt ty, qp.isLt, vb.isLt, va.isLt, vd.isLt⟩) (.inl rfl)
    (by simp (disch := first | decide | exact BitVec.isLt _ | exact VTy.code_lt _) [decRaw, dec35, fld_pack_here, fld_pack_above, VTy.ofCode_code])
theorem Laws.RoundTrip.vunzip (ty : VTy) (vd va vb : VReg) (qp : QReg) : Statement (.vunzip ty vd va vb qp) :=
  of_fields rfl (by simp [fieldsFit]; exact ⟨VTy.code_lt ty, qp.isLt, vb.isLt, va.isLt, vd.isLt⟩) (.inl rfl)
    (by simp (disch := first | decide | exact BitVec.isLt _ | exact VTy.code_lt _) [decRaw, dec35, fld_pack_here, fld_pack_above, VTy.ofCode_code])
theorem Laws.RoundTrip.vredadd (ty : VTy) (vd va : VReg) (qp : QReg) : Statement (.vredadd ty vd va qp) :=
  of_fields rfl (by simp [fieldsFit]; exact ⟨VTy.code_lt ty, qp.isLt, va.isLt, vd.isLt⟩) (.inl rfl)
    (by simp (disch := first | decide | exact BitVec.isLt _ | exact VTy.code_lt _) [decRaw, dec35, fld_pack_here, fld_pack_above, VTy.ofCode_code])
theorem Laws.RoundTrip.vredmin (ty : VTy) (vd va : VReg) (qp : QReg) : Statement (.vredmin ty vd va qp) :=
  of_fields rfl (by simp [fieldsFit]; exact ⟨VTy.code_lt ty, qp.isLt, va.isLt, vd.isLt⟩) (.inl rfl)
    (by simp (disch := first | decide | exact BitVec.isLt _ | exact VTy.code_lt _) [decRaw, dec35, fld_pack_here, fld_pack_above, VTy.ofCode_code])
theorem Laws.RoundTrip.vredmax (ty : VTy) (vd va : VReg) (qp : QReg) : Statement (.vredmax ty vd va qp) :=
  of_fields rfl (by simp [fieldsFit]; exact ⟨VTy.code_lt ty, qp.isLt, va.isLt, vd.isLt⟩) (.inl rfl)
    (by simp (disch := first | decide | exact BitVec.isLt _ | exact VTy.code_lt _) [decRaw, dec35, fld_pack_here, fld_pack_above, VTy.ofCode_code])
theorem Laws.RoundTrip.vredminn (ty : VTy) (vd va : VReg) (qp : QReg) : Statement (.vredminn ty vd va qp) :=
  of_fields rfl (by simp [fieldsFit]; exact ⟨VTy.code_lt ty, qp.isLt, va.isLt, vd.isLt⟩) (.inl rfl)
    (by simp (disch := first | decide | exact BitVec.isLt _ | exact VTy.code_lt _) [decRaw, dec35, fld_pack_here, fld_pack_above, VTy.ofCode_code])
theorem Laws.RoundTrip.vredmaxn (ty : VTy) (vd va : VReg) (qp : QReg) : Statement (.vredmaxn ty vd va qp) :=
  of_fields rfl (by simp [fieldsFit]; exact ⟨VTy.code_lt ty, qp.isLt, va.isLt, vd.isLt⟩) (.inl rfl)
    (by simp (disch := first | decide | exact BitVec.isLt _ | exact VTy.code_lt _) [decRaw, dec35, fld_pack_here, fld_pack_above, VTy.ofCode_code])
theorem Laws.RoundTrip.vsll (ty : VTy) (vd va vb : VReg) (qp : QReg) : Statement (.vsll ty vd va vb qp) :=
  of_fields rfl (by simp [fieldsFit]; exact ⟨VTy.code_lt ty, qp.isLt, vb.isLt, va.isLt, vd.isLt⟩) (.inl rfl)
    (by simp (disch := first | decide | exact BitVec.isLt _ | exact VTy.code_lt _) [decRaw, dec36, fld_pack_here, fld_pack_above, VTy.ofCode_code])
theorem Laws.RoundTrip.vsrl (ty : VTy) (vd va vb : VReg) (qp : QReg) : Statement (.vsrl ty vd va vb qp) :=
  of_fields rfl (by simp [fieldsFit]; exact ⟨VTy.code_lt ty, qp.isLt, vb.isLt, va.isLt, vd.isLt⟩) (.inl rfl)
    (by simp (disch := first | decide | exact BitVec.isLt _ | exact VTy.code_lt _) [decRaw, dec36, fld_pack_here, fld_pack_above, VTy.ofCode_code])
theorem Laws.RoundTrip.vsra (ty : VTy) (vd va vb : VReg) (qp : QReg) : Statement (.vsra ty vd va vb qp) :=
  of_fields rfl (by simp [fieldsFit]; exact ⟨VTy.code_lt ty, qp.isLt, vb.isLt, va.isLt, vd.isLt⟩) (.inl rfl)
    (by simp (disch := first | decide | exact BitVec.isLt _ | exact VTy.code_lt _) [decRaw, dec36, fld_pack_here, fld_pack_above, VTy.ofCode_code])
theorem Laws.RoundTrip.vslli (ty : VTy) (vd va : VReg) (sh : BitVec 7) (qp : QReg) : Statement (.vslli ty vd va sh qp) := by
  have h1 : sh.toNat % 16 < 2 ^ 4 := Nat.mod_lt _ (by decide)
  have h2 : sh.toNat / 16 < 2 ^ 3 := by have := sh.isLt; omega
  have h3 : sh.toNat / 16 * 16 + sh.toNat % 16 = sh.toNat := by omega
  exact of_fields rfl (by simp [fieldsFit]; exact ⟨h2, VTy.code_lt ty, qp.isLt, h1, va.isLt, vd.isLt⟩) (.inl rfl)
    (by simp (disch := first | assumption | decide | exact BitVec.isLt _ | exact VTy.code_lt _) only [decRaw, dec36, fld_pack_here, fld_pack_above, Nat.reduceSub, h3, bitVec_ofNat_toNat, VTy.ofCode_code, Option.bind_some])
theorem Laws.RoundTrip.vsrli (ty : VTy) (vd va : VReg) (sh : BitVec 7) (qp : QReg) : Statement (.vsrli ty vd va sh qp) := by
  have h1 : sh.toNat % 16 < 2 ^ 4 := Nat.mod_lt _ (by decide)
  have h2 : sh.toNat / 16 < 2 ^ 3 := by have := sh.isLt; omega
  have h3 : sh.toNat / 16 * 16 + sh.toNat % 16 = sh.toNat := by omega
  exact of_fields rfl (by simp [fieldsFit]; exact ⟨h2, VTy.code_lt ty, qp.isLt, h1, va.isLt, vd.isLt⟩) (.inl rfl)
    (by simp (disch := first | assumption | decide | exact BitVec.isLt _ | exact VTy.code_lt _) only [decRaw, dec36, fld_pack_here, fld_pack_above, Nat.reduceSub, h3, bitVec_ofNat_toNat, VTy.ofCode_code, Option.bind_some])
theorem Laws.RoundTrip.vsrai (ty : VTy) (vd va : VReg) (sh : BitVec 7) (qp : QReg) : Statement (.vsrai ty vd va sh qp) := by
  have h1 : sh.toNat % 16 < 2 ^ 4 := Nat.mod_lt _ (by decide)
  have h2 : sh.toNat / 16 < 2 ^ 3 := by have := sh.isLt; omega
  have h3 : sh.toNat / 16 * 16 + sh.toNat % 16 = sh.toNat := by omega
  exact of_fields rfl (by simp [fieldsFit]; exact ⟨h2, VTy.code_lt ty, qp.isLt, h1, va.isLt, vd.isLt⟩) (.inl rfl)
    (by simp (disch := first | assumption | decide | exact BitVec.isLt _ | exact VTy.code_lt _) only [decRaw, dec36, fld_pack_here, fld_pack_above, Nat.reduceSub, h3, bitVec_ofNat_toNat, VTy.ofCode_code, Option.bind_some])
theorem Laws.RoundTrip.vbool3 (vd va vb : VReg) (qp : QReg) (tab : BitVec 8) : Statement (.vbool3 vd va vb qp tab) := by
  have h1 : fld (pack [(3, 7), (8, tab.toNat), (3, qp.toNat), (4, vb.toNat), (4, va.toNat), (4, vd.toNat), (6, 54)]) 0 4 = 7 ∨
      fld (pack [(3, 7), (8, tab.toNat), (3, qp.toNat), (4, vb.toNat), (4, va.toNat), (4, vd.toNat), (6, 54)]) 0 4 = 15 := by
    have := tab.isLt
    simp only [fld, pack]; omega
  refine of_fields rfl (by simp [fieldsFit]; exact ⟨tab.isLt, qp.isLt, vb.isLt, va.isLt, vd.isLt⟩) (.inl rfl) ?_
  rcases h1 with h1 | h1 <;>
    simp (disch := first | decide | exact BitVec.isLt _) [decRaw, dec36, h1, fld_pack_here, fld_pack_above]
theorem Laws.RoundTrip.vins (v : VReg) (sr : SReg) (lane : BitVec 3) : Statement (.vins v sr lane) :=
  of_fields rfl (by simp [fieldsFit]; exact ⟨lane.isLt, sr.isLt, v.isLt⟩) (.inl rfl)
    (by simp (disch := first | decide | exact BitVec.isLt _) [decRaw, dec37, fld_pack_here, fld_pack_above])
theorem Laws.RoundTrip.vext (v : VReg) (sr : SReg) (lane : BitVec 3) : Statement (.vext v sr lane) :=
  of_fields rfl (by simp [fieldsFit]; exact ⟨lane.isLt, sr.isLt, v.isLt⟩) (.inl rfl)
    (by simp (disch := first | decide | exact BitVec.isLt _) [decRaw, dec37, fld_pack_here, fld_pack_above])
theorem Laws.RoundTrip.vdup (v : VReg) (sr : SReg) : Statement (.vdup v sr) :=
  of_fields rfl (by simp [fieldsFit]; exact ⟨sr.isLt, v.isLt⟩) (.inl rfl)
    (by simp (disch := first | decide | exact BitVec.isLt _) [decRaw, dec37, fld_pack_here, fld_pack_above])
theorem Laws.RoundTrip.qset (sr : SReg) (q : QReg) : Statement (.qset sr q) :=
  of_fields rfl (by simp [fieldsFit]; exact ⟨q.isLt, sr.isLt⟩) (.inl rfl)
    (by simp (disch := first | decide | exact BitVec.isLt _) [decRaw, dec37, fld_pack_here, fld_pack_above])
theorem Laws.RoundTrip.qget (sr : SReg) (q : QReg) : Statement (.qget sr q) :=
  of_fields rfl (by simp [fieldsFit]; exact ⟨q.isLt, sr.isLt⟩) (.inl rfl)
    (by simp (disch := first | decide | exact BitVec.isLt _) [decRaw, dec37, fld_pack_here, fld_pack_above])
theorem Laws.RoundTrip.mop (n : BitVec 2) (m : Bool) (fA fB : Tag) (a b c : SReg) (lab : Label) : Statement (.mop n m fA fB a b c lab) :=
  of_fields rfl (by simp [fieldsFit]; exact ⟨c.isLt, b.isLt, a.isLt, lab.isLt, n.isLt, (by have := boolToNat_lt m; omega), Tag.code_lt fA, Tag.code_lt fB⟩) (.inr ⟨rfl, by simp (disch := first | decide | exact BitVec.isLt _ | exact boolToNat_lt _ | exact Tag.code_lt _) [fld_pack_here, fld_pack_above]⟩)
    (by simp (disch := first | decide | exact BitVec.isLt _ | exact boolToNat_lt _ | exact Tag.code_lt _) [decRaw, dec3F, fld_pack_here, fld_pack_above, Tag.ofCode_code])
theorem Laws.RoundTrip.mopsZc (n : BitVec 2) (m : Bool) (fA fB : Tag) (d a b c : SReg) (lab : Label) : Statement (.mopsZc n m fA fB d a b c lab) :=
  of_fields rfl (by simp [fieldsFit]; exact ⟨c.isLt, b.isLt, a.isLt, d.isLt, lab.isLt, n.isLt, (by have := boolToNat_lt m; omega), Tag.code_lt fA, Tag.code_lt fB⟩) (.inr ⟨rfl, by simp (disch := first | decide | exact BitVec.isLt _ | exact boolToNat_lt _ | exact Tag.code_lt _) [fld_pack_here, fld_pack_above]⟩)
    (by simp (disch := first | decide | exact BitVec.isLt _ | exact boolToNat_lt _ | exact Tag.code_lt _) [decRaw, dec3F, fld_pack_here, fld_pack_above, Tag.ofCode_code])
theorem Laws.RoundTrip.mopsS24 (n : BitVec 2) (m : Bool) (fA fB : Tag) (d a b c : SReg) (lab : Label) : Statement (.mopsS24 n m fA fB d a b c lab) :=
  of_fields rfl (by simp [fieldsFit]; exact ⟨c.isLt, b.isLt, a.isLt, d.isLt, lab.isLt, n.isLt, (by have := boolToNat_lt m; omega), Tag.code_lt fA, Tag.code_lt fB⟩) (.inr ⟨rfl, by simp (disch := first | decide | exact BitVec.isLt _ | exact boolToNat_lt _ | exact Tag.code_lt _) [fld_pack_here, fld_pack_above]⟩)
    (by simp (disch := first | decide | exact BitVec.isLt _ | exact boolToNat_lt _ | exact Tag.code_lt _) [decRaw, dec3F, fld_pack_here, fld_pack_above, Tag.ofCode_code])
theorem Laws.RoundTrip.mzero (n : BitVec 2) (m : Bool) (lab : Label) : Statement (.mzero n m lab) :=
  of_fields rfl (by simp [fieldsFit]; exact ⟨lab.isLt, n.isLt, (by have := boolToNat_lt m; omega)⟩) (.inr ⟨rfl, by simp (disch := first | decide | exact BitVec.isLt _ | exact boolToNat_lt _) [fld_pack_here, fld_pack_above]⟩)
    (by simp (disch := first | decide | exact BitVec.isLt _ | exact boolToNat_lt _) [decRaw, dec3F, fld_pack_here, fld_pack_above])
theorem Laws.RoundTrip.mload (n : BitVec 2) (m : Bool) (fA : Tag) (a : SReg) (lab : Label) : Statement (.mload n m fA a lab) :=
  of_fields rfl (by simp [fieldsFit]; exact ⟨a.isLt, lab.isLt, n.isLt, (by have := boolToNat_lt m; omega), Tag.code_lt fA⟩) (.inr ⟨rfl, by simp (disch := first | decide | exact BitVec.isLt _ | exact boolToNat_lt _ | exact Tag.code_lt _) [fld_pack_here, fld_pack_above]⟩)
    (by simp (disch := first | decide | exact BitVec.isLt _ | exact boolToNat_lt _ | exact Tag.code_lt _) [decRaw, dec3F, fld_pack_here, fld_pack_above, Tag.ofCode_code])
theorem Laws.RoundTrip.mdrain (n : BitVec 2) (m : Bool) (fA : Tag) (rm : Rm) (relu : Bool) (scale : BitVec 8) (a : SReg) (lab : Label) : Statement (.mdrain n m fA rm relu scale a lab) :=
  of_fields rfl (by simp [fieldsFit]; exact ⟨a.isLt, lab.isLt, n.isLt, (by have := boolToNat_lt m; omega), Tag.code_lt fA, Rm.code_lt rm, (by have := boolToNat_lt relu; omega), scale.isLt⟩) (.inr ⟨rfl, by simp (disch := first | decide | exact BitVec.isLt _ | exact boolToNat_lt _ | exact Rm.code_lt _ | exact Tag.code_lt _) [fld_pack_here, fld_pack_above]⟩)
    (by simp (disch := first | decide | exact BitVec.isLt _ | exact boolToNat_lt _ | exact Rm.code_lt _ | exact Tag.code_lt _) [decRaw, dec3F, fld_pack_here, fld_pack_above, Rm.ofCode_code, Tag.ofCode_code])
theorem Laws.RoundTrip.mseed (n : BitVec 2) (a : SReg) : Statement (.mseed n a) :=
  of_fields rfl (by simp [fieldsFit]; exact ⟨a.isLt, n.isLt⟩) (.inr ⟨rfl, by simp (disch := first | decide | exact BitVec.isLt _) [fld_pack_here, fld_pack_above]⟩)
    (by simp (disch := first | decide | exact BitVec.isLt _) [decRaw, dec3F, fld_pack_here, fld_pack_above])
theorem Laws.RoundTrip.tdir (d a : SReg) : Statement (.tdir d a) :=
  of_fields rfl (by simp [fieldsFit]; exact ⟨a.isLt, d.isLt⟩) (.inr ⟨rfl, by simp (disch := first | decide | exact BitVec.isLt _) [fld_pack_here, fld_pack_above]⟩)
    (by simp (disch := first | decide | exact BitVec.isLt _) [decRaw, dec3F, fld_pack_here, fld_pack_above])
theorem Laws.RoundTrip.tzero (a c : SReg) (lab : Label) : Statement (.tzero a c lab) :=
  of_fields rfl (by simp [fieldsFit]; exact ⟨c.isLt, a.isLt, lab.isLt⟩) (.inr ⟨rfl, by simp (disch := first | decide | exact BitVec.isLt _) [fld_pack_here, fld_pack_above]⟩)
    (by simp (disch := first | decide | exact BitVec.isLt _) [decRaw, dec3F, fld_pack_here, fld_pack_above])
theorem Laws.RoundTrip.tfill (f : Tag) (a b c : SReg) (lab : Label) : Statement (.tfill f a b c lab) :=
  of_fields rfl (by simp [fieldsFit]; exact ⟨c.isLt, b.isLt, a.isLt, lab.isLt, Tag.code_lt f⟩) (.inr ⟨rfl, by simp (disch := first | decide | exact BitVec.isLt _ | exact Tag.code_lt _) [fld_pack_here, fld_pack_above]⟩)
    (by simp (disch := first | decide | exact BitVec.isLt _ | exact Tag.code_lt _) [decRaw, dec3F, fld_pack_here, fld_pack_above, Tag.ofCode_code])
theorem Laws.RoundTrip.tident (f : Tag) (diag : BitVec 7) (a c : SReg) (lab : Label) : Statement (.tident f diag a c lab) :=
  of_fields rfl (by simp [fieldsFit]; exact ⟨c.isLt, a.isLt, lab.isLt, Tag.code_lt f, diag.isLt⟩) (.inr ⟨rfl, by simp (disch := first | decide | exact BitVec.isLt _ | exact Tag.code_lt _) [fld_pack_here, fld_pack_above]⟩)
    (by simp (disch := first | decide | exact BitVec.isLt _ | exact Tag.code_lt _) [decRaw, dec3F, fld_pack_here, fld_pack_above, Tag.ofCode_code])
theorem Laws.RoundTrip.xcopy (dir : Dir2) (f : Tag) (cls : Cls) (d a b : SReg) (lab : Label) : Statement (.xcopy dir f cls d a b lab) :=
  of_fields rfl (by simp [fieldsFit]; exact ⟨b.isLt, a.isLt, d.isLt, lab.isLt, Cls.code_lt cls, Tag.code_lt f, (by cases dir.srcNear <;> decide), (by cases dir.dstNear <;> decide)⟩) (.inr ⟨rfl, by simp (disch := first | decide | exact BitVec.isLt _ | exact boolToNat_lt _ | exact Cls.code_lt _ | exact Tag.code_lt _) [fld_pack_here, fld_pack_above]⟩)
    (by simp (disch := first | decide | exact BitVec.isLt _ | exact boolToNat_lt _ | exact Cls.code_lt _ | exact Tag.code_lt _) [decRaw, dec3F, fld_pack_here, fld_pack_above, Cls.ofCode_code, Tag.ofCode_code])
theorem Laws.RoundTrip.xmapLd (cls : Cls) (d a b c : SReg) (lab : Label) : Statement (.xmapLd cls d a b c lab) :=
  of_fields rfl (by simp [fieldsFit]; exact ⟨c.isLt, b.isLt, a.isLt, d.isLt, lab.isLt, Cls.code_lt cls⟩) (.inr ⟨rfl, by simp (disch := first | decide | exact BitVec.isLt _ | exact Cls.code_lt _) [fld_pack_here, fld_pack_above]⟩)
    (by simp (disch := first | decide | exact BitVec.isLt _ | exact Cls.code_lt _) [decRaw, dec3F, fld_pack_here, fld_pack_above, Cls.ofCode_code])
theorem Laws.RoundTrip.xmapSt (cls : Cls) (d a b c : SReg) (lab : Label) : Statement (.xmapSt cls d a b c lab) :=
  of_fields rfl (by simp [fieldsFit]; exact ⟨c.isLt, b.isLt, a.isLt, d.isLt, lab.isLt, Cls.code_lt cls⟩) (.inr ⟨rfl, by simp (disch := first | decide | exact BitVec.isLt _ | exact Cls.code_lt _) [fld_pack_here, fld_pack_above]⟩)
    (by simp (disch := first | decide | exact BitVec.isLt _ | exact Cls.code_lt _) [decRaw, dec3F, fld_pack_here, fld_pack_above, Cls.ofCode_code])
theorem Laws.RoundTrip.xgather (x64 : Bool) (cls : Cls) (d a b c : SReg) (lab : Label) : Statement (.xgather x64 cls d a b c lab) :=
  of_fields rfl (by simp [fieldsFit]; exact ⟨c.isLt, b.isLt, a.isLt, d.isLt, lab.isLt, Cls.code_lt cls, (by have := boolToNat_lt x64; omega)⟩) (.inr ⟨rfl, by simp (disch := first | decide | exact BitVec.isLt _ | exact boolToNat_lt _ | exact Cls.code_lt _) [fld_pack_here, fld_pack_above]⟩)
    (by simp (disch := first | decide | exact BitVec.isLt _ | exact boolToNat_lt _ | exact Cls.code_lt _) [decRaw, dec3F, fld_pack_here, fld_pack_above, Cls.ofCode_code])
theorem Laws.RoundTrip.xscatter (x64 acc : Bool) (f : Tag) (cls : Cls) (d a b c : SReg) (lab : Label) : Statement (.xscatter x64 acc f cls d a b c lab) :=
  of_fields rfl (by simp [fieldsFit]; exact ⟨c.isLt, b.isLt, a.isLt, d.isLt, lab.isLt, Cls.code_lt cls, Tag.code_lt f, (by have := boolToNat_lt x64; omega), (by have := boolToNat_lt acc; omega)⟩) (.inr ⟨rfl, by simp (disch := first | decide | exact BitVec.isLt _ | exact boolToNat_lt _ | exact Cls.code_lt _ | exact Tag.code_lt _) [fld_pack_here, fld_pack_above]⟩)
    (by simp (disch := first | decide | exact BitVec.isLt _ | exact boolToNat_lt _ | exact Cls.code_lt _ | exact Tag.code_lt _) [decRaw, dec3F, fld_pack_here, fld_pack_above, Cls.ofCode_code, Tag.ofCode_code])
theorem Laws.RoundTrip.xpack (dstNear : Bool) (f : Tag) (cls : Cls) (d a b : SReg) (lab : Label) : Statement (.xpack dstNear f cls d a b lab) :=
  of_fields rfl (by simp [fieldsFit]; exact ⟨b.isLt, a.isLt, d.isLt, lab.isLt, Cls.code_lt cls, Tag.code_lt f, (by have := boolToNat_lt dstNear; omega)⟩) (.inr ⟨rfl, by simp (disch := first | decide | exact BitVec.isLt _ | exact boolToNat_lt _ | exact Cls.code_lt _ | exact Tag.code_lt _) [fld_pack_here, fld_pack_above]⟩)
    (by simp (disch := first | decide | exact BitVec.isLt _ | exact boolToNat_lt _ | exact Cls.code_lt _ | exact Tag.code_lt _) [decRaw, dec3F, fld_pack_here, fld_pack_above, Cls.ofCode_code, Tag.ofCode_code])
theorem Laws.RoundTrip.xunpack (srcNear : Bool) (f : Tag) (cls : Cls) (d a b : SReg) (lab : Label) : Statement (.xunpack srcNear f cls d a b lab) :=
  of_fields rfl (by simp [fieldsFit]; exact ⟨b.isLt, a.isLt, d.isLt, lab.isLt, Cls.code_lt cls, Tag.code_lt f, (by have := boolToNat_lt srcNear; omega)⟩) (.inr ⟨rfl, by simp (disch := first | decide | exact BitVec.isLt _ | exact boolToNat_lt _ | exact Cls.code_lt _ | exact Tag.code_lt _) [fld_pack_here, fld_pack_above]⟩)
    (by simp (disch := first | decide | exact BitVec.isLt _ | exact boolToNat_lt _ | exact Cls.code_lt _ | exact Tag.code_lt _) [decRaw, dec3F, fld_pack_here, fld_pack_above, Cls.ofCode_code, Tag.ofCode_code])
theorem Laws.RoundTrip.xembed (f : Tag) (cls : Cls) (d a b c : SReg) (lab : Label) : Statement (.xembed f cls d a b c lab) :=
  of_fields rfl (by simp [fieldsFit]; exact ⟨c.isLt, b.isLt, a.isLt, d.isLt, lab.isLt, Cls.code_lt cls, Tag.code_lt f⟩) (.inr ⟨rfl, by simp (disch := first | decide | exact BitVec.isLt _ | exact Cls.code_lt _ | exact Tag.code_lt _) [fld_pack_here, fld_pack_above]⟩)
    (by simp (disch := first | decide | exact BitVec.isLt _ | exact Cls.code_lt _ | exact Tag.code_lt _) [decRaw, dec3F, fld_pack_here, fld_pack_above, Cls.ofCode_code, Tag.ofCode_code])
theorem Laws.RoundTrip.xstream (toHost near : Bool) (cls : Cls) (d a b c : SReg) (lab : Label) : Statement (.xstream toHost near cls d a b c lab) :=
  of_fields rfl (by simp [fieldsFit]; exact ⟨c.isLt, b.isLt, a.isLt, d.isLt, lab.isLt, Cls.code_lt cls, (by have := boolToNat_lt toHost; omega), (by have := boolToNat_lt near; omega)⟩) (.inr ⟨rfl, by simp (disch := first | decide | exact BitVec.isLt _ | exact boolToNat_lt _ | exact Cls.code_lt _) [fld_pack_here, fld_pack_above]⟩)
    (by simp (disch := first | decide | exact BitVec.isLt _ | exact boolToNat_lt _ | exact Cls.code_lt _) [decRaw, dec3F, fld_pack_here, fld_pack_above, Cls.ofCode_code])
theorem Laws.RoundTrip.rngw (a b c : SReg) : Statement (.rngw a b c) :=
  of_fields rfl (by simp [fieldsFit]; exact ⟨c.isLt, b.isLt, a.isLt⟩) (.inr ⟨rfl, by simp (disch := first | decide | exact BitVec.isLt _) [fld_pack_here, fld_pack_above]⟩)
    (by simp (disch := first | decide | exact BitVec.isLt _) [decRaw, dec3F, fld_pack_here, fld_pack_above])
theorem Laws.RoundTrip.rngr (d a : SReg) (half : Bool) : Statement (.rngr d a half) :=
  of_fields rfl (by simp [fieldsFit]; exact ⟨a.isLt, d.isLt, (by have := boolToNat_lt half; omega)⟩) (.inr ⟨rfl, by simp (disch := first | decide | exact BitVec.isLt _ | exact boolToNat_lt _) [fld_pack_here, fld_pack_above]⟩)
    (by simp (disch := first | decide | exact BitVec.isLt _ | exact boolToNat_lt _) [decRaw, dec3F, fld_pack_here, fld_pack_above])
theorem Laws.RoundTrip.rngclr (a : SReg) : Statement (.rngclr a) :=
  of_fields rfl (by simp [fieldsFit]; exact a.isLt) (.inr ⟨rfl, by simp (disch := first | decide | exact BitVec.isLt _) [fld_pack_here, fld_pack_above]⟩)
    (by simp (disch := first | decide | exact BitVec.isLt _) [decRaw, dec3F, fld_pack_here, fld_pack_above])
theorem Laws.RoundTrip.pgw (a b : SReg) : Statement (.pgw a b) :=
  of_fields rfl (by simp [fieldsFit]; exact ⟨b.isLt, a.isLt⟩) (.inr ⟨rfl, by simp (disch := first | decide | exact BitVec.isLt _) [fld_pack_here, fld_pack_above]⟩)
    (by simp (disch := first | decide | exact BitVec.isLt _) [decRaw, dec3F, fld_pack_here, fld_pack_above])
theorem Laws.RoundTrip.pgr (d a : SReg) : Statement (.pgr d a) :=
  of_fields rfl (by simp [fieldsFit]; exact ⟨a.isLt, d.isLt⟩) (.inr ⟨rfl, by simp (disch := first | decide | exact BitVec.isLt _) [fld_pack_here, fld_pack_above]⟩)
    (by simp (disch := first | decide | exact BitVec.isLt _) [decRaw, dec3F, fld_pack_here, fld_pack_above])
theorem Laws.RoundTrip.pginv (a : SReg) : Statement (.pginv a) :=
  of_fields rfl (by simp [fieldsFit]; exact a.isLt) (.inr ⟨rfl, by simp (disch := first | decide | exact BitVec.isLt _) [fld_pack_here, fld_pack_above]⟩)
    (by simp (disch := first | decide | exact BitVec.isLt _) [decRaw, dec3F, fld_pack_here, fld_pack_above])
theorem Laws.RoundTrip.illegalInstruction (bits : BitVec 64) : Statement (.illegalInstruction bits) :=
  of_none rfl
theorem Laws.RoundTrip.commitInjection (core : CoreIx) (thr : ThrIx) : Statement (.commitInjection core thr) :=
  of_none rfl
theorem Laws.RoundTrip.messageArrival (n : Nat) : Statement (.messageArrival n) :=
  of_none rfl
theorem Laws.RoundTrip.payloadFlitArrival (core : CoreIx) (id : Nat) : Statement (.payloadFlitArrival core id) :=
  of_none rfl
theorem Laws.RoundTrip.kittyReturn (core : CoreIx) (cls : Cls) : Statement (.kittyReturn core cls) :=
  of_none rfl
theorem Laws.RoundTrip.recvDelivery (core : CoreIx) (lab : Label) : Statement (.recvDelivery core lab) :=
  of_none rfl
theorem Laws.RoundTrip.handlerStart (core : CoreIx) : Statement (.handlerStart core) :=
  of_none rfl
theorem Laws.RoundTrip.spreadMove (core : CoreIx) : Statement (.spreadMove core) :=
  of_none rfl
theorem Laws.RoundTrip.barArrival (n : Nat) : Statement (.barArrival n) :=
  of_none rfl
theorem Laws.RoundTrip.barrierRelease (n : Nat) : Statement (.barrierRelease n) :=
  of_none rfl
theorem Laws.RoundTrip.waitDeadline (core : CoreIx) (thr : ThrIx) : Statement (.waitDeadline core thr) :=
  of_none rfl
theorem Laws.RoundTrip.watchdogStop (core : CoreIx) : Statement (.watchdogStop core) :=
  of_none rfl
theorem Laws.RoundTrip.engineCommandStart (cl : BitVec 8) (k : Nat) (n : Nat) : Statement (.engineCommandStart cl k n) :=
  of_none rfl
theorem Laws.RoundTrip.engineCompletion (cl : BitVec 8) (k : Nat) : Statement (.engineCompletion cl k) :=
  of_none rfl
theorem Laws.RoundTrip.matrixCommandStart (cl : BitVec 8) (arr : BitVec 2) (k : Nat) (n : Nat) : Statement (.matrixCommandStart cl arr k n) :=
  of_none rfl
theorem Laws.RoundTrip.matrixCompletion (cl : BitVec 8) (arr : BitVec 2) : Statement (.matrixCompletion cl arr) :=
  of_none rfl
theorem Laws.RoundTrip.routerForward (n : Nat) : Statement (.routerForward n) :=
  of_none rfl
theorem Laws.RoundTrip.gatewayArrival (sw : BitVec 3) (p : Packet) : Statement (.gatewayArrival sw p) :=
  of_none rfl
theorem Laws.RoundTrip.arrivalRingReentry (sw : BitVec 3) : Statement (.arrivalRingReentry sw) :=
  of_none rfl
theorem Laws.RoundTrip.arrivalRingFullReport (sw : BitVec 3) : Statement (.arrivalRingFullReport sw) :=
  of_none rfl
theorem Laws.RoundTrip.linkCrcError (link : BitVec 6) : Statement (.linkCrcError link) :=
  of_none rfl
theorem Laws.RoundTrip.linkRetrain (link : BitVec 6) : Statement (.linkRetrain link) :=
  of_none rfl
theorem Laws.RoundTrip.linkDown (link : BitVec 6) : Statement (.linkDown link) :=
  of_none rfl
theorem Laws.RoundTrip.podCounterExchange (sw : BitVec 3) (value : BitVec 64) : Statement (.podCounterExchange sw value) :=
  of_none rfl
theorem Laws.RoundTrip.rdRequest (n : Nat) : Statement (.rdRequest n) :=
  of_none rfl
theorem Laws.RoundTrip.wrRequest (n : Nat) : Statement (.wrRequest n) :=
  of_none rfl
theorem Laws.RoundTrip.amoRequest (n : Nat) : Statement (.amoRequest n) :=
  of_none rfl
theorem Laws.RoundTrip.amopRequest (n : Nat) : Statement (.amopRequest n) :=
  of_none rfl
theorem Laws.RoundTrip.casRequest (n : Nat) : Statement (.casRequest n) :=
  of_none rfl
theorem Laws.RoundTrip.parkNoticeRepeat (stack : BitVec 5) (n : Nat) : Statement (.parkNoticeRepeat stack n) :=
  of_none rfl
theorem Laws.RoundTrip.parkLimitExpiry (stack : BitVec 5) (n : Nat) : Statement (.parkLimitExpiry stack n) :=
  of_none rfl
theorem Laws.RoundTrip.parkedRequestReplay (stack : BitVec 5) (n : Nat) : Statement (.parkedRequestReplay stack n) :=
  of_none rfl
theorem Laws.RoundTrip.rdataReply (n : Nat) : Statement (.rdataReply n) :=
  of_none rfl
theorem Laws.RoundTrip.ackReply (n : Nat) : Statement (.ackReply n) :=
  of_none rfl
theorem Laws.RoundTrip.parkNotice (n : Nat) : Statement (.parkNotice n) :=
  of_none rfl
theorem Laws.RoundTrip.errReply (n : Nat) : Statement (.errReply n) :=
  of_none rfl
theorem Laws.RoundTrip.farTimerExpiry (core : CoreIx) (txid : BitVec 16) : Statement (.farTimerExpiry core txid) :=
  of_none rfl
theorem Laws.RoundTrip.nackResend (core : CoreIx) (txid : BitVec 16) : Statement (.nackResend core txid) :=
  of_none rfl
theorem Laws.RoundTrip.imageLoad (q : BitVec 14) : Statement (.imageLoad q) :=
  of_none rfl
theorem Laws.RoundTrip.launchGateOpen (job : BitVec 8) : Statement (.launchGateOpen job) :=
  of_none rfl
theorem Laws.RoundTrip.initialMessageRelease (job : BitVec 8) : Statement (.initialMessageRelease job) :=
  of_none rfl
theorem Laws.RoundTrip.jobRetirement (job : BitVec 8) : Statement (.jobRetirement job) :=
  of_none rfl
theorem Laws.RoundTrip.tokenWrite (off : BitVec 26) (bytes : List Byte) : Statement (.tokenWrite off bytes) :=
  of_none rfl
theorem Laws.RoundTrip.tokenRelease (q : BitVec 14) : Statement (.tokenRelease q) :=
  of_none rfl
theorem Laws.RoundTrip.qctlReset (q : BitVec 14) (value : Word) : Statement (.qctlReset q value) :=
  of_none rfl
theorem Laws.RoundTrip.meventClear (value : Word) : Statement (.meventClear value) :=
  of_none rfl
theorem Laws.RoundTrip.powercapWrite (value : Word) : Statement (.powercapWrite value) :=
  of_none rfl
theorem Laws.RoundTrip.hostRegisterWrite (off : BitVec 25) (value : Word) : Statement (.hostRegisterWrite off value) :=
  of_none rfl
theorem Laws.RoundTrip.attest : Statement .attest :=
  of_none rfl
theorem Laws.RoundTrip.fwupdate : Statement .fwupdate :=
  of_none rfl
theorem Laws.RoundTrip.recover : Statement .recover :=
  of_none rfl
theorem Laws.RoundTrip.cert : Statement .cert :=
  of_none rfl
theorem Laws.RoundTrip.reset : Statement .reset :=
  of_none rfl
theorem Laws.RoundTrip.powerGood : Statement .powerGood :=
  of_none rfl
theorem Laws.RoundTrip.firmwareVerification : Statement .firmwareVerification :=
  of_none rfl
theorem Laws.RoundTrip.hbmTrainingComplete : Statement .hbmTrainingComplete :=
  of_none rfl
theorem Laws.RoundTrip.earlyToFull : Statement .earlyToFull :=
  of_none rfl
theorem Laws.RoundTrip.thermalThrottle : Statement .thermalThrottle :=
  of_none rfl
theorem Laws.RoundTrip.thermalShutdown : Statement .thermalShutdown :=
  of_none rfl
theorem Laws.RoundTrip.patrolScrub (addr : Nat) (bad : Bool) : Statement (.patrolScrub addr bad) :=
  of_none rfl
theorem Laws.RoundTrip.softErrorThreshold : Statement .softErrorThreshold :=
  of_none rfl
theorem Laws.RoundTrip.governorWindow (cl : BitVec 8) : Statement (.governorWindow cl) :=
  of_none rfl
theorem Laws.RoundTrip.freeze (n : Nat) : Statement (.freeze n) :=
  of_none rfl
theorem Laws.RoundTrip.release (n : Nat) : Statement (.release n) :=
  of_none rfl
theorem Laws.RoundTrip.preempt (n : Nat) : Statement (.preempt n) :=
  of_none rfl
theorem Laws.RoundTrip.preemptGraceEnd (cl : BitVec 8) : Statement (.preemptGraceEnd cl) :=
  of_none rfl
theorem Laws.RoundTrip.restore (n : Nat) : Statement (.restore n) :=
  of_none rfl
theorem Laws.RoundTrip.resume (n : Nat) : Statement (.resume n) :=
  of_none rfl
theorem Laws.RoundTrip.ready (n : Nat) : Statement (.ready n) :=
  of_none rfl
theorem Laws.RoundTrip.open_ (n : Nat) : Statement (.open_ n) :=
  of_none rfl
theorem Laws.RoundTrip.abort (n : Nat) : Statement (.abort n) :=
  of_none rfl
theorem Laws.RoundTrip.qreport (n : Nat) : Statement (.qreport n) :=
  of_none rfl
theorem Laws.RoundTrip.retire (n : Nat) : Statement (.retire n) :=
  of_none rfl
theorem Laws.RoundTrip.tlh (n : Nat) : Statement (.tlh n) :=
  of_none rfl
theorem Laws.RoundTrip.cfgw (n : Nat) : Statement (.cfgw n) :=
  of_none rfl
theorem Laws.RoundTrip.papply (n : Nat) : Statement (.papply n) :=
  of_none rfl
theorem Laws.RoundTrip.bistCompletion (clok : BitVec 9) (failed : Bool) : Statement (.bistCompletion clok failed) :=
  of_none rfl
theorem Laws.RoundTrip.trainingFailure (tier : DramTier) : Statement (.trainingFailure tier) :=
  of_none rfl
theorem Laws.RoundTrip.linkRetrained (link : BitVec 6) : Statement (.linkRetrained link) :=
  of_none rfl
theorem Laws.RoundTrip.completedTransactionCacheExpiry (n : Nat) : Statement (.completedTransactionCacheExpiry n) :=
  of_none rfl
theorem Laws.RoundTrip.thermalThrottleEnd : Statement .thermalThrottleEnd :=
  of_none rfl
theorem Laws.RoundTrip.powerFail : Statement .powerFail :=
  of_none rfl

end Sys2Proof
end

