-- ==== Sys2Proof/Laws/Thread.lean ====
section
/-! SUPPORT. Laws of a thread: what each operation on it leaves as it was, one line for each field, and what the registers
and the program counter hold after it. -/

namespace Sys2Proof.Machine

@[simp] theorem Thread.count_s (th : Thread) : (th.count).s = th.s := rfl
@[simp] theorem Thread.count_v (th : Thread) : (th.count).v = th.v := rfl
@[simp] theorem Thread.count_q (th : Thread) : (th.count).q = th.q := rfl
@[simp] theorem Thread.count_pc (th : Thread) : (th.count).pc = th.pc := rfl
@[simp] theorem Thread.count_fflags (th : Thread) : (th.count).fflags = th.fflags := rfl
@[simp] theorem Thread.count_frm (th : Thread) : (th.count).frm = th.frm := rfl
@[simp] theorem Thread.count_split (th : Thread) : (th.count).split = th.split := rfl
@[simp] theorem Thread.count_trap (th : Thread) : (th.count).trap = th.trap := rfl
@[simp] theorem Thread.count_ine (th : Thread) : (th.count).ine = th.ine := rfl
@[simp] theorem Thread.count_oov (th : Thread) : (th.count).oov = th.oov := rfl
@[simp] theorem Thread.count_lact (th : Thread) : (th.count).lact = th.lact := rfl
@[simp] theorem Thread.count_llen (th : Thread) : (th.count).llen = th.llen := rfl
@[simp] theorem Thread.count_lstart (th : Thread) : (th.count).lstart = th.lstart := rfl
@[simp] theorem Thread.count_lcnt (th : Thread) : (th.count).lcnt = th.lcnt := rfl
@[simp] theorem Thread.count_tcause (th : Thread) : (th.count).tcause = th.tcause := rfl
@[simp] theorem Thread.count_taddr (th : Thread) : (th.count).taddr = th.taddr := rfl
@[simp] theorem Thread.count_tepc (th : Thread) : (th.count).tepc = th.tepc := rfl
@[simp] theorem Thread.count_opens (th : Thread) : (th.count).opens = th.opens := rfl
@[simp] theorem Thread.count_inst (th : Thread) : (th.count).inst = th.inst := rfl
@[simp] theorem Thread.count_msg (th : Thread) : (th.count).msg = th.msg := rfl
@[simp] theorem Thread.count_popped (th : Thread) : (th.count).popped = th.popped := rfl
@[simp] theorem Thread.count_out (th : Thread) : (th.count).out = th.out := rfl
@[simp] theorem Thread.count_buf (th : Thread) : (th.count).buf = th.buf := rfl
@[simp] theorem Thread.count_held (th : Thread) : (th.count).held = th.held := rfl
@[simp] theorem Thread.count_commits (th : Thread) : (th.count).commits = th.commits := rfl
@[simp] theorem Thread.count_reads (th : Thread) : (th.count).reads = th.reads := rfl
@[simp] theorem Thread.count_wrs (th : Thread) : (th.count).wrs = th.wrs := rfl
@[simp] theorem Thread.count_block (th : Thread) : (th.count).block = th.block := rfl
@[simp] theorem Thread.count_ovf (th : Thread) : (th.count).ovf = th.ovf := rfl
@[simp] theorem Thread.count_pend (th : Thread) : (th.count).pend = th.pend := rfl

@[simp] theorem Thread.advance_s (th : Thread) (n : Nat) : (th.advance n).s = th.s := by
  unfold Thread.advance; dsimp only; (repeat' split) <;> rfl
@[simp] theorem Thread.advance_v (th : Thread) (n : Nat) : (th.advance n).v = th.v := by
  unfold Thread.advance; dsimp only; (repeat' split) <;> rfl
@[simp] theorem Thread.advance_q (th : Thread) (n : Nat) : (th.advance n).q = th.q := by
  unfold Thread.advance; dsimp only; (repeat' split) <;> rfl
@[simp] theorem Thread.advance_fflags (th : Thread) (n : Nat) : (th.advance n).fflags = th.fflags := by
  unfold Thread.advance; dsimp only; (repeat' split) <;> rfl
@[simp] theorem Thread.advance_frm (th : Thread) (n : Nat) : (th.advance n).frm = th.frm := by
  unfold Thread.advance; dsimp only; (repeat' split) <;> rfl
@[simp] theorem Thread.advance_split (th : Thread) (n : Nat) : (th.advance n).split = th.split := by
  unfold Thread.advance; dsimp only; (repeat' split) <;> rfl
@[simp] theorem Thread.advance_trap (th : Thread) (n : Nat) : (th.advance n).trap = th.trap := by
  unfold Thread.advance; dsimp only; (repeat' split) <;> rfl
@[simp] theorem Thread.advance_ine (th : Thread) (n : Nat) : (th.advance n).ine = th.ine := by
  unfold Thread.advance; dsimp only; (repeat' split) <;> rfl
@[simp] theorem Thread.advance_oov (th : Thread) (n : Nat) : (th.advance n).oov = th.oov := by
  unfold Thread.advance; dsimp only; (repeat' split) <;> rfl
@[simp] theorem Thread.advance_llen (th : Thread) (n : Nat) : (th.advance n).llen = th.llen := by
  unfold Thread.advance; dsimp only; (repeat' split) <;> rfl
@[simp] theorem Thread.advance_lstart (th : Thread) (n : Nat) : (th.advance n).lstart = th.lstart := by
  unfold Thread.advance; dsimp only; (repeat' split) <;> rfl
@[simp] theorem Thread.advance_tcause (th : Thread) (n : Nat) : (th.advance n).tcause = th.tcause := by
  unfold Thread.advance; dsimp only; (repeat' split) <;> rfl
@[simp] theorem Thread.advance_taddr (th : Thread) (n : Nat) : (th.advance n).taddr = th.taddr := by
  unfold Thread.advance; dsimp only; (repeat' split) <;> rfl
@[simp] theorem Thread.advance_tepc (th : Thread) (n : Nat) : (th.advance n).tepc = th.tepc := by
  unfold Thread.advance; dsimp only; (repeat' split) <;> rfl
@[simp] theorem Thread.advance_opens (th : Thread) (n : Nat) : (th.advance n).opens = th.opens := by
  unfold Thread.advance; dsimp only; (repeat' split) <;> rfl
@[simp] theorem Thread.advance_inst (th : Thread) (n : Nat) : (th.advance n).inst = th.inst := by
  unfold Thread.advance; dsimp only; (repeat' split) <;> rfl
@[simp] theorem Thread.advance_msg (th : Thread) (n : Nat) : (th.advance n).msg = th.msg := by
  unfold Thread.advance; dsimp only; (repeat' split) <;> rfl
@[simp] theorem Thread.advance_popped (th : Thread) (n : Nat) : (th.advance n).popped = th.popped := by
  unfold Thread.advance; dsimp only; (repeat' split) <;> rfl
@[simp] theorem Thread.advance_out (th : Thread) (n : Nat) : (th.advance n).out = th.out := by
  unfold Thread.advance; dsimp only; (repeat' split) <;> rfl
@[simp] theorem Thread.advance_buf (th : Thread) (n : Nat) : (th.advance n).buf = th.buf := by
  unfold Thread.advance; dsimp only; (repeat' split) <;> rfl
@[simp] theorem Thread.advance_held (th : Thread) (n : Nat) : (th.advance n).held = th.held := by
  unfold Thread.advance; dsimp only; (repeat' split) <;> rfl
@[simp] theorem Thread.advance_commits (th : Thread) (n : Nat) : (th.advance n).commits = th.commits := by
  unfold Thread.advance; dsimp only; (repeat' split) <;> rfl
@[simp] theorem Thread.advance_reads (th : Thread) (n : Nat) : (th.advance n).reads = th.reads := by
  unfold Thread.advance; dsimp only; (repeat' split) <;> rfl
@[simp] theorem Thread.advance_wrs (th : Thread) (n : Nat) : (th.advance n).wrs = th.wrs := by
  unfold Thread.advance; dsimp only; (repeat' split) <;> rfl
@[simp] theorem Thread.advance_block (th : Thread) (n : Nat) : (th.advance n).block = th.block := by
  unfold Thread.advance; dsimp only; (repeat' split) <;> rfl
@[simp] theorem Thread.advance_ovf (th : Thread) (n : Nat) : (th.advance n).ovf = th.ovf := by
  unfold Thread.advance; dsimp only; (repeat' split) <;> rfl
@[simp] theorem Thread.advance_pend (th : Thread) (n : Nat) : (th.advance n).pend = th.pend := by
  unfold Thread.advance; dsimp only; (repeat' split) <;> rfl

@[simp] theorem Thread.jump_s (th : Thread) (t : Word) : (th.jump t).s = th.s := rfl
@[simp] theorem Thread.jump_v (th : Thread) (t : Word) : (th.jump t).v = th.v := rfl
@[simp] theorem Thread.jump_q (th : Thread) (t : Word) : (th.jump t).q = th.q := rfl
@[simp] theorem Thread.jump_fflags (th : Thread) (t : Word) : (th.jump t).fflags = th.fflags := rfl
@[simp] theorem Thread.jump_frm (th : Thread) (t : Word) : (th.jump t).frm = th.frm := rfl
@[simp] theorem Thread.jump_split (th : Thread) (t : Word) : (th.jump t).split = th.split := rfl
@[simp] theorem Thread.jump_trap (th : Thread) (t : Word) : (th.jump t).trap = th.trap := rfl
@[simp] theorem Thread.jump_ine (th : Thread) (t : Word) : (th.jump t).ine = th.ine := rfl
@[simp] theorem Thread.jump_oov (th : Thread) (t : Word) : (th.jump t).oov = th.oov := rfl
@[simp] theorem Thread.jump_llen (th : Thread) (t : Word) : (th.jump t).llen = th.llen := rfl
@[simp] theorem Thread.jump_lstart (th : Thread) (t : Word) : (th.jump t).lstart = th.lstart := rfl
@[simp] theorem Thread.jump_lcnt (th : Thread) (t : Word) : (th.jump t).lcnt = th.lcnt := rfl
@[simp] theorem Thread.jump_tcause (th : Thread) (t : Word) : (th.jump t).tcause = th.tcause := rfl
@[simp] theorem Thread.jump_taddr (th : Thread) (t : Word) : (th.jump t).taddr = th.taddr := rfl
@[simp] theorem Thread.jump_tepc (th : Thread) (t : Word) : (th.jump t).tepc = th.tepc := rfl
@[simp] theorem Thread.jump_opens (th : Thread) (t : Word) : (th.jump t).opens = th.opens := rfl
@[simp] theorem Thread.jump_inst (th : Thread) (t : Word) : (th.jump t).inst = th.inst := rfl
@[simp] theorem Thread.jump_msg (th : Thread) (t : Word) : (th.jump t).msg = th.msg := rfl
@[simp] theorem Thread.jump_popped (th : Thread) (t : Word) : (th.jump t).popped = th.popped := rfl
@[simp] theorem Thread.jump_out (th : Thread) (t : Word) : (th.jump t).out = th.out := rfl
@[simp] theorem Thread.jump_buf (th : Thread) (t : Word) : (th.jump t).buf = th.buf := rfl
@[simp] theorem Thread.jump_held (th : Thread) (t : Word) : (th.jump t).held = th.held := rfl
@[simp] theorem Thread.jump_commits (th : Thread) (t : Word) : (th.jump t).commits = th.commits := rfl
@[simp] theorem Thread.jump_reads (th : Thread) (t : Word) : (th.jump t).reads = th.reads := rfl
@[simp] theorem Thread.jump_wrs (th : Thread) (t : Word) : (th.jump t).wrs = th.wrs := rfl
@[simp] theorem Thread.jump_block (th : Thread) (t : Word) : (th.jump t).block = th.block := rfl
@[simp] theorem Thread.jump_ovf (th : Thread) (t : Word) : (th.jump t).ovf = th.ovf := rfl
@[simp] theorem Thread.jump_pend (th : Thread) (t : Word) : (th.jump t).pend = th.pend := rfl

@[simp] theorem Thread.push_s (th : Thread) (x : Word) : (th.push x).s = th.s := by
  unfold Thread.push; split <;> rfl
@[simp] theorem Thread.push_v (th : Thread) (x : Word) : (th.push x).v = th.v := by
  unfold Thread.push; split <;> rfl
@[simp] theorem Thread.push_q (th : Thread) (x : Word) : (th.push x).q = th.q := by
  unfold Thread.push; split <;> rfl
@[simp] theorem Thread.push_pc (th : Thread) (x : Word) : (th.push x).pc = th.pc := by
  unfold Thread.push; split <;> rfl
@[simp] theorem Thread.push_fflags (th : Thread) (x : Word) : (th.push x).fflags = th.fflags := by
  unfold Thread.push; split <;> rfl
@[simp] theorem Thread.push_frm (th : Thread) (x : Word) : (th.push x).frm = th.frm := by
  unfold Thread.push; split <;> rfl
@[simp] theorem Thread.push_split (th : Thread) (x : Word) : (th.push x).split = th.split := by
  unfold Thread.push; split <;> rfl
@[simp] theorem Thread.push_trap (th : Thread) (x : Word) : (th.push x).trap = th.trap := by
  unfold Thread.push; split <;> rfl
@[simp] theorem Thread.push_ine (th : Thread) (x : Word) : (th.push x).ine = th.ine := by
  unfold Thread.push; split <;> rfl
@[simp] theorem Thread.push_lact (th : Thread) (x : Word) : (th.push x).lact = th.lact := by
  unfold Thread.push; split <;> rfl
@[simp] theorem Thread.push_llen (th : Thread) (x : Word) : (th.push x).llen = th.llen := by
  unfold Thread.push; split <;> rfl
@[simp] theorem Thread.push_lstart (th : Thread) (x : Word) : (th.push x).lstart = th.lstart := by
  unfold Thread.push; split <;> rfl
@[simp] theorem Thread.push_lcnt (th : Thread) (x : Word) : (th.push x).lcnt = th.lcnt := by
  unfold Thread.push; split <;> rfl
@[simp] theorem Thread.push_tcause (th : Thread) (x : Word) : (th.push x).tcause = th.tcause := by
  unfold Thread.push; split <;> rfl
@[simp] theorem Thread.push_taddr (th : Thread) (x : Word) : (th.push x).taddr = th.taddr := by
  unfold Thread.push; split <;> rfl
@[simp] theorem Thread.push_tepc (th : Thread) (x : Word) : (th.push x).tepc = th.tepc := by
  unfold Thread.push; split <;> rfl
@[simp] theorem Thread.push_instret (th : Thread) (x : Word) : (th.push x).instret = th.instret := by
  unfold Thread.push; split <;> rfl
@[simp] theorem Thread.push_wdog (th : Thread) (x : Word) : (th.push x).wdog = th.wdog := by
  unfold Thread.push; split <;> rfl
@[simp] theorem Thread.push_run (th : Thread) (x : Word) : (th.push x).run = th.run := by
  unfold Thread.push; split <;> rfl
@[simp] theorem Thread.push_opens (th : Thread) (x : Word) : (th.push x).opens = th.opens := by
  unfold Thread.push; split <;> rfl
@[simp] theorem Thread.push_inst (th : Thread) (x : Word) : (th.push x).inst = th.inst := by
  unfold Thread.push; split <;> rfl
@[simp] theorem Thread.push_msg (th : Thread) (x : Word) : (th.push x).msg = th.msg := by
  unfold Thread.push; split <;> rfl
@[simp] theorem Thread.push_popped (th : Thread) (x : Word) : (th.push x).popped = th.popped := by
  unfold Thread.push; split <;> rfl
@[simp] theorem Thread.push_buf (th : Thread) (x : Word) : (th.push x).buf = th.buf := by
  unfold Thread.push; split <;> rfl
@[simp] theorem Thread.push_held (th : Thread) (x : Word) : (th.push x).held = th.held := by
  unfold Thread.push; split <;> rfl
@[simp] theorem Thread.push_commits (th : Thread) (x : Word) : (th.push x).commits = th.commits := by
  unfold Thread.push; split <;> rfl
@[simp] theorem Thread.push_reads (th : Thread) (x : Word) : (th.push x).reads = th.reads := by
  unfold Thread.push; split <;> rfl
@[simp] theorem Thread.push_wrs (th : Thread) (x : Word) : (th.push x).wrs = th.wrs := by
  unfold Thread.push; split <;> rfl
@[simp] theorem Thread.push_block (th : Thread) (x : Word) : (th.push x).block = th.block := by
  unfold Thread.push; split <;> rfl
@[simp] theorem Thread.push_begun (th : Thread) (x : Word) : (th.push x).begun = th.begun := by
  unfold Thread.push; split <;> rfl
@[simp] theorem Thread.push_lanes (th : Thread) (x : Word) : (th.push x).lanes = th.lanes := by
  unfold Thread.push; split <;> rfl
@[simp] theorem Thread.push_skip (th : Thread) (x : Word) : (th.push x).skip = th.skip := by
  unfold Thread.push; split <;> rfl
@[simp] theorem Thread.push_ovf (th : Thread) (x : Word) : (th.push x).ovf = th.ovf := by
  unfold Thread.push; split <;> rfl
@[simp] theorem Thread.push_pend (th : Thread) (x : Word) : (th.push x).pend = th.pend := by
  unfold Thread.push; split <;> rfl

@[simp] theorem Thread.setReg_v (th : Thread) (r : SReg) (x : Word) : (th.setReg r x).v = th.v := rfl
@[simp] theorem Thread.setReg_q (th : Thread) (r : SReg) (x : Word) : (th.setReg r x).q = th.q := rfl
@[simp] theorem Thread.setReg_pc (th : Thread) (r : SReg) (x : Word) : (th.setReg r x).pc = th.pc := rfl
@[simp] theorem Thread.setReg_fflags (th : Thread) (r : SReg) (x : Word) : (th.setReg r x).fflags = th.fflags := rfl
@[simp] theorem Thread.setReg_frm (th : Thread) (r : SReg) (x : Word) : (th.setReg r x).frm = th.frm := rfl
@[simp] theorem Thread.setReg_split (th : Thread) (r : SReg) (x : Word) : (th.setReg r x).split = th.split := rfl
@[simp] theorem Thread.setReg_trap (th : Thread) (r : SReg) (x : Word) : (th.setReg r x).trap = th.trap := rfl
@[simp] theorem Thread.setReg_ine (th : Thread) (r : SReg) (x : Word) : (th.setReg r x).ine = th.ine := rfl
@[simp] theorem Thread.setReg_oov (th : Thread) (r : SReg) (x : Word) : (th.setReg r x).oov = th.oov := rfl
@[simp] theorem Thread.setReg_lact (th : Thread) (r : SReg) (x : Word) : (th.setReg r x).lact = th.lact := rfl
@[simp] theorem Thread.setReg_llen (th : Thread) (r : SReg) (x : Word) : (th.setReg r x).llen = th.llen := rfl
@[simp] theorem Thread.setReg_lstart (th : Thread) (r : SReg) (x : Word) : (th.setReg r x).lstart = th.lstart := rfl
@[simp] theorem Thread.setReg_lcnt (th : Thread) (r : SReg) (x : Word) : (th.setReg r x).lcnt = th.lcnt := rfl
@[simp] theorem Thread.setReg_tcause (th : Thread) (r : SReg) (x : Word) : (th.setReg r x).tcause = th.tcause := rfl
@[simp] theorem Thread.setReg_taddr (th : Thread) (r : SReg) (x : Word) : (th.setReg r x).taddr = th.taddr := rfl
@[simp] theorem Thread.setReg_tepc (th : Thread) (r : SReg) (x : Word) : (th.setReg r x).tepc = th.tepc := rfl
@[simp] theorem Thread.setReg_instret (th : Thread) (r : SReg) (x : Word) : (th.setReg r x).instret = th.instret := rfl
@[simp] theorem Thread.setReg_wdog (th : Thread) (r : SReg) (x : Word) : (th.setReg r x).wdog = th.wdog := rfl
@[simp] theorem Thread.setReg_run (th : Thread) (r : SReg) (x : Word) : (th.setReg r x).run = th.run := rfl
@[simp] theorem Thread.setReg_opens (th : Thread) (r : SReg) (x : Word) : (th.setReg r x).opens = th.opens := rfl
@[simp] theorem Thread.setReg_inst (th : Thread) (r : SReg) (x : Word) : (th.setReg r x).inst = th.inst := rfl
@[simp] theorem Thread.setReg_msg (th : Thread) (r : SReg) (x : Word) : (th.setReg r x).msg = th.msg := rfl
@[simp] theorem Thread.setReg_popped (th : Thread) (r : SReg) (x : Word) : (th.setReg r x).popped = th.popped := rfl
@[simp] theorem Thread.setReg_out (th : Thread) (r : SReg) (x : Word) : (th.setReg r x).out = th.out := rfl
@[simp] theorem Thread.setReg_buf (th : Thread) (r : SReg) (x : Word) : (th.setReg r x).buf = th.buf := rfl
@[simp] theorem Thread.setReg_held (th : Thread) (r : SReg) (x : Word) : (th.setReg r x).held = th.held := rfl
@[simp] theorem Thread.setReg_commits (th : Thread) (r : SReg) (x : Word) : (th.setReg r x).commits = th.commits := rfl
@[simp] theorem Thread.setReg_reads (th : Thread) (r : SReg) (x : Word) : (th.setReg r x).reads = th.reads := rfl
@[simp] theorem Thread.setReg_wrs (th : Thread) (r : SReg) (x : Word) : (th.setReg r x).wrs = th.wrs := rfl
@[simp] theorem Thread.setReg_block (th : Thread) (r : SReg) (x : Word) : (th.setReg r x).block = th.block := rfl
@[simp] theorem Thread.setReg_begun (th : Thread) (r : SReg) (x : Word) : (th.setReg r x).begun = th.begun := rfl
@[simp] theorem Thread.setReg_lanes (th : Thread) (r : SReg) (x : Word) : (th.setReg r x).lanes = th.lanes := rfl
@[simp] theorem Thread.setReg_skip (th : Thread) (r : SReg) (x : Word) : (th.setReg r x).skip = th.skip := rfl
@[simp] theorem Thread.setReg_ovf (th : Thread) (r : SReg) (x : Word) : (th.setReg r x).ovf = th.ovf := rfl
@[simp] theorem Thread.setReg_pend (th : Thread) (r : SReg) (x : Word) : (th.setReg r x).pend = th.pend := rfl

@[simp] theorem Thread.wr_v (th : Thread) (r : SReg) (x : Word) : (th.wr r x).v = th.v := by
  unfold Thread.wr; (repeat' split) <;> simp
@[simp] theorem Thread.wr_q (th : Thread) (r : SReg) (x : Word) : (th.wr r x).q = th.q := by
  unfold Thread.wr; (repeat' split) <;> simp
@[simp] theorem Thread.wr_pc (th : Thread) (r : SReg) (x : Word) : (th.wr r x).pc = th.pc := by
  unfold Thread.wr; (repeat' split) <;> simp
@[simp] theorem Thread.wr_fflags (th : Thread) (r : SReg) (x : Word) : (th.wr r x).fflags = th.fflags := by
  unfold Thread.wr; (repeat' split) <;> simp
@[simp] theorem Thread.wr_frm (th : Thread) (r : SReg) (x : Word) : (th.wr r x).frm = th.frm := by
  unfold Thread.wr; (repeat' split) <;> simp
@[simp] theorem Thread.wr_split (th : Thread) (r : SReg) (x : Word) : (th.wr r x).split = th.split := by
  unfold Thread.wr; (repeat' split) <;> simp
@[simp] theorem Thread.wr_trap (th : Thread) (r : SReg) (x : Word) : (th.wr r x).trap = th.trap := by
  unfold Thread.wr; (repeat' split) <;> simp
@[simp] theorem Thread.wr_ine (th : Thread) (r : SReg) (x : Word) : (th.wr r x).ine = th.ine := by
  unfold Thread.wr; (repeat' split) <;> simp
@[simp] theorem Thread.wr_lact (th : Thread) (r : SReg) (x : Word) : (th.wr r x).lact = th.lact := by
  unfold Thread.wr; (repeat' split) <;> simp
@[simp] theorem Thread.wr_llen (th : Thread) (r : SReg) (x : Word) : (th.wr r x).llen = th.llen := by
  unfold Thread.wr; (repeat' split) <;> simp
@[simp] theorem Thread.wr_lstart (th : Thread) (r : SReg) (x : Word) : (th.wr r x).lstart = th.lstart := by
  unfold Thread.wr; (repeat' split) <;> simp
@[simp] theorem Thread.wr_lcnt (th : Thread) (r : SReg) (x : Word) : (th.wr r x).lcnt = th.lcnt := by
  unfold Thread.wr; (repeat' split) <;> simp
@[simp] theorem Thread.wr_tcause (th : Thread) (r : SReg) (x : Word) : (th.wr r x).tcause = th.tcause := by
  unfold Thread.wr; (repeat' split) <;> simp
@[simp] theorem Thread.wr_taddr (th : Thread) (r : SReg) (x : Word) : (th.wr r x).taddr = th.taddr := by
  unfold Thread.wr; (repeat' split) <;> simp
@[simp] theorem Thread.wr_tepc (th : Thread) (r : SReg) (x : Word) : (th.wr r x).tepc = th.tepc := by
  unfold Thread.wr; (repeat' split) <;> simp
@[simp] theorem Thread.wr_instret (th : Thread) (r : SReg) (x : Word) : (th.wr r x).instret = th.instret := by
  unfold Thread.wr; (repeat' split) <;> simp
@[simp] theorem Thread.wr_wdog (th : Thread) (r : SReg) (x : Word) : (th.wr r x).wdog = th.wdog := by
  unfold Thread.wr; (repeat' split) <;> simp
@[simp] theorem Thread.wr_run (th : Thread) (r : SReg) (x : Word) : (th.wr r x).run = th.run := by
  unfold Thread.wr; (repeat' split) <;> simp
@[simp] theorem Thread.wr_opens (th : Thread) (r : SReg) (x : Word) : (th.wr r x).opens = th.opens := by
  unfold Thread.wr; (repeat' split) <;> simp
@[simp] theorem Thread.wr_inst (th : Thread) (r : SReg) (x : Word) : (th.wr r x).inst = th.inst := by
  unfold Thread.wr; (repeat' split) <;> simp
@[simp] theorem Thread.wr_msg (th : Thread) (r : SReg) (x : Word) : (th.wr r x).msg = th.msg := by
  unfold Thread.wr; (repeat' split) <;> simp
@[simp] theorem Thread.wr_popped (th : Thread) (r : SReg) (x : Word) : (th.wr r x).popped = th.popped := by
  unfold Thread.wr; (repeat' split) <;> simp
@[simp] theorem Thread.wr_buf (th : Thread) (r : SReg) (x : Word) : (th.wr r x).buf = th.buf := by
  unfold Thread.wr; (repeat' split) <;> simp
@[simp] theorem Thread.wr_held (th : Thread) (r : SReg) (x : Word) : (th.wr r x).held = th.held := by
  unfold Thread.wr; (repeat' split) <;> simp
@[simp] theorem Thread.wr_commits (th : Thread) (r : SReg) (x : Word) : (th.wr r x).commits = th.commits := by
  unfold Thread.wr; (repeat' split) <;> simp
@[simp] theorem Thread.wr_reads (th : Thread) (r : SReg) (x : Word) : (th.wr r x).reads = th.reads := by
  unfold Thread.wr; (repeat' split) <;> simp
@[simp] theorem Thread.wr_wrs (th : Thread) (r : SReg) (x : Word) : (th.wr r x).wrs = th.wrs := by
  unfold Thread.wr; (repeat' split) <;> simp
@[simp] theorem Thread.wr_block (th : Thread) (r : SReg) (x : Word) : (th.wr r x).block = th.block := by
  unfold Thread.wr; (repeat' split) <;> simp
@[simp] theorem Thread.wr_begun (th : Thread) (r : SReg) (x : Word) : (th.wr r x).begun = th.begun := by
  unfold Thread.wr; (repeat' split) <;> simp
@[simp] theorem Thread.wr_lanes (th : Thread) (r : SReg) (x : Word) : (th.wr r x).lanes = th.lanes := by
  unfold Thread.wr; (repeat' split) <;> simp
@[simp] theorem Thread.wr_skip (th : Thread) (r : SReg) (x : Word) : (th.wr r x).skip = th.skip := by
  unfold Thread.wr; (repeat' split) <;> simp
@[simp] theorem Thread.wr_ovf (th : Thread) (r : SReg) (x : Word) : (th.wr r x).ovf = th.ovf := by
  unfold Thread.wr; (repeat' split) <;> simp
@[simp] theorem Thread.wr_pend (th : Thread) (r : SReg) (x : Word) : (th.wr r x).pend = th.pend := by
  unfold Thread.wr; (repeat' split) <;> simp

@[simp] theorem Thread.setVreg_s (th : Thread) (r : VReg) (x : Vec) : (th.setVreg r x).s = th.s := rfl
@[simp] theorem Thread.setVreg_q (th : Thread) (r : VReg) (x : Vec) : (th.setVreg r x).q = th.q := rfl
@[simp] theorem Thread.setVreg_pc (th : Thread) (r : VReg) (x : Vec) : (th.setVreg r x).pc = th.pc := rfl
@[simp] theorem Thread.setVreg_fflags (th : Thread) (r : VReg) (x : Vec) : (th.setVreg r x).fflags = th.fflags := rfl
@[simp] theorem Thread.setVreg_frm (th : Thread) (r : VReg) (x : Vec) : (th.setVreg r x).frm = th.frm := rfl
@[simp] theorem Thread.setVreg_split (th : Thread) (r : VReg) (x : Vec) : (th.setVreg r x).split = th.split := rfl
@[simp] theorem Thread.setVreg_trap (th : Thread) (r : VReg) (x : Vec) : (th.setVreg r x).trap = th.trap := rfl
@[simp] theorem Thread.setVreg_ine (th : Thread) (r : VReg) (x : Vec) : (th.setVreg r x).ine = th.ine := rfl
@[simp] theorem Thread.setVreg_oov (th : Thread) (r : VReg) (x : Vec) : (th.setVreg r x).oov = th.oov := rfl
@[simp] theorem Thread.setVreg_lact (th : Thread) (r : VReg) (x : Vec) : (th.setVreg r x).lact = th.lact := rfl
@[simp] theorem Thread.setVreg_llen (th : Thread) (r : VReg) (x : Vec) : (th.setVreg r x).llen = th.llen := rfl
@[simp] theorem Thread.setVreg_lstart (th : Thread) (r : VReg) (x : Vec) : (th.setVreg r x).lstart = th.lstart := rfl
@[simp] theorem Thread.setVreg_lcnt (th : Thread) (r : VReg) (x : Vec) : (th.setVreg r x).lcnt = th.lcnt := rfl
@[simp] theorem Thread.setVreg_tcause (th : Thread) (r : VReg) (x : Vec) : (th.setVreg r x).tcause = th.tcause := rfl
@[simp] theorem Thread.setVreg_taddr (th : Thread) (r : VReg) (x : Vec) : (th.setVreg r x).taddr = th.taddr := rfl
@[simp] theorem Thread.setVreg_tepc (th : Thread) (r : VReg) (x : Vec) : (th.setVreg r x).tepc = th.tepc := rfl
@[simp] theorem Thread.setVreg_instret (th : Thread) (r : VReg) (x : Vec) : (th.setVreg r x).instret = th.instret := rfl
@[simp] theorem Thread.setVreg_wdog (th : Thread) (r : VReg) (x : Vec) : (th.setVreg r x).wdog = th.wdog := rfl
@[simp] theorem Thread.setVreg_run (th : Thread) (r : VReg) (x : Vec) : (th.setVreg r x).run = th.run := rfl
@[simp] theorem Thread.setVreg_opens (th : Thread) (r : VReg) (x : Vec) : (th.setVreg r x).opens = th.opens := rfl
@[simp] theorem Thread.setVreg_inst (th : Thread) (r : VReg) (x : Vec) : (th.setVreg r x).inst = th.inst := rfl
@[simp] theorem Thread.setVreg_msg (th : Thread) (r : VReg) (x : Vec) : (th.setVreg r x).msg = th.msg := rfl
@[simp] theorem Thread.setVreg_popped (th : Thread) (r : VReg) (x : Vec) : (th.setVreg r x).popped = th.popped := rfl
@[simp] theorem Thread.setVreg_out (th : Thread) (r : VReg) (x : Vec) : (th.setVreg r x).out = th.out := rfl
@[simp] theorem Thread.setVreg_buf (th : Thread) (r : VReg) (x : Vec) : (th.setVreg r x).buf = th.buf := rfl
@[simp] theorem Thread.setVreg_held (th : Thread) (r : VReg) (x : Vec) : (th.setVreg r x).held = th.held := rfl
@[simp] theorem Thread.setVreg_commits (th : Thread) (r : VReg) (x : Vec) : (th.setVreg r x).commits = th.commits := rfl
@[simp] theorem Thread.setVreg_reads (th : Thread) (r : VReg) (x : Vec) : (th.setVreg r x).reads = th.reads := rfl
@[simp] theorem Thread.setVreg_wrs (th : Thread) (r : VReg) (x : Vec) : (th.setVreg r x).wrs = th.wrs := rfl
@[simp] theorem Thread.setVreg_block (th : Thread) (r : VReg) (x : Vec) : (th.setVreg r x).block = th.block := rfl
@[simp] theorem Thread.setVreg_begun (th : Thread) (r : VReg) (x : Vec) : (th.setVreg r x).begun = th.begun := rfl
@[simp] theorem Thread.setVreg_lanes (th : Thread) (r : VReg) (x : Vec) : (th.setVreg r x).lanes = th.lanes := rfl
@[simp] theorem Thread.setVreg_skip (th : Thread) (r : VReg) (x : Vec) : (th.setVreg r x).skip = th.skip := rfl
@[simp] theorem Thread.setVreg_ovf (th : Thread) (r : VReg) (x : Vec) : (th.setVreg r x).ovf = th.ovf := rfl
@[simp] theorem Thread.setVreg_pend (th : Thread) (r : VReg) (x : Vec) : (th.setVreg r x).pend = th.pend := rfl

@[simp] theorem Thread.setQreg_s (th : Thread) (r : QReg) (x : Byte) : (th.setQreg r x).s = th.s := by
  unfold Thread.setQreg; split <;> rfl
@[simp] theorem Thread.setQreg_v (th : Thread) (r : QReg) (x : Byte) : (th.setQreg r x).v = th.v := by
  unfold Thread.setQreg; split <;> rfl
@[simp] theorem Thread.setQreg_pc (th : Thread) (r : QReg) (x : Byte) : (th.setQreg r x).pc = th.pc := by
  unfold Thread.setQreg; split <;> rfl
@[simp] theorem Thread.setQreg_fflags (th : Thread) (r : QReg) (x : Byte) : (th.setQreg r x).fflags = th.fflags := by
  unfold Thread.setQreg; split <;> rfl
@[simp] theorem Thread.setQreg_frm (th : Thread) (r : QReg) (x : Byte) : (th.setQreg r x).frm = th.frm := by
  unfold Thread.setQreg; split <;> rfl
@[simp] theorem Thread.setQreg_split (th : Thread) (r : QReg) (x : Byte) : (th.setQreg r x).split = th.split := by
  unfold Thread.setQreg; split <;> rfl
@[simp] theorem Thread.setQreg_trap (th : Thread) (r : QReg) (x : Byte) : (th.setQreg r x).trap = th.trap := by
  unfold Thread.setQreg; split <;> rfl
@[simp] theorem Thread.setQreg_ine (th : Thread) (r : QReg) (x : Byte) : (th.setQreg r x).ine = th.ine := by
  unfold Thread.setQreg; split <;> rfl
@[simp] theorem Thread.setQreg_oov (th : Thread) (r : QReg) (x : Byte) : (th.setQreg r x).oov = th.oov := by
  unfold Thread.setQreg; split <;> rfl
@[simp] theorem Thread.setQreg_lact (th : Thread) (r : QReg) (x : Byte) : (th.setQreg r x).lact = th.lact := by
  unfold Thread.setQreg; split <;> rfl
@[simp] theorem Thread.setQreg_llen (th : Thread) (r : QReg) (x : Byte) : (th.setQreg r x).llen = th.llen := by
  unfold Thread.setQreg; split <;> rfl
@[simp] theorem Thread.setQreg_lstart (th : Thread) (r : QReg) (x : Byte) : (th.setQreg r x).lstart = th.lstart := by
  unfold Thread.setQreg; split <;> rfl
@[simp] theorem Thread.setQreg_lcnt (th : Thread) (r : QReg) (x : Byte) : (th.setQreg r x).lcnt = th.lcnt := by
  unfold Thread.setQreg; split <;> rfl
@[simp] theorem Thread.setQreg_tcause (th : Thread) (r : QReg) (x : Byte) : (th.setQreg r x).tcause = th.tcause := by
  unfold Thread.setQreg; split <;> rfl
@[simp] theorem Thread.setQreg_taddr (th : Thread) (r : QReg) (x : Byte) : (th.setQreg r x).taddr = th.taddr := by
  unfold Thread.setQreg; split <;> rfl
@[simp] theorem Thread.setQreg_tepc (th : Thread) (r : QReg) (x : Byte) : (th.setQreg r x).tepc = th.tepc := by
  unfold Thread.setQreg; split <;> rfl
@[simp] theorem Thread.setQreg_instret (th : Thread) (r : QReg) (x : Byte) : (th.setQreg r x).instret = th.instret := by
  unfold Thread.setQreg; split <;> rfl
@[simp] theorem Thread.setQreg_wdog (th : Thread) (r : QReg) (x : Byte) : (th.setQreg r x).wdog = th.wdog := by
  unfold Thread.setQreg; split <;> rfl
@[simp] theorem Thread.setQreg_run (th : Thread) (r : QReg) (x : Byte) : (th.setQreg r x).run = th.run := by
  unfold Thread.setQreg; split <;> rfl
@[simp] theorem Thread.setQreg_opens (th : Thread) (r : QReg) (x : Byte) : (th.setQreg r x).opens = th.opens := by
  unfold Thread.setQreg; split <;> rfl
@[simp] theorem Thread.setQreg_inst (th : Thread) (r : QReg) (x : Byte) : (th.setQreg r x).inst = th.inst := by
  unfold Thread.setQreg; split <;> rfl
@[simp] theorem Thread.setQreg_msg (th : Thread) (r : QReg) (x : Byte) : (th.setQreg r x).msg = th.msg := by
  unfold Thread.setQreg; split <;> rfl
@[simp] theorem Thread.setQreg_popped (th : Thread) (r : QReg) (x : Byte) : (th.setQreg r x).popped = th.popped := by
  unfold Thread.setQreg; split <;> rfl
@[simp] theorem Thread.setQreg_out (th : Thread) (r : QReg) (x : Byte) : (th.setQreg r x).out = th.out := by
  unfold Thread.setQreg; split <;> rfl
@[simp] theorem Thread.setQreg_buf (th : Thread) (r : QReg) (x : Byte) : (th.setQreg r x).buf = th.buf := by
  unfold Thread.setQreg; split <;> rfl
@[simp] theorem Thread.setQreg_held (th : Thread) (r : QReg) (x : Byte) : (th.setQreg r x).held = th.held := by
  unfold Thread.setQreg; split <;> rfl
@[simp] theorem Thread.setQreg_commits (th : Thread) (r : QReg) (x : Byte) : (th.setQreg r x).commits = th.commits := by
  unfold Thread.setQreg; split <;> rfl
@[simp] theorem Thread.setQreg_reads (th : Thread) (r : QReg) (x : Byte) : (th.setQreg r x).reads = th.reads := by
  unfold Thread.setQreg; split <;> rfl
@[simp] theorem Thread.setQreg_wrs (th : Thread) (r : QReg) (x : Byte) : (th.setQreg r x).wrs = th.wrs := by
  unfold Thread.setQreg; split <;> rfl
@[simp] theorem Thread.setQreg_block (th : Thread) (r : QReg) (x : Byte) : (th.setQreg r x).block = th.block := by
  unfold Thread.setQreg; split <;> rfl
@[simp] theorem Thread.setQreg_begun (th : Thread) (r : QReg) (x : Byte) : (th.setQreg r x).begun = th.begun := by
  unfold Thread.setQreg; split <;> rfl
@[simp] theorem Thread.setQreg_lanes (th : Thread) (r : QReg) (x : Byte) : (th.setQreg r x).lanes = th.lanes := by
  unfold Thread.setQreg; split <;> rfl
@[simp] theorem Thread.setQreg_skip (th : Thread) (r : QReg) (x : Byte) : (th.setQreg r x).skip = th.skip := by
  unfold Thread.setQreg; split <;> rfl
@[simp] theorem Thread.setQreg_ovf (th : Thread) (r : QReg) (x : Byte) : (th.setQreg r x).ovf = th.ovf := by
  unfold Thread.setQreg; split <;> rfl
@[simp] theorem Thread.setQreg_pend (th : Thread) (r : QReg) (x : Byte) : (th.setQreg r x).pend = th.pend := by
  unfold Thread.setQreg; split <;> rfl

@[simp] theorem Thread.raise_s (th : Thread) (f : Flags) : (th.raise f).s = th.s := rfl
@[simp] theorem Thread.raise_v (th : Thread) (f : Flags) : (th.raise f).v = th.v := rfl
@[simp] theorem Thread.raise_q (th : Thread) (f : Flags) : (th.raise f).q = th.q := rfl
@[simp] theorem Thread.raise_pc (th : Thread) (f : Flags) : (th.raise f).pc = th.pc := rfl
@[simp] theorem Thread.raise_frm (th : Thread) (f : Flags) : (th.raise f).frm = th.frm := rfl
@[simp] theorem Thread.raise_split (th : Thread) (f : Flags) : (th.raise f).split = th.split := rfl
@[simp] theorem Thread.raise_trap (th : Thread) (f : Flags) : (th.raise f).trap = th.trap := rfl
@[simp] theorem Thread.raise_ine (th : Thread) (f : Flags) : (th.raise f).ine = th.ine := rfl
@[simp] theorem Thread.raise_oov (th : Thread) (f : Flags) : (th.raise f).oov = th.oov := rfl
@[simp] theorem Thread.raise_lact (th : Thread) (f : Flags) : (th.raise f).lact = th.lact := rfl
@[simp] theorem Thread.raise_llen (th : Thread) (f : Flags) : (th.raise f).llen = th.llen := rfl
@[simp] theorem Thread.raise_lstart (th : Thread) (f : Flags) : (th.raise f).lstart = th.lstart := rfl
@[simp] theorem Thread.raise_lcnt (th : Thread) (f : Flags) : (th.raise f).lcnt = th.lcnt := rfl
@[simp] theorem Thread.raise_tcause (th : Thread) (f : Flags) : (th.raise f).tcause = th.tcause := rfl
@[simp] theorem Thread.raise_taddr (th : Thread) (f : Flags) : (th.raise f).taddr = th.taddr := rfl
@[simp] theorem Thread.raise_tepc (th : Thread) (f : Flags) : (th.raise f).tepc = th.tepc := rfl
@[simp] theorem Thread.raise_instret (th : Thread) (f : Flags) : (th.raise f).instret = th.instret := rfl
@[simp] theorem Thread.raise_wdog (th : Thread) (f : Flags) : (th.raise f).wdog = th.wdog := rfl
@[simp] theorem Thread.raise_run (th : Thread) (f : Flags) : (th.raise f).run = th.run := rfl
@[simp] theorem Thread.raise_opens (th : Thread) (f : Flags) : (th.raise f).opens = th.opens := rfl
@[simp] theorem Thread.raise_inst (th : Thread) (f : Flags) : (th.raise f).inst = th.inst := rfl
@[simp] theorem Thread.raise_msg (th : Thread) (f : Flags) : (th.raise f).msg = th.msg := rfl
@[simp] theorem Thread.raise_popped (th : Thread) (f : Flags) : (th.raise f).popped = th.popped := rfl
@[simp] theorem Thread.raise_out (th : Thread) (f : Flags) : (th.raise f).out = th.out := rfl
@[simp] theorem Thread.raise_buf (th : Thread) (f : Flags) : (th.raise f).buf = th.buf := rfl
@[simp] theorem Thread.raise_held (th : Thread) (f : Flags) : (th.raise f).held = th.held := rfl
@[simp] theorem Thread.raise_commits (th : Thread) (f : Flags) : (th.raise f).commits = th.commits := rfl
@[simp] theorem Thread.raise_reads (th : Thread) (f : Flags) : (th.raise f).reads = th.reads := rfl
@[simp] theorem Thread.raise_wrs (th : Thread) (f : Flags) : (th.raise f).wrs = th.wrs := rfl
@[simp] theorem Thread.raise_block (th : Thread) (f : Flags) : (th.raise f).block = th.block := rfl
@[simp] theorem Thread.raise_begun (th : Thread) (f : Flags) : (th.raise f).begun = th.begun := rfl
@[simp] theorem Thread.raise_lanes (th : Thread) (f : Flags) : (th.raise f).lanes = th.lanes := rfl
@[simp] theorem Thread.raise_skip (th : Thread) (f : Flags) : (th.raise f).skip = th.skip := rfl
@[simp] theorem Thread.raise_ovf (th : Thread) (f : Flags) : (th.raise f).ovf = th.ovf := rfl
@[simp] theorem Thread.raise_pend (th : Thread) (f : Flags) : (th.raise f).pend = th.pend := rfl

@[simp] theorem Thread.pop_s (th : Thread) : (th.pop).2.s = th.s := by
  unfold Thread.pop; (repeat' split) <;> rfl
@[simp] theorem Thread.pop_v (th : Thread) : (th.pop).2.v = th.v := by
  unfold Thread.pop; (repeat' split) <;> rfl
@[simp] theorem Thread.pop_q (th : Thread) : (th.pop).2.q = th.q := by
  unfold Thread.pop; (repeat' split) <;> rfl
@[simp] theorem Thread.pop_pc (th : Thread) : (th.pop).2.pc = th.pc := by
  unfold Thread.pop; (repeat' split) <;> rfl
@[simp] theorem Thread.pop_fflags (th : Thread) : (th.pop).2.fflags = th.fflags := by
  unfold Thread.pop; (repeat' split) <;> rfl
@[simp] theorem Thread.pop_frm (th : Thread) : (th.pop).2.frm = th.frm := by
  unfold Thread.pop; (repeat' split) <;> rfl
@[simp] theorem Thread.pop_split (th : Thread) : (th.pop).2.split = th.split := by
  unfold Thread.pop; (repeat' split) <;> rfl
@[simp] theorem Thread.pop_trap (th : Thread) : (th.pop).2.trap = th.trap := by
  unfold Thread.pop; (repeat' split) <;> rfl
@[simp] theorem Thread.pop_oov (th : Thread) : (th.pop).2.oov = th.oov := by
  unfold Thread.pop; (repeat' split) <;> rfl
@[simp] theorem Thread.pop_lact (th : Thread) : (th.pop).2.lact = th.lact := by
  unfold Thread.pop; (repeat' split) <;> rfl
@[simp] theorem Thread.pop_llen (th : Thread) : (th.pop).2.llen = th.llen := by
  unfold Thread.pop; (repeat' split) <;> rfl
@[simp] theorem Thread.pop_lstart (th : Thread) : (th.pop).2.lstart = th.lstart := by
  unfold Thread.pop; (repeat' split) <;> rfl
@[simp] theorem Thread.pop_lcnt (th : Thread) : (th.pop).2.lcnt = th.lcnt := by
  unfold Thread.pop; (repeat' split) <;> rfl
@[simp] theorem Thread.pop_tcause (th : Thread) : (th.pop).2.tcause = th.tcause := by
  unfold Thread.pop; (repeat' split) <;> rfl
@[simp] theorem Thread.pop_taddr (th : Thread) : (th.pop).2.taddr = th.taddr := by
  unfold Thread.pop; (repeat' split) <;> rfl
@[simp] theorem Thread.pop_tepc (th : Thread) : (th.pop).2.tepc = th.tepc := by
  unfold Thread.pop; (repeat' split) <;> rfl
@[simp] theorem Thread.pop_instret (th : Thread) : (th.pop).2.instret = th.instret := by
  unfold Thread.pop; (repeat' split) <;> rfl
@[simp] theorem Thread.pop_wdog (th : Thread) : (th.pop).2.wdog = th.wdog := by
  unfold Thread.pop; (repeat' split) <;> rfl
@[simp] theorem Thread.pop_run (th : Thread) : (th.pop).2.run = th.run := by
  unfold Thread.pop; (repeat' split) <;> rfl
@[simp] theorem Thread.pop_opens (th : Thread) : (th.pop).2.opens = th.opens := by
  unfold Thread.pop; (repeat' split) <;> rfl
@[simp] theorem Thread.pop_inst (th : Thread) : (th.pop).2.inst = th.inst := by
  unfold Thread.pop; (repeat' split) <;> rfl
@[simp] theorem Thread.pop_msg (th : Thread) : (th.pop).2.msg = th.msg := by
  unfold Thread.pop; (repeat' split) <;> rfl
@[simp] theorem Thread.pop_out (th : Thread) : (th.pop).2.out = th.out := by
  unfold Thread.pop; (repeat' split) <;> rfl
@[simp] theorem Thread.pop_buf (th : Thread) : (th.pop).2.buf = th.buf := by
  unfold Thread.pop; (repeat' split) <;> rfl
@[simp] theorem Thread.pop_held (th : Thread) : (th.pop).2.held = th.held := by
  unfold Thread.pop; (repeat' split) <;> rfl
@[simp] theorem Thread.pop_commits (th : Thread) : (th.pop).2.commits = th.commits := by
  unfold Thread.pop; (repeat' split) <;> rfl
@[simp] theorem Thread.pop_reads (th : Thread) : (th.pop).2.reads = th.reads := by
  unfold Thread.pop; (repeat' split) <;> rfl
@[simp] theorem Thread.pop_wrs (th : Thread) : (th.pop).2.wrs = th.wrs := by
  unfold Thread.pop; (repeat' split) <;> rfl
@[simp] theorem Thread.pop_block (th : Thread) : (th.pop).2.block = th.block := by
  unfold Thread.pop; (repeat' split) <;> rfl
@[simp] theorem Thread.pop_begun (th : Thread) : (th.pop).2.begun = th.begun := by
  unfold Thread.pop; (repeat' split) <;> rfl
@[simp] theorem Thread.pop_lanes (th : Thread) : (th.pop).2.lanes = th.lanes := by
  unfold Thread.pop; (repeat' split) <;> rfl
@[simp] theorem Thread.pop_skip (th : Thread) : (th.pop).2.skip = th.skip := by
  unfold Thread.pop; (repeat' split) <;> rfl
@[simp] theorem Thread.pop_ovf (th : Thread) : (th.pop).2.ovf = th.ovf := by
  unfold Thread.pop; (repeat' split) <;> rfl
@[simp] theorem Thread.pop_pend (th : Thread) : (th.pop).2.pend = th.pend := by
  unfold Thread.pop; (repeat' split) <;> rfl

@[simp] theorem Thread.rd_s (th : Thread) (r : SReg) : (th.rd r).2.s = th.s := by
  unfold Thread.rd; split <;> simp
@[simp] theorem Thread.rd_v (th : Thread) (r : SReg) : (th.rd r).2.v = th.v := by
  unfold Thread.rd; split <;> simp
@[simp] theorem Thread.rd_q (th : Thread) (r : SReg) : (th.rd r).2.q = th.q := by
  unfold Thread.rd; split <;> simp
@[simp] theorem Thread.rd_pc (th : Thread) (r : SReg) : (th.rd r).2.pc = th.pc := by
  unfold Thread.rd; split <;> simp
@[simp] theorem Thread.rd_fflags (th : Thread) (r : SReg) : (th.rd r).2.fflags = th.fflags := by
  unfold Thread.rd; split <;> simp
@[simp] theorem Thread.rd_frm (th : Thread) (r : SReg) : (th.rd r).2.frm = th.frm := by
  unfold Thread.rd; split <;> simp
@[simp] theorem Thread.rd_split (th : Thread) (r : SReg) : (th.rd r).2.split = th.split := by
  unfold Thread.rd; split <;> simp
@[simp] theorem Thread.rd_trap (th : Thread) (r : SReg) : (th.rd r).2.trap = th.trap := by
  unfold Thread.rd; split <;> simp
@[simp] theorem Thread.rd_oov (th : Thread) (r : SReg) : (th.rd r).2.oov = th.oov := by
  unfold Thread.rd; split <;> simp
@[simp] theorem Thread.rd_lact (th : Thread) (r : SReg) : (th.rd r).2.lact = th.lact := by
  unfold Thread.rd; split <;> simp
@[simp] theorem Thread.rd_llen (th : Thread) (r : SReg) : (th.rd r).2.llen = th.llen := by
  unfold Thread.rd; split <;> simp
@[simp] theorem Thread.rd_lstart (th : Thread) (r : SReg) : (th.rd r).2.lstart = th.lstart := by
  unfold Thread.rd; split <;> simp
@[simp] theorem Thread.rd_lcnt (th : Thread) (r : SReg) : (th.rd r).2.lcnt = th.lcnt := by
  unfold Thread.rd; split <;> simp
@[simp] theorem Thread.rd_tcause (th : Thread) (r : SReg) : (th.rd r).2.tcause = th.tcause := by
  unfold Thread.rd; split <;> simp
@[simp] theorem Thread.rd_taddr (th : Thread) (r : SReg) : (th.rd r).2.taddr = th.taddr := by
  unfold Thread.rd; split <;> simp
@[simp] theorem Thread.rd_tepc (th : Thread) (r : SReg) : (th.rd r).2.tepc = th.tepc := by
  unfold Thread.rd; split <;> simp
@[simp] theorem Thread.rd_instret (th : Thread) (r : SReg) : (th.rd r).2.instret = th.instret := by
  unfold Thread.rd; split <;> simp
@[simp] theorem Thread.rd_wdog (th : Thread) (r : SReg) : (th.rd r).2.wdog = th.wdog := by
  unfold Thread.rd; split <;> simp
@[simp] theorem Thread.rd_run (th : Thread) (r : SReg) : (th.rd r).2.run = th.run := by
  unfold Thread.rd; split <;> simp
@[simp] theorem Thread.rd_opens (th : Thread) (r : SReg) : (th.rd r).2.opens = th.opens := by
  unfold Thread.rd; split <;> simp
@[simp] theorem Thread.rd_inst (th : Thread) (r : SReg) : (th.rd r).2.inst = th.inst := by
  unfold Thread.rd; split <;> simp
@[simp] theorem Thread.rd_msg (th : Thread) (r : SReg) : (th.rd r).2.msg = th.msg := by
  unfold Thread.rd; split <;> simp
@[simp] theorem Thread.rd_out (th : Thread) (r : SReg) : (th.rd r).2.out = th.out := by
  unfold Thread.rd; split <;> simp
@[simp] theorem Thread.rd_buf (th : Thread) (r : SReg) : (th.rd r).2.buf = th.buf := by
  unfold Thread.rd; split <;> simp
@[simp] theorem Thread.rd_held (th : Thread) (r : SReg) : (th.rd r).2.held = th.held := by
  unfold Thread.rd; split <;> simp
@[simp] theorem Thread.rd_commits (th : Thread) (r : SReg) : (th.rd r).2.commits = th.commits := by
  unfold Thread.rd; split <;> simp
@[simp] theorem Thread.rd_reads (th : Thread) (r : SReg) : (th.rd r).2.reads = th.reads := by
  unfold Thread.rd; split <;> simp
@[simp] theorem Thread.rd_wrs (th : Thread) (r : SReg) : (th.rd r).2.wrs = th.wrs := by
  unfold Thread.rd; split <;> simp
@[simp] theorem Thread.rd_block (th : Thread) (r : SReg) : (th.rd r).2.block = th.block := by
  unfold Thread.rd; split <;> simp
@[simp] theorem Thread.rd_begun (th : Thread) (r : SReg) : (th.rd r).2.begun = th.begun := by
  unfold Thread.rd; split <;> simp
@[simp] theorem Thread.rd_lanes (th : Thread) (r : SReg) : (th.rd r).2.lanes = th.lanes := by
  unfold Thread.rd; split <;> simp
@[simp] theorem Thread.rd_skip (th : Thread) (r : SReg) : (th.rd r).2.skip = th.skip := by
  unfold Thread.rd; split <;> simp
@[simp] theorem Thread.rd_ovf (th : Thread) (r : SReg) : (th.rd r).2.ovf = th.ovf := by
  unfold Thread.rd; split <;> simp
@[simp] theorem Thread.rd_pend (th : Thread) (r : SReg) : (th.rd r).2.pend = th.pend := by
  unfold Thread.rd; split <;> simp

/-! ### Registers after a write -/

theorem Thread.reg_setReg (th : Thread) (r : SReg) (x : Word) (q : SReg) :
    (th.setReg r x).reg q = if q = r ∧ q ≠ 0 then x else th.reg q := by
  unfold Thread.reg Thread.setReg
  by_cases h0 : q = 0
  · rw [if_pos h0, if_pos h0, if_neg fun h => h.2 h0]
  · rw [if_neg h0, if_neg h0]
    by_cases h : q = r
    · subst h; rw [if_pos ⟨rfl, h0⟩]; exact Vector.getElem_set_self _
    · rw [if_neg fun e => h e.1]
      exact Vector.getElem_set_ne r.isLt q.isLt fun e => h (BitVec.eq_of_toNat_eq e.symm)

/-- What a register holds after a destination field was written: s0 discards, s30 pushes (R47, R48). -/
theorem Thread.reg_wr (th : Thread) (r : SReg) (x : Word) (q : SReg) :
    (th.wr r x).reg q = if q = r ∧ q ≠ 0 ∧ q ≠ 30 then x else th.reg q := by
  unfold Thread.wr
  split
  · rename_i h
    rw [if_neg]
    rintro ⟨e, h0, -⟩; exact h0 (e.trans h)
  · split
    · rename_i h h'
      rw [if_neg]
      · simp [Thread.reg]
      · rintro ⟨e, -, h3⟩; exact h3 (e.trans h')
    · rename_i h h'
      rw [Thread.reg_setReg]
      by_cases hq : q = r
      · subst hq; rw [if_pos ⟨rfl, h⟩, if_pos ⟨rfl, h, h'⟩]
      · rw [if_neg fun e => hq e.1, if_neg fun e => hq e.1]

theorem Thread.vreg_setVreg (th : Thread) (r : VReg) (x : Vec) (q : VReg) :
    (th.setVreg r x).vreg q = if q = r then x else th.vreg q := by
  unfold Thread.vreg Thread.setVreg
  by_cases h : q = r
  · subst h; rw [if_pos rfl]; exact Vector.getElem_set_self _
  · rw [if_neg h]
    exact Vector.getElem_set_ne r.isLt q.isLt fun e => h (BitVec.eq_of_toNat_eq e.symm)

/-- What a predicate register holds after a write: q0 discards it (R47). -/
theorem Thread.qreg_setQreg (th : Thread) (r : QReg) (x : Byte) (q : QReg) :
    (th.setQreg r x).qreg q = if q = r ∧ q ≠ 0 then x else th.qreg q := by
  unfold Thread.setQreg
  split
  · rename_i h
    rw [if_neg fun e => e.2 (e.1.trans h)]
  · unfold Thread.qreg
    by_cases h0 : q = 0
    · rw [if_pos h0, if_pos h0, if_neg fun h => h.2 h0]
    · rw [if_neg h0, if_neg h0]
      by_cases h : q = r
      · subst h; rw [if_pos ⟨rfl, h0⟩]; exact Vector.getElem_set_self _
      · rw [if_neg fun e => h e.1]
        exact Vector.getElem_set_ne r.isLt q.isLt fun e => h (BitVec.eq_of_toNat_eq e.symm)

@[simp] theorem Thread.reg_advance (th : Thread) (n : Nat) (r : SReg) : (th.advance n).reg r = th.reg r := by
  simp [Thread.reg]
@[simp] theorem Thread.reg_jump (th : Thread) (t : Word) (r : SReg) : (th.jump t).reg r = th.reg r := by
  simp [Thread.reg]
@[simp] theorem Thread.reg_raise (th : Thread) (f : Flags) (r : SReg) : (th.raise f).reg r = th.reg r := by
  simp [Thread.reg]
@[simp] theorem Thread.reg_rd (th : Thread) (a r : SReg) : (th.rd a).2.reg r = th.reg r := by
  simp [Thread.reg]
@[simp] theorem Thread.reg_setVreg (th : Thread) (v : VReg) (x : Vec) (r : SReg) : (th.setVreg v x).reg r = th.reg r := by
  simp [Thread.reg]
@[simp] theorem Thread.reg_setQreg (th : Thread) (q : QReg) (x : Byte) (r : SReg) : (th.setQreg q x).reg r = th.reg r := by
  simp [Thread.reg]

/-- The counters after an instruction of straight-line code (R229). -/
@[simp] theorem Thread.advance_instret (th : Thread) (n : Nat) : (th.advance n).instret = th.instret + 1 := by
  unfold Thread.advance; dsimp only; (repeat' split) <;> rfl
@[simp] theorem Thread.jump_instret (th : Thread) (t : Word) : (th.jump t).instret = th.instret + 1 := rfl
@[simp] theorem Thread.jump_pc (th : Thread) (t : Word) : (th.jump t).pc = t := rfl

/-- Outside LEND of an active loop the program counter moves past the instruction (R223). -/
theorem Thread.advance_pc (th : Thread) (n : Nat) (h : ¬ (th.lact = true ∧ th.pc = th.lend)) :
    (th.advance n).pc = th.pc + BitVec.ofNat 64 n := by
  simp [Thread.advance, h]

end Sys2Proof.Machine
end

