-- ==== Sys2Proof/Laws/Retire.lean ====
section
/-! SUPPORT. What the shared operations of the instructions answer, in the words of the claims. -/

namespace Sys2Proof.Machine

/-- A thread after n pops of `in`. -/
def Thread.poppedBy (th : Thread) (n : Nat) : Thread :=
  { th with popped := th.popped + Nat.min n th.left, ine := th.ine || decide (th.left < n) }

theorem Thread.poppedBy_zero (th : Thread) : th.poppedBy 0 = th := by
  simp [Thread.poppedBy]

theorem Thread.poppedBy_left (th : Thread) (n : Nat) : (th.poppedBy n).left = th.left - n := by
  unfold Thread.left Thread.poppedBy
  cases h : th.msg with
  | none => simp
  | some m => simp only [Thread.left, h]; simp only [Nat.min_def]; split <;> omega

theorem Thread.poppedBy_poppedBy (th : Thread) (m n : Nat) : (th.poppedBy m).poppedBy n = th.poppedBy (m + n) := by
  have h := th.poppedBy_left m
  have e1 : (th.poppedBy m).popped + Nat.min n ((th.poppedBy m).left) = th.popped + Nat.min (m + n) th.left := by
    rw [h]
    show th.popped + Nat.min m th.left + Nat.min n (th.left - m) = _
    have a := Nat.min_def (n := m) (m := th.left)
    have b := Nat.min_def (n := n) (m := th.left - m)
    have c := Nat.min_def (n := m + n) (m := th.left)
    simp only [Nat.min_def] at *
    (repeat' split) <;> omega
  have e2 : ((th.poppedBy m).ine || decide ((th.poppedBy m).left < n)) = (th.ine || decide (th.left < m + n)) := by
    rw [h, Bool.eq_iff_iff]
    show (th.ine || decide (th.left < m) || decide (th.left - m < n)) = true ↔ _
    simp only [Bool.or_eq_true, decide_eq_true_eq, or_assoc]
    constructor
    · rintro (h1 | h1 | h1)
      · exact .inl h1
      · right; omega
      · right; omega
    · rintro (h1 | h1)
      · exact .inl h1
      · right; omega
  have e : (th.poppedBy m).poppedBy n = Thread.mk th.s th.v th.q th.pc th.fflags th.frm th.split th.trap
      ((th.poppedBy m).ine || decide ((th.poppedBy m).left < n)) th.oov th.lact th.llen th.lstart th.lcnt th.tcause
      th.taddr th.tepc th.instret th.wdog th.run th.opens th.inst th.msg
      ((th.poppedBy m).popped + Nat.min n ((th.poppedBy m).left)) th.out th.buf th.held th.commits th.reads th.wrs
      th.block th.begun th.lanes th.skip th.ovf th.pend := rfl
  rw [e, e1, e2]
  rfl

theorem Thread.poppedBy_inWord (th : Thread) (m k : Nat) : (th.poppedBy m).inWord k = th.inWord (m + k) := by
  unfold Thread.inWord
  show (match th.msg with | some m' => m'.words.getD ((th.popped + Nat.min m th.left) + k) 0 | none => 0) = _
  cases h : th.msg with
  | none => rfl
  | some x =>
    simp only [Thread.left, h, Nat.min_def]
    by_cases hm : m ≤ x.words.length - th.popped
    · rw [if_pos hm, Nat.add_assoc]
    · rw [if_neg hm]
      simp only [List.getD]
      rw [List.getElem?_eq_none (by omega), List.getElem?_eq_none (by omega)]

theorem Thread.pop_eq (th : Thread) : th.pop = (th.inWord 0, th.poppedBy 1) := by
  unfold Thread.pop Thread.inWord Thread.poppedBy Thread.left
  cases h : th.msg with
  | none => simp
  | some m =>
    simp only [Nat.add_zero]
    by_cases hl : th.popped < m.words.length
    · have h1 : Nat.min 1 (m.words.length - th.popped) = 1 := Nat.min_eq_left (by omega)
      have h2 : ¬ (m.words.length - th.popped < 1) := by omega
      simp [if_pos hl, h1, h2]
    · have h1 : m.words.length - th.popped = 0 := by omega
      rw [if_neg hl]
      simp [h1, List.getD, List.getElem?_eq_none (Nat.le_of_not_lt hl)]

theorem Thread.reg_poppedBy (th : Thread) (n : Nat) (r : SReg) : (th.poppedBy n).reg r = th.reg r := rfl

theorem popsOf_one (r : SReg) : popsOf [r] = if r = 29 then 1 else 0 := by
  unfold popsOf; by_cases h : r = 29 <;> simp only [h, List.filter, decide_true, decide_false, if_true, if_false] <;> rfl

theorem popsOf_cons (r : SReg) (rs : List SReg) : popsOf (r :: rs) = popsOf [r] + popsOf rs := by
  unfold popsOf
  by_cases h : r = 29 <;> simp only [h, List.filter, decide_true, decide_false, List.length_cons, List.length_nil] <;> omega

theorem Thread.rd_eq (th : Thread) (r : SReg) : th.rd r = (th.source r [], th.poppedBy (popsOf [r])) := by
  unfold Thread.rd Thread.source
  rw [popsOf_one]
  by_cases h : r = 29
  · simp only [if_pos h]; exact th.pop_eq
  · simp only [if_neg h, Thread.poppedBy_zero]; rfl

theorem Thread.rd_poppedBy (th : Thread) (r : SReg) (before : List SReg) :
    (th.poppedBy (popsOf before)).rd r = (th.source r before, th.poppedBy (popsOf before + popsOf [r])) := by
  rw [Thread.rd_eq, Thread.poppedBy_poppedBy]
  congr 1
  unfold Thread.source
  by_cases h : r = 29
  · simp only [if_pos h, Thread.poppedBy_inWord]; simp [popsOf]
  · simp only [if_neg h]; rfl

theorem Thread.rd2_eq (th : Thread) (a b : SReg) :
    th.rd2 a b = (th.source a [], th.source b [a], th.poppedBy (popsOf [a, b])) := by
  simp only [Thread.rd2, Thread.rd_eq th a, Thread.rd_poppedBy]
  rw [popsOf_cons a [b]]

theorem Thread.rd3_eq (th : Thread) (a b c : SReg) :
    th.rd3 a b c = (th.source a [], th.source b [a], th.source c [a, b], th.poppedBy (popsOf [a, b, c])) := by
  have h : popsOf [a, b] = popsOf [a] + popsOf [b] := popsOf_cons a [b]
  simp only [Thread.rd3, Thread.rd_eq th a, Thread.rd_poppedBy]
  rw [← h, Thread.rd_poppedBy, h]
  rw [popsOf_cons a [b, c], popsOf_cons b [c], Nat.add_assoc]

theorem Thread.advance_eq (th : Thread) (len : Nat) : th.advance len =
    { th with
      pc := th.nextPc len
      lact := th.lact && !(th.atLend && decide (th.lcnt - 1 = 0))
      lcnt := if th.atLend then th.lcnt - 1 else th.lcnt
      instret := th.instret + 1, wdog := th.wdog + 1, run := .ready, begun := false, lanes := [], skip := none } := by
  unfold Thread.advance Thread.nextPc Thread.atLend
  by_cases h1 : th.lact = true
  · by_cases h2 : th.pc = th.lend
    · by_cases hn : th.lcnt - 1 = 0
      · simp only [h1, h2, hn, and_self, if_true, decide_true, Bool.and_self, ne_eq, not_true_eq_false, if_false, Bool.not_true]
        rfl
      · simp only [h1, h2, hn, and_self, if_true, decide_true, decide_false, Bool.and_self, ne_eq, not_false_eq_true, Bool.and_false, Bool.not_false]
        simp only [Thread.count, Thread.lfirst, h1, h2]
    · simp only [h1, h2, and_false, if_false, decide_false, Bool.and_false, Bool.false_and, Bool.not_false, Bool.and_true]
      simp [Thread.count, h1]
  · have h2 : th.lact = false := by simpa using h1
    simp [Thread.count, h2]

theorem Thread.wr_eq (th : Thread) (d : SReg) (x : Word) : th.wr d x =
    { th with
      s := if d = 0 ∨ d = 30 then th.s else th.s.set d.toNat x d.isLt
      out := if d = 30 ∧ th.out.length < 32 then th.out ++ [x] else th.out
      oov := th.oov || decide (d = 30 ∧ 32 ≤ th.out.length) } := by
  unfold Thread.wr Thread.push Thread.setReg
  by_cases h0 : d = 0
  · subst h0
    have : ¬ ((0 : SReg) = 30) := by decide
    simp only [if_true, true_or, this, false_and, if_false, decide_false, Bool.or_false]
  · by_cases h3 : d = 30
    · simp only [h3, if_true, or_true, true_and]
      by_cases hl : th.out.length < 32
      · have : ¬ (32 ≤ th.out.length) := by omega
        simp only [hl, this, if_true, decide_false, Bool.or_false]
        rfl
      · have : 32 ≤ th.out.length := by omega
        simp only [hl, this, if_false, decide_true, Bool.or_true]
        rfl
    · simp only [h0, h3, if_false, or_self, false_and, decide_false, Bool.or_false]

/-- Reading sources, going on, writing the destination and raising flags is `Thread.retired`. -/
theorem Thread.retired_eq (th : Thread) (len : Nat) (srcs : List SReg) (d : SReg) (x : Word) (fl : Flags) :
    ((((th.poppedBy (popsOf srcs)).advance len).wr d x).raise fl) = th.retired len srcs d x fl := by
  rw [Thread.advance_eq, Thread.wr_eq]
  rfl

theorem Thread.raise_zero (th : Thread) : th.raise 0 = th := by
  simp [Thread.raise]

theorem Thread.retired_eq0 (th : Thread) (len : Nat) (srcs : List SReg) (d : SReg) (x : Word) :
    (((th.poppedBy (popsOf srcs)).advance len).wr d x) = th.retired len srcs d x 0 := by
  rw [← Thread.retired_eq, Thread.raise_zero]

/-- An instruction with no destination. -/
theorem Thread.passed_eq (th : Thread) (len : Nat) (srcs : List SReg) :
    (th.poppedBy (popsOf srcs)).advance len = th.passed len srcs := by
  rw [Thread.passed, ← Thread.retired_eq0]
  rfl

theorem Thread.passed_nil (th : Thread) (len : Nat) : th.advance len = th.passed len [] := by
  rw [← Thread.passed_eq, show popsOf [] = 0 from rfl, Thread.poppedBy_zero]

/-- A transfer of control. -/
theorem Thread.moved_eq (th : Thread) (srcs : List SReg) (d : SReg) (x target : Word) :
    (((th.poppedBy (popsOf srcs)).jump target).wr d x) = th.moved srcs d x target := by
  rw [Thread.wr_eq]
  unfold Thread.moved Thread.retired
  have e : th.fflags ||| (0 : Flags) = th.fflags := by simp
  rw [e]
  rfl

theorem State.alu2_eq (s : State) (d a b : SReg) (f : Word → Word → Word) : s.alu2 d a b f =
    .next (s.setTh (s.th.retired 4 [a, b] d (f (s.th.source a []) (s.th.source b [a])) 0)) := by
  simp only [State.alu2, Thread.rd2_eq, Thread.retired_eq0]

theorem State.alu1_eq (s : State) (d a : SReg) (f : Word → Word) : s.alu1 d a f =
    .next (s.setTh (s.th.retired 4 [a] d (f (s.th.source a [])) 0)) := by
  simp only [State.alu1, Thread.rd_eq, Thread.retired_eq0]

theorem State.alu2f_eq (s : State) (d a b : SReg) (f : Word → Word → Nat × Flags) : s.alu2f d a b f =
    .next (s.setTh (s.th.retired 4 [a, b] d (BitVec.ofNat 64 (f (s.th.source a []) (s.th.source b [a])).1)
      (f (s.th.source a []) (s.th.source b [a])).2)) := by
  simp only [State.alu2f, Thread.rd2_eq, Thread.retired_eq]

theorem State.alu3_eq (s : State) (d a b c : SReg) (f : Word → Word → Word → Word) : s.alu3 d a b c f =
    .next (s.setTh (s.th.retired 4 [a, b, c] d
      (f (s.th.source a []) (s.th.source b [a]) (s.th.source c [a, b])) 0)) := by
  simp only [State.alu3, Thread.rd3_eq, Thread.retired_eq0]

theorem State.const_eq (s : State) (len : Nat) (d : SReg) (x : Word) : s.const len d x =
    .next (s.setTh (s.th.retired len [] d x 0)) := by
  rw [State.const, ← Thread.retired_eq0, show popsOf [] = 0 from rfl, Thread.poppedBy_zero]

/-! ### Traps -/

theorem layOut_cons (v w : Nat) (r : List (Nat × Nat)) : layOut ((v, w) :: r) = v % 2 ^ w + 2 ^ w * layOut r := rfl

theorem Cause.code_lt (c : Cause) : c.code < 16 := by cases c <;> decide

/-- The first word of a label-5 report (Table 14.3). -/
theorem report5_word (name : BitVec 27) (job : BitVec 8) (t : ThrIx) (cause kind : Nat) (hc : cause < 256)
    (hk : kind < 2) :
    wordOf [(name.toNat, 27), (job.toNat, 8), (t.toNat, 3), (cause, 8), (kind, 2), (true.toNat, 1)] =
      BitVec.ofNat 64 (name.toNat + 2 ^ 27 * job.toNat + 2 ^ 35 * t.toNat + 2 ^ 38 * cause + 2 ^ 46 * kind + 2 ^ 48) := by
  have h1 := name.isLt
  have h2 := job.isLt
  have h3 := t.isLt
  unfold wordOf
  refine congrArg (BitVec.ofNat 64) ?_
  simp only [layOut, Bool.toNat_true]
  omega

/-- TCAUSE from its fields (Table 14.2). -/
theorem tcauseOf_eq (c : Cause) (stat reg rf comp : Nat) (h1 : stat < 16) (h2 : reg < 32) (h3 : rf < 4) (h4 : comp < 4) :
    tcauseOf c stat reg rf comp = BitVec.ofNat 21 (c.code + (2 ^ 8 * stat + 2 ^ 12 * reg + 2 ^ 17 * rf + 2 ^ 19 * comp)) := by
  have := c.code_lt
  unfold tcauseOf
  congr 1
  simp only [layOut]
  omega

/-- A trap of the executing thread, in the words of the claims. -/
theorem State.trapAt_cur (s : State) (c : Cause) (addr epc : Word) (stat reg rf comp : Nat)
    (h1 : stat < 16) (h2 : reg < 32) (h3 : rf < 4) (h4 : comp < 4) :
    s.trapAt s.cur.core s.cur.thr c addr epc stat reg rf comp =
      s.trapped c.code addr epc (2 ^ 8 * stat + 2 ^ 12 * reg + 2 ^ 17 * rf + 2 ^ 19 * comp) := by
  have hc : c.code < 256 := by have := c.code_lt; omega
  have e (u : State) (hu : u.cur = s.cur) (hm : u.cfg = s.cfg) (hy : u.cycle = s.cycle) (hj : u.k.job = s.k.job)
      (kind : Nat) (hk : kind < 2) :
      (u.freezeCore s.cur.core).report5 s.cur.core s.cur.thr c.code kind addr epc =
        u.frozenWith (s.reportOf c.code kind addr epc) := by
    unfold State.report5 State.report State.launch State.frozenWith State.reportOf State.freezeCore
    have hn : (u.modCore s.cur.core fun k => { k with frozen := true }).coreName s.cur.core = s.coreName s.cur.core := by
      simp only [State.coreName, State.modCore_cfg, hm]
    have hf : ((u.modCore s.cur.core fun k => { k with frozen := true }).core s.cur.core).frozen = true := by
      rw [State.core_modCore]
    have hj' : ((u.modCore s.cur.core fun k => { k with frozen := true }).core s.cur.core).job = s.k.job := by
      rw [State.core_modCore, ← hj, State.k, hu]
    rw [hf, report5_word _ _ _ _ _ hc hk, hn, hj']
    simp only [State.modK, hu, State.modCore_cfg, State.modCore_cycle, hm, hy, padWords, plenOf]
    simp
  unfold State.trapAt State.trapped
  simp only [tcauseOf_eq c stat reg rf comp h1 h2 h3 h4]
  have ht : s.getTh s.cur.core s.cur.thr = s.th := rfl
  rw [ht]
  by_cases h : s.th.trap = true
  · rw [if_pos h, if_pos h]
    exact e s rfl rfl rfl rfl 1 (by decide)
  · rw [if_neg h, if_neg h]
    have hk : s.core s.cur.core = s.k := rfl
    rw [hk]
    by_cases hv : s.k.tvEn = true
    · rw [if_pos hv, if_pos hv]; rfl
    · rw [if_neg hv, if_neg hv]
      refine e (s.setTh _) (by simp) (by simp) (by simp) ?_ 0 (by decide)
      rw [State.k_setTh]; rfl

/-- A trap at the executing instruction, without detail. -/
theorem State.trap_eq (s : State) (c : Cause) (addr : Word) : s.trap c addr = s.trapped c.code addr s.th.pc := by
  unfold State.trap
  exact State.trapAt_cur s c addr s.th.pc 0 0 0 0 (by decide) (by decide) (by decide) (by decide)

end Sys2Proof.Machine
end

