-- ==== Sys2Proof/Laws/SystemKeep.lean ====
section
/-! SUPPORT. The canonical form of memory is kept by the loader, the host, bring-up, the control operations and
pre-emption. -/

namespace Sys2Proof.Machine


theorem State.vector_inv {s : State} (v : Nat) (hm : s.inv) :
    (State.vector s v).inv := by
  unfold State.vector
  try dsimp only
  repeat' first
    | with_reducible assumption
    | with_reducible apply State.wf_of_inv
    | split
    | intro _
    | dsimp only
    | (unfold State.inv; dsimp only)

theorem State.mevent_inv {s : State} (b : Nat) (hm : s.inv) :
    (State.mevent s b).inv := by
  unfold State.mevent
  try dsimp only
  repeat' first
    | with_reducible assumption
    | with_reducible apply State.wf_of_inv
    | with_reducible apply State.vector_inv
    | split
    | intro _
    | dsimp only
    | (unfold State.inv; dsimp only)

theorem State.evictFor_inv {s : State} (h : Nat) (hm : s.inv) :
    (State.evictFor s h).inv := by
  unfold State.evictFor
  try dsimp only
  repeat' first
    | with_reducible assumption
    | with_reducible apply State.wf_of_inv
    | split
    | intro _
    | dsimp only
    | (unfold State.inv; dsimp only)

theorem State.dropWithdrawn_inv {s : State} (hm : s.inv) :
    (State.dropWithdrawn s).inv := by
  unfold State.dropWithdrawn
  try dsimp only
  repeat' first
    | with_reducible assumption
    | with_reducible apply State.wf_of_inv
    | split
    | intro _
    | dsimp only
    | (unfold State.inv; dsimp only)

theorem State.modQueue_inv {s : State} (q : BitVec 14) (f : IQueue → IQueue) (hm : s.inv) :
    (State.modQueue s q f).inv := by
  unfold State.modQueue
  try dsimp only
  repeat' first
    | with_reducible assumption
    | with_reducible apply State.wf_of_inv
    | split
    | intro _
    | dsimp only
    | (unfold State.inv; dsimp only)

theorem State.discard_inv {s : State} (q : BitVec 14) (n cause : Nat) (hm : s.inv) :
    (State.discard s q n cause).inv := by
  unfold State.discard
  try dsimp only
  repeat' first
    | with_reducible assumption
    | with_reducible apply State.wf_of_inv
    | with_reducible apply State.vector_inv
    | with_reducible apply State.modQueue_inv
    | split
    | intro _
    | dsimp only
    | (unfold State.inv; dsimp only)

theorem State.queueError_inv {s : State} (q : BitVec 14) (hm : s.inv) :
    (State.queueError s q).inv := by
  unfold State.queueError
  try dsimp only
  repeat' first
    | with_reducible assumption
    | with_reducible apply State.wf_of_inv
    | with_reducible apply State.modQueue_inv
    | with_reducible apply State.discard_inv
    | split
    | intro _
    | dsimp only
    | (unfold State.inv; dsimp only)

theorem State.nameImage_inv {s : State} (q : BitVec 14) (hm : s.inv) :
    (State.nameImage s q).inv := by
  unfold State.nameImage
  try dsimp only
  repeat' first
    | with_reducible assumption
    | with_reducible apply State.wf_of_inv
    | with_reducible apply State.modQueue_inv
    | with_reducible apply State.queueError_inv
    | split
    | intro _
    | dsimp only
    | (unfold State.inv; dsimp only)

theorem State.unbind_inv {s : State} (q : BitVec 14) (hm : s.inv) :
    (State.unbind s q).inv := by
  unfold State.unbind
  try dsimp only
  repeat' first
    | with_reducible assumption
    | with_reducible apply State.wf_of_inv
    | with_reducible apply State.modQueue_inv
    | with_reducible apply State.nameImage_inv
    | split
    | intro _
    | dsimp only
    | (unfold State.inv; dsimp only)

theorem State.ctl_inv {s : State} (m : BitVec 12) (op : Nat) (job : BitVec 8) (ws : List Word) (hm : s.inv) :
    (State.ctl s m op job ws).inv := by
  unfold State.ctl
  try dsimp only
  repeat' first
    | with_reducible assumption
    | with_reducible apply State.wf_of_inv
    | with_reducible apply State.launch_inv
    | split
    | intro _
    | dsimp only
    | (unfold State.inv; dsimp only)

theorem State.zeroTiles_inv {s : State} (p n : Nat) (hm : s.inv) :
    (State.zeroTiles s p n).inv := by
  unfold State.zeroTiles
  try dsimp only
  repeat' first
    | with_reducible assumption
    | with_reducible apply State.wf_of_inv
    | split
    | intro _
    | dsimp only
    | (unfold State.inv; dsimp only)

theorem State.spadTile_inv {s : State} (cl : BitVec 8) (f : Tag) (org : Nat) (bs : List Byte) (t : Nat) (hm : s.inv) :
    (State.spadTile s cl f org bs t).inv := by
  unfold State.spadTile
  try dsimp only
  repeat' first
    | with_reducible assumption
    | with_reducible apply State.wf_of_inv
    | with_reducible apply State.storeBytes_inv
    | with_reducible apply State.wholeTile_inv
    | split
    | intro _
    | dsimp only
    | (unfold State.inv; dsimp only)

theorem State.spadSection_inv {s : State} (cl : BitVec 8) (before : List (Nat × Nat)) (f : Tag) (org : Nat) (bs : List Byte) (hm : s.inv) :
    (State.spadSection s cl before f org bs).inv := by
  unfold State.spadSection
  try dsimp only
  repeat' first
    | with_reducible assumption
    | with_reducible apply State.wf_of_inv
    | with_reducible apply State.setTile_inv
    | with_reducible apply State.fresh_inv
    | with_reducible apply State.spadTile_inv
    | with_reducible apply foldl_inv
    | split
    | intro _
    | dsimp only
    | (unfold State.inv; dsimp only)

theorem State.spadSections_inv {s : State} (m : Image) (cl : BitVec 8) (before : List (Nat × Nat))
    (xs : List (Nat × Tag × Nat × List Byte)) (hm : s.inv) :
    (State.spadSections s m cl before xs).inv := by
  induction xs generalizing s before with
  | nil => exact hm
  | cons x xs ih =>
    obtain ⟨role, f, org, bs⟩ := x
    unfold State.spadSections
    dsimp only
    have key : ∀ b : Bool, (if b = true then State.spadSections (s.spadSection cl before f org bs) m cl ((org, bs.length) :: before) xs
        else State.spadSections s m cl before xs).inv := by
      intro b
      split
      · exact ih _ (State.spadSection_inv cl before f org bs hm)
      · exact ih _ hm
    exact key _

theorem State.prepareCores_inv {s : State} (p : Plan) (hm : s.inv) :
    (State.prepareCores s p).inv := by
  unfold State.prepareCores
  try dsimp only
  repeat' first
    | with_reducible assumption
    | with_reducible apply State.wf_of_inv
    | with_reducible apply State.putBytes_inv
    | with_reducible apply State.modCore_inv
    | with_reducible apply getD_inv
    | with_reducible apply foldl_inv
    | split
    | intro _
    | dsimp only
    | (unfold State.inv; dsimp only)

theorem State.prepareArray_inv {s : State} (cl : BitVec 8) (i : Nat) (job : BitVec 8) (hm : s.inv) :
    (State.prepareArray s cl i job).inv := by
  unfold State.prepareArray
  try dsimp only
  repeat' first
    | with_reducible assumption
    | with_reducible apply State.wf_of_inv
    | with_reducible apply State.modCluster_inv
    | with_reducible apply State.modMat_inv
    | split
    | intro _
    | dsimp only
    | (unfold State.inv; dsimp only)

theorem State.writeTable_inv {s : State} (t frame n tier : Nat) (hm : s.inv) :
    (State.writeTable s t frame n tier).inv := by
  unfold State.writeTable
  try dsimp only
  repeat' first
    | with_reducible assumption
    | with_reducible apply State.wf_of_inv
    | with_reducible apply State.put64_inv
    | with_reducible apply foldl_inv
    | split
    | intro _
    | dsimp only
    | (unfold State.inv; dsimp only)

theorem State.writeRegions_inv {s : State} (p : Plan) (hm : s.inv) :
    (State.writeRegions s p).inv := by
  unfold State.writeRegions
  try dsimp only
  repeat' first
    | with_reducible assumption
    | with_reducible apply State.wf_of_inv
    | with_reducible apply State.storeBytes_inv
    | with_reducible apply State.zeroTiles_inv
    | with_reducible apply State.writeTable_inv
    | with_reducible apply foldl_inv
    | split
    | intro _
    | dsimp only
    | (unfold State.inv; dsimp only)

theorem State.carryOut_inv {s : State} (q : BitVec 14) (p : Plan) (hm : s.inv) :
    (State.carryOut s q p).inv := by
  unfold State.carryOut
  try dsimp only
  repeat' first
    | with_reducible assumption
    | with_reducible apply State.wf_of_inv
    | with_reducible apply State.modQueue_inv
    | with_reducible apply State.ctl_inv
    | with_reducible apply State.zeroTiles_inv
    | with_reducible apply State.spadSections_inv
    | with_reducible apply State.prepareCores_inv
    | with_reducible apply State.prepareArray_inv
    | with_reducible apply State.writeRegions_inv
    | with_reducible apply foldl_inv
    | split
    | intro _
    | dsimp only
    | (unfold State.inv; dsimp only)

theorem State.loadFailed_inv {s : State} (q : BitVec 14) (e : BitVec 512) (hm : s.inv) :
    (State.loadFailed s q e).inv := by
  unfold State.loadFailed
  try dsimp only
  repeat' first
    | with_reducible assumption
    | with_reducible apply State.wf_of_inv
    | with_reducible apply State.mevent_inv
    | with_reducible apply State.queueError_inv
    | with_reducible apply State.unbind_inv
    | with_reducible apply State.ctl_inv
    | split
    | intro _
    | dsimp only
    | (unfold State.inv; dsimp only)

theorem execImageLoad_inv (q : BitVec 14) {s : State} (hm : s.inv) :
    KeepsOut (execImageLoad q s) := by
  unfold execImageLoad
  try dsimp only
  repeat' first
    | with_reducible assumption
    | with_reducible apply State.wf_of_inv
    | with_reducible apply keepsOut_next
    | with_reducible apply State.evictFor_inv
    | with_reducible apply State.carryOut_inv
    | with_reducible apply State.loadFailed_inv
    | split
    | intro _
    | dsimp only
    | (unfold State.inv; dsimp only)

theorem State.modJob_inv {s : State} (j : BitVec 8) (f : Job → Job) (hm : s.inv) :
    (State.modJob s j f).inv := by
  unfold State.modJob
  try dsimp only
  repeat' first
    | with_reducible assumption
    | with_reducible apply State.wf_of_inv
    | split
    | intro _
    | dsimp only
    | (unfold State.inv; dsimp only)

theorem execLaunchGateOpen_inv (job : BitVec 8) {s : State} (hm : s.inv) :
    KeepsOut (execLaunchGateOpen job s) := by
  unfold execLaunchGateOpen
  try dsimp only
  repeat' first
    | with_reducible assumption
    | with_reducible apply State.wf_of_inv
    | with_reducible apply keepsOut_next
    | with_reducible apply State.modCore_inv
    | with_reducible apply State.modQueue_inv
    | with_reducible apply State.modJob_inv
    | with_reducible apply foldl_inv
    | split
    | intro _
    | dsimp only
    | (unfold State.inv; dsimp only)

theorem State.inject1_inv {s : State} (job : BitVec 8) (c : CoreIx) (cls : Cls) (lab : Label) (tag : BitVec 4) (ws : List Word) (hm : s.inv) :
    (State.inject1 s job c cls lab tag ws).inv := by
  unfold State.inject1
  try dsimp only
  repeat' first
    | with_reducible assumption
    | with_reducible apply State.wf_of_inv
    | with_reducible apply State.launch_inv
    | with_reducible apply State.trumpSent_inv
    | with_reducible apply State.countSent_inv
    | split
    | intro _
    | dsimp only
    | (unfold State.inv; dsimp only)

theorem execInitialMessageRelease_inv (job : BitVec 8) {s : State} (hm : s.inv) :
    KeepsOut (execInitialMessageRelease job s) := by
  unfold execInitialMessageRelease
  try dsimp only
  repeat' first
    | with_reducible assumption
    | with_reducible apply State.wf_of_inv
    | with_reducible apply keepsOut_next
    | with_reducible apply State.modJob_inv
    | with_reducible apply State.inject1_inv
    | split
    | intro _
    | dsimp only
    | (unfold State.inv; dsimp only)

theorem State.giveBack_inv {s : State} (job : BitVec 8) (j : Job) (hm : s.inv) :
    (State.giveBack s job j).inv := by
  unfold State.giveBack
  try dsimp only
  repeat' first
    | with_reducible assumption
    | with_reducible apply State.wf_of_inv
    | with_reducible apply State.modCore_inv
    | with_reducible apply State.modCluster_inv
    | with_reducible apply State.dropWithdrawn_inv
    | with_reducible apply foldl_inv
    | split
    | intro _
    | dsimp only
    | (unfold State.inv; dsimp only)

theorem State.retireJob_inv {s : State} (job : BitVec 8) (j : Job) (hm : s.inv) :
    (State.retireJob s job j).inv := by
  unfold State.retireJob
  try dsimp only
  repeat' first
    | with_reducible assumption
    | with_reducible apply State.wf_of_inv
    | with_reducible apply State.mevent_inv
    | with_reducible apply State.modQueue_inv
    | with_reducible apply State.unbind_inv
    | with_reducible apply State.giveBack_inv
    | split
    | intro _
    | dsimp only
    | (unfold State.inv; dsimp only)

theorem State.report398_inv {s : State} (job : BitVec 8) (j : Job) (hm : s.inv) :
    (State.report398 s job j).inv := by
  unfold State.report398
  try dsimp only
  repeat' first
    | with_reducible assumption
    | with_reducible apply State.wf_of_inv
    | with_reducible apply State.fresh_inv
    | with_reducible apply State.ctl_inv
    | with_reducible apply State.modJob_inv
    | with_reducible apply getD_inv
    | split
    | intro _
    | dsimp only
    | (unfold State.inv; dsimp only)

theorem execJobRetirement_inv (job : BitVec 8) {s : State} (hm : s.inv) :
    KeepsOut (execJobRetirement job s) := by
  unfold execJobRetirement
  try dsimp only
  repeat' first
    | with_reducible assumption
    | with_reducible apply State.wf_of_inv
    | with_reducible apply keepsOut_next
    | with_reducible apply State.retireJob_inv
    | with_reducible apply State.report398_inv
    | split
    | intro _
    | dsimp only
    | (unfold State.inv; dsimp only)

theorem State.dropToken_inv {s : State} (q : BitVec 14) (cause : Nat) (hm : s.inv) :
    (State.dropToken s q cause).inv := by
  unfold State.dropToken
  try dsimp only
  repeat' first
    | with_reducible assumption
    | with_reducible apply State.wf_of_inv
    | with_reducible apply State.modQueue_inv
    | split
    | intro _
    | dsimp only
    | (unfold State.inv; dsimp only)

theorem execTokenWrite_inv (off : BitVec 26) (bytes : List Byte) {s : State} (hm : s.inv) :
    KeepsOut (execTokenWrite off bytes s) := by
  unfold execTokenWrite
  try dsimp only
  repeat' first
    | with_reducible assumption
    | with_reducible apply State.wf_of_inv
    | with_reducible apply keepsOut_next
    | with_reducible apply State.modQueue_inv
    | with_reducible apply State.discard_inv
    | with_reducible apply State.nameImage_inv
    | with_reducible apply State.dropToken_inv
    | split
    | intro _
    | dsimp only
    | (unfold State.inv; dsimp only)

theorem execTokenRelease_inv (q : BitVec 14) {s : State} (hm : s.inv) :
    KeepsOut (execTokenRelease q s) := by
  unfold execTokenRelease
  try dsimp only
  repeat' first
    | with_reducible assumption
    | with_reducible apply State.wf_of_inv
    | with_reducible apply keepsOut_next
    | with_reducible apply State.modQueue_inv
    | with_reducible apply State.discard_inv
    | with_reducible apply State.inject1_inv
    | split
    | intro _
    | dsimp only
    | (unfold State.inv; dsimp only)

theorem State.writeQctl_inv {s : State} (q : BitVec 14) (value : Word) (hm : s.inv) :
    (State.writeQctl s q value).inv := by
  unfold State.writeQctl
  try dsimp only
  repeat' first
    | with_reducible assumption
    | with_reducible apply State.wf_of_inv
    | with_reducible apply State.modQueue_inv
    | split
    | intro _
    | dsimp only
    | (unfold State.inv; dsimp only)

theorem execQctlReset_inv (q : BitVec 14) (value : Word) {s : State} (hm : s.inv) :
    KeepsOut (execQctlReset q value s) := by
  unfold execQctlReset
  try dsimp only
  repeat' first
    | with_reducible assumption
    | with_reducible apply State.wf_of_inv
    | with_reducible apply keepsOut_next
    | with_reducible apply State.writeQctl_inv
    | split
    | intro _
    | dsimp only
    | (unfold State.inv; dsimp only)

theorem State.writeMevent_inv {s : State} (value : Word) (hm : s.inv) :
    (State.writeMevent s value).inv := by
  unfold State.writeMevent
  try dsimp only
  repeat' first
    | with_reducible assumption
    | with_reducible apply State.wf_of_inv
    | with_reducible apply State.mevent_inv
    | split
    | intro _
    | dsimp only
    | (unfold State.inv; dsimp only)

theorem execMeventClear_inv (value : Word) {s : State} (hm : s.inv) :
    KeepsOut (execMeventClear value s) := by
  unfold execMeventClear
  try dsimp only
  repeat' first
    | with_reducible assumption
    | with_reducible apply State.wf_of_inv
    | with_reducible apply keepsOut_next
    | with_reducible apply State.writeMevent_inv
    | split
    | intro _
    | dsimp only
    | (unfold State.inv; dsimp only)

theorem State.writeGov_inv {s : State} (cl : BitVec 8) (g : Nat) (hm : s.inv) :
    (State.writeGov s cl g).inv := by
  unfold State.writeGov
  try dsimp only
  repeat' first
    | with_reducible assumption
    | with_reducible apply State.wf_of_inv
    | with_reducible apply State.modCluster_inv
    | with_reducible apply State.govRefresh_inv
    | split
    | intro _
    | dsimp only
    | (unfold State.inv; dsimp only)

theorem State.writePowercap_inv {s : State} (value : Word) (hm : s.inv) :
    (State.writePowercap s value).inv := by
  unfold State.writePowercap
  try dsimp only
  repeat' first
    | with_reducible assumption
    | with_reducible apply State.wf_of_inv
    | with_reducible apply State.writeGov_inv
    | with_reducible apply foldl_inv
    | split
    | intro _
    | dsimp only
    | (unfold State.inv; dsimp only)

theorem execPowercapWrite_inv (value : Word) {s : State} (hm : s.inv) :
    KeepsOut (execPowercapWrite value s) := by
  unfold execPowercapWrite
  try dsimp only
  repeat' first
    | with_reducible assumption
    | with_reducible apply State.wf_of_inv
    | with_reducible apply keepsOut_next
    | with_reducible apply State.writePowercap_inv
    | split
    | intro _
    | dsimp only
    | (unfold State.inv; dsimp only)

theorem State.writeImage_inv {s : State} (n i : Nat) (v : Word) (hm : s.inv) :
    (State.writeImage s n i v).inv := by
  unfold State.writeImage
  try dsimp only
  repeat' first
    | with_reducible assumption
    | with_reducible apply State.wf_of_inv
    | with_reducible apply State.dropWithdrawn_inv
    | split
    | intro _
    | dsimp only
    | (unfold State.inv; dsimp only)

theorem State.writeBox_inv {s : State} (o : Nat) (bs : List Byte) (hm : s.inv) :
    (State.writeBox s o bs).inv := by
  unfold State.writeBox
  try dsimp only
  repeat' first
    | with_reducible assumption
    | with_reducible apply State.wf_of_inv
    | with_reducible apply foldl_inv
    | split
    | intro _
    | dsimp only
    | (unfold State.inv; dsimp only)

theorem State.boxDone_inv {s : State} (status : Nat) (hm : s.inv) :
    (State.boxDone s status).inv := by
  unfold State.boxDone
  try dsimp only
  repeat' first
    | with_reducible assumption
    | with_reducible apply State.wf_of_inv
    | with_reducible apply State.vector_inv
    | with_reducible apply State.writeBox_inv
    | split
    | intro _
    | dsimp only
    | (unfold State.inv; dsimp only)

theorem State.doorbell_inv {s : State} (hm : s.inv) :
    (State.doorbell s).inv := by
  unfold State.doorbell
  try dsimp only
  repeat' first
    | with_reducible assumption
    | with_reducible apply State.wf_of_inv
    | with_reducible apply State.boxDone_inv
    | split
    | intro _
    | dsimp only
    | (unfold State.inv; dsimp only)

theorem State.writeBar0_inv {s : State} (o : Nat) (v : Word) (hm : s.inv) :
    (State.writeBar0 s o v).inv := by
  unfold State.writeBar0
  try dsimp only
  repeat' first
    | with_reducible assumption
    | with_reducible apply State.wf_of_inv
    | with_reducible apply State.writeQctl_inv
    | with_reducible apply State.writeMevent_inv
    | with_reducible apply State.writePowercap_inv
    | with_reducible apply State.writeImage_inv
    | with_reducible apply State.writeBox_inv
    | with_reducible apply State.doorbell_inv
    | split
    | intro _
    | dsimp only
    | (unfold State.inv; dsimp only)

theorem execHostRegisterWrite_inv (off : BitVec 25) (value : Word) {s : State} (hm : s.inv) :
    KeepsOut (execHostRegisterWrite off value s) := by
  unfold execHostRegisterWrite
  try dsimp only
  repeat' first
    | with_reducible assumption
    | with_reducible apply State.wf_of_inv
    | with_reducible apply keepsOut_next
    | with_reducible apply State.writeBar0_inv
    | split
    | intro _
    | dsimp only
    | (unfold State.inv; dsimp only)

theorem execAttest_inv {s : State} (hm : s.inv) :
    KeepsOut (execAttest s) := by
  unfold execAttest
  try dsimp only
  repeat' first
    | with_reducible assumption
    | with_reducible apply State.wf_of_inv
    | with_reducible apply keepsOut_next
    | with_reducible apply State.writeBox_inv
    | with_reducible apply State.boxDone_inv
    | split
    | intro _
    | dsimp only
    | (unfold State.inv; dsimp only)

theorem execFwupdate_inv {s : State} (hm : s.inv) :
    KeepsOut (execFwupdate s) := by
  unfold execFwupdate
  try dsimp only
  repeat' first
    | with_reducible assumption
    | with_reducible apply State.wf_of_inv
    | with_reducible apply keepsOut_next
    | with_reducible apply State.boxDone_inv
    | split
    | intro _
    | dsimp only
    | (unfold State.inv; dsimp only)

theorem execCert_inv {s : State} (hm : s.inv) :
    KeepsOut (execCert s) := by
  unfold execCert
  try dsimp only
  repeat' first
    | with_reducible assumption
    | with_reducible apply State.wf_of_inv
    | with_reducible apply keepsOut_next
    | with_reducible apply State.writeBox_inv
    | with_reducible apply State.boxDone_inv
    | split
    | intro _
    | dsimp only
    | (unfold State.inv; dsimp only)

theorem State.setSvc_inv {s : State} (v : Svc) (hm : s.inv) :
    (State.setSvc s v).inv := by
  unfold State.setSvc
  try dsimp only
  repeat' first
    | with_reducible assumption
    | with_reducible apply State.wf_of_inv
    | with_reducible apply State.mevent_inv
    | split
    | intro _
    | dsimp only
    | (unfold State.inv; dsimp only)

theorem State.tryEarly_inv {s : State} (hm : s.inv) :
    (State.tryEarly s).inv := by
  unfold State.tryEarly
  try dsimp only
  repeat' first
    | with_reducible assumption
    | with_reducible apply State.wf_of_inv
    | with_reducible apply State.setSvc_inv
    | split
    | intro _
    | dsimp only
    | (unfold State.inv; dsimp only)

theorem State.resetModule_inv {s : State} (hm : s.inv) : (State.resetModule s).inv := by
  unfold State.resetModule State.keptMemory
  exact State.setSvc_inv _ hm

theorem execReset_inv {s : State} (hm : s.inv) :
    KeepsOut (execReset s) := by
  unfold execReset
  try dsimp only
  repeat' first
    | with_reducible assumption
    | with_reducible apply State.wf_of_inv
    | with_reducible apply keepsOut_next
    | with_reducible apply State.boxDone_inv
    | with_reducible apply State.resetModule_inv
    | split
    | intro _
    | dsimp only
    | (unfold State.inv; dsimp only)

theorem execPowerGood_inv {s : State} (hm : s.inv) :
    KeepsOut (execPowerGood s) := by
  unfold execPowerGood
  try dsimp only
  repeat' first
    | with_reducible assumption
    | with_reducible apply State.wf_of_inv
    | with_reducible apply keepsOut_next
    | with_reducible apply State.setSvc_inv
    | split
    | intro _
    | dsimp only
    | (unfold State.inv; dsimp only)

theorem execPowerFail_inv {s : State} (hm : s.inv) : KeepsOut (execPowerFail s) :=
  keepsOut_next (Memory.wf_filter _ hm)

theorem execFirmwareVerification_inv {s : State} (hm : s.inv) :
    KeepsOut (execFirmwareVerification s) := by
  unfold execFirmwareVerification
  try dsimp only
  repeat' first
    | with_reducible assumption
    | with_reducible apply State.wf_of_inv
    | with_reducible apply keepsOut_next
    | with_reducible apply State.setSvc_inv
    | with_reducible apply State.tryEarly_inv
    | split
    | intro _
    | dsimp only
    | (unfold State.inv; dsimp only)

theorem execBistCompletion_inv (clok : BitVec 9) (failed : Bool) {s : State} (hm : s.inv) :
    KeepsOut (execBistCompletion clok failed s) := by
  unfold execBistCompletion
  try dsimp only
  repeat' first
    | with_reducible assumption
    | with_reducible apply State.wf_of_inv
    | with_reducible apply keepsOut_next
    | with_reducible apply State.setSvc_inv
    | with_reducible apply State.tryEarly_inv
    | split
    | intro _
    | dsimp only
    | (unfold State.inv; dsimp only)

theorem execRecover_inv {s : State} (hm : s.inv) :
    KeepsOut (execRecover s) := by
  unfold execRecover
  try dsimp only
  repeat' first
    | with_reducible assumption
    | with_reducible apply State.wf_of_inv
    | with_reducible apply keepsOut_next
    | with_reducible apply State.boxDone_inv
    | with_reducible apply State.setSvc_inv
    | with_reducible apply State.tryEarly_inv
    | split
    | intro _
    | dsimp only
    | (unfold State.inv; dsimp only)

theorem State.tryFull_inv {s : State} (hm : s.inv) :
    (State.tryFull s).inv := by
  unfold State.tryFull
  try dsimp only
  repeat' first
    | with_reducible assumption
    | with_reducible apply State.wf_of_inv
    | with_reducible apply State.setSvc_inv
    | split
    | intro _
    | dsimp only
    | (unfold State.inv; dsimp only)

theorem execHbmTrainingComplete_inv {s : State} (hm : s.inv) :
    KeepsOut (execHbmTrainingComplete s) := by
  unfold execHbmTrainingComplete
  try dsimp only
  repeat' first
    | with_reducible assumption
    | with_reducible apply State.wf_of_inv
    | with_reducible apply keepsOut_next
    | with_reducible apply State.tryFull_inv
    | split
    | intro _
    | dsimp only
    | (unfold State.inv; dsimp only)

theorem execEarlyToFull_inv {s : State} (hm : s.inv) :
    KeepsOut (execEarlyToFull s) := by
  unfold execEarlyToFull
  try dsimp only
  repeat' first
    | with_reducible assumption
    | with_reducible apply State.wf_of_inv
    | with_reducible apply keepsOut_next
    | with_reducible apply State.tryFull_inv
    | split
    | intro _
    | dsimp only
    | (unfold State.inv; dsimp only)

theorem execTrainingFailure_inv (tier : DramTier) {s : State} (hm : s.inv) :
    KeepsOut (execTrainingFailure tier s) := by
  unfold execTrainingFailure
  try dsimp only
  repeat' first
    | with_reducible assumption
    | with_reducible apply State.wf_of_inv
    | with_reducible apply keepsOut_next
    | with_reducible apply State.mevent_inv
    | split
    | intro _
    | dsimp only
    | (unfold State.inv; dsimp only)

theorem execThermalThrottle_inv {s : State} (hm : s.inv) :
    KeepsOut (execThermalThrottle s) := by
  unfold execThermalThrottle
  try dsimp only
  repeat' first
    | with_reducible assumption
    | with_reducible apply State.wf_of_inv
    | with_reducible apply keepsOut_next
    | with_reducible apply State.mevent_inv
    | split
    | intro _
    | dsimp only
    | (unfold State.inv; dsimp only)

theorem execThermalThrottleEnd_inv {s : State} (hm : s.inv) :
    KeepsOut (execThermalThrottleEnd s) := by
  unfold execThermalThrottleEnd
  try dsimp only
  repeat' first
    | with_reducible assumption
    | with_reducible apply State.wf_of_inv
    | with_reducible apply keepsOut_next
    | split
    | intro _
    | dsimp only
    | (unfold State.inv; dsimp only)

theorem execThermalShutdown_inv {s : State} (hm : s.inv) :
    KeepsOut (execThermalShutdown s) := by
  unfold execThermalShutdown
  try dsimp only
  repeat' first
    | with_reducible assumption
    | with_reducible apply State.wf_of_inv
    | with_reducible apply keepsOut_next
    | with_reducible apply State.vector_inv
    | split
    | intro _
    | dsimp only
    | (unfold State.inv; dsimp only)

theorem State.logError_inv {s : State} (n : Nat) (hm : s.inv) :
    (State.logError s n).inv := by
  unfold State.logError
  try dsimp only
  repeat' first
    | with_reducible assumption
    | with_reducible apply State.wf_of_inv
    | split
    | intro _
    | dsimp only
    | (unfold State.inv; dsimp only)

theorem State.countSram_inv {s : State} (cl lo : Nat) (hm : s.inv) :
    (State.countSram s cl lo).inv := by
  unfold State.countSram
  try dsimp only
  repeat' first
    | with_reducible assumption
    | with_reducible apply State.wf_of_inv
    | with_reducible apply State.logError_inv
    | split
    | intro _
    | dsimp only
    | (unfold State.inv; dsimp only)

theorem State.corrected_inv {s : State} (p : Nat) (hm : s.inv) :
    (State.corrected s p).inv := by
  unfold State.corrected
  try dsimp only
  repeat' first
    | with_reducible assumption
    | with_reducible apply State.wf_of_inv
    | with_reducible apply State.logError_inv
    | with_reducible apply State.countSram_inv
    | split
    | intro _
    | dsimp only
    | (unfold State.inv; dsimp only)

theorem execPatrolScrub_inv (addr : Nat) (bad : Bool) {s : State} (hm : s.inv) :
    KeepsOut (execPatrolScrub addr bad s) := by
  unfold execPatrolScrub
  try dsimp only
  repeat' first
    | with_reducible assumption
    | with_reducible apply State.wf_of_inv
    | with_reducible apply keepsOut_next
    | with_reducible apply State.markWord_inv
    | with_reducible apply State.machineCheck_inv
    | with_reducible apply State.corrected_inv
    | split
    | intro _
    | dsimp only
    | (unfold State.inv; dsimp only)

theorem State.upsetFlit_inv {s : State} (n : Nat) (hit : Flight → BitVec 8 → State) (hm : s.inv)
    (hh : ∀ f c, (hit f c).inv) : (State.upsetFlit s n hit).inv := by
  unfold State.upsetFlit
  split
  · rename_i f _
    cases Flight.site f with
    | none => exact hm
    | some c => exact hh f c
  · exact hm

theorem State.upset_inv {s : State} (u : Upset) (hm : s.inv) :
    (State.upset s u).inv := by
  unfold State.upset
  try dsimp only
  repeat' first
    | with_reducible assumption
    | with_reducible apply State.wf_of_inv
    | with_reducible apply State.breakEntry_inv
    | with_reducible apply State.machineCheck_inv
    | with_reducible apply State.dropFlight_inv
    | with_reducible apply State.countSram_inv
    | with_reducible apply State.corrected_inv
    | with_reducible apply State.upsetFlit_inv
    | split
    | intro _
    | dsimp only
    | (unfold State.inv; dsimp only)

theorem execSoftErrorThreshold_inv {s : State} (hm : s.inv) :
    KeepsOut (execSoftErrorThreshold s) := by
  unfold execSoftErrorThreshold
  try dsimp only
  repeat' first
    | with_reducible assumption
    | with_reducible apply State.wf_of_inv
    | with_reducible apply keepsOut_next
    | with_reducible apply State.mevent_inv
    | split
    | intro _
    | dsimp only
    | (unfold State.inv; dsimp only)

theorem State.ctlReplyTo_inv {s : State} (dst : BitVec 27) (lab : Label) (from_ : CoreIx) (status bytes : Nat) (hm : s.inv) :
    (State.ctlReplyTo s dst lab from_ status bytes).inv := by
  unfold State.ctlReplyTo
  try dsimp only
  repeat' first
    | with_reducible assumption
    | with_reducible apply State.wf_of_inv
    | with_reducible apply State.launch_inv
    | split
    | intro _
    | dsimp only
    | (unfold State.inv; dsimp only)

theorem State.ctlReply_inv {s : State} (f : Flight) (status : Nat) (bytes : Nat) (hm : s.inv) :
    (State.ctlReply s f status bytes).inv := by
  unfold State.ctlReply
  try dsimp only
  repeat' first
    | with_reducible assumption
    | with_reducible apply State.wf_of_inv
    | with_reducible apply State.ctlReplyTo_inv
    | split
    | intro _
    | dsimp only
    | (unfold State.inv; dsimp only)

theorem State.control_inv {s : State} (n : Nat) (op : Flight → Bool) (go : State → Flight → State) (hm : s.inv) (hgo : ∀ (u : State) f, u.inv → (go u f).inv) :
    KeepsOut (State.control s n op go) := by
  unfold State.control
  try dsimp only
  repeat' first
    | with_reducible assumption
    | with_reducible apply State.wf_of_inv
    | with_reducible apply keepsOut_next
    | with_reducible apply hgo
    | with_reducible apply State.dropFlight_inv
    | split
    | intro _
    | dsimp only
    | (unfold State.inv; dsimp only)

theorem execFreeze_inv (n : Nat) {s : State} (hm : s.inv) :
    KeepsOut (execFreeze n s) := by
  unfold execFreeze
  try dsimp only
  repeat' first
    | with_reducible assumption
    | with_reducible apply State.wf_of_inv
    | with_reducible apply keepsOut_next
    | with_reducible apply State.freezeCore_inv
    | with_reducible apply State.ctlReply_inv
    | with_reducible apply State.control_inv
    | split
    | intro _
    | dsimp only
    | (unfold State.inv; dsimp only)

theorem State.releaseHeld_inv {s : State} (c : CoreIx) (discard : Bool) (hm : s.inv) :
    (State.releaseHeld s c discard).inv := by
  unfold State.releaseHeld
  try dsimp only
  repeat' first
    | with_reducible assumption
    | with_reducible apply State.wf_of_inv
    | with_reducible apply State.modCluster_inv
    | with_reducible apply State.discard_inv
    | split
    | intro _
    | dsimp only
    | (unfold State.inv; dsimp only)

theorem State.release_inv {s : State} (c : CoreIx) (discard discardCmd : Bool) (hm : s.inv) :
    (State.release s c discard discardCmd).inv := by
  unfold State.release
  try dsimp only
  repeat' first
    | with_reducible assumption
    | with_reducible apply State.wf_of_inv
    | with_reducible apply State.modCore_inv
    | with_reducible apply State.discard_inv
    | with_reducible apply State.releaseHeld_inv
    | split
    | intro _
    | dsimp only
    | (unfold State.inv; dsimp only)

theorem execRelease_inv (n : Nat) {s : State} (hm : s.inv) :
    KeepsOut (execRelease n s) := by
  unfold execRelease
  try dsimp only
  repeat' first
    | with_reducible assumption
    | with_reducible apply State.wf_of_inv
    | with_reducible apply keepsOut_next
    | with_reducible apply State.ctlReply_inv
    | with_reducible apply State.control_inv
    | with_reducible apply State.release_inv
    | split
    | intro _
    | dsimp only
    | (unfold State.inv; dsimp only)

theorem State.modLaunch_inv {s : State} (j : BitVec 8) (f : Launch → Launch) (hm : s.inv) :
    (State.modLaunch s j f).inv := by
  unfold State.modLaunch
  try dsimp only
  repeat' first
    | with_reducible assumption
    | with_reducible apply State.wf_of_inv
    | split
    | intro _
    | dsimp only
    | (unfold State.inv; dsimp only)

theorem State.ctlAll_inv {s : State} (ms : List (BitVec 12)) (op : Nat) (job : BitVec 8) (ws : List Word) (hm : s.inv) :
    (State.ctlAll s ms op job ws).inv := by
  unfold State.ctlAll
  try dsimp only
  repeat' first
    | with_reducible assumption
    | with_reducible apply State.wf_of_inv
    | with_reducible apply State.ctl_inv
    | with_reducible apply foldl_inv
    | split
    | intro _
    | dsimp only
    | (unfold State.inv; dsimp only)

theorem State.abortOwn_inv {s : State} (job : BitVec 8) (hm : s.inv) :
    (State.abortOwn s job).inv := by
  unfold State.abortOwn
  try dsimp only
  repeat' first
    | with_reducible assumption
    | with_reducible apply State.wf_of_inv
    | with_reducible apply State.mevent_inv
    | with_reducible apply State.queueError_inv
    | with_reducible apply State.unbind_inv
    | with_reducible apply State.giveBack_inv
    | split
    | intro _
    | dsimp only
    | (unfold State.inv; dsimp only)

theorem State.closeAbort_inv {s : State} (job : BitVec 8) (hm : s.inv) :
    (State.closeAbort s job).inv := by
  unfold State.closeAbort
  try dsimp only
  repeat' first
    | with_reducible assumption
    | with_reducible apply State.wf_of_inv
    | split
    | intro _
    | dsimp only
    | (unfold State.inv; dsimp only)

theorem State.told_inv {s : State} (job : BitVec 8) (m : BitVec 12) (hm : s.inv) :
    (State.told s job m).inv := by
  unfold State.told
  try dsimp only
  repeat' first
    | with_reducible assumption
    | with_reducible apply State.wf_of_inv
    | with_reducible apply State.modLaunch_inv
    | split
    | intro _
    | dsimp only
    | (unfold State.inv; dsimp only)

theorem execReady_inv (n : Nat) {s : State} (hm : s.inv) :
    KeepsOut (execReady n s) := by
  unfold execReady
  try dsimp only
  repeat' first
    | with_reducible assumption
    | with_reducible apply State.wf_of_inv
    | with_reducible apply keepsOut_next
    | with_reducible apply State.ctl_inv
    | with_reducible apply State.ctlReply_inv
    | with_reducible apply State.control_inv
    | with_reducible apply State.ctlAll_inv
    | with_reducible apply State.abortOwn_inv
    | with_reducible apply State.closeAbort_inv
    | with_reducible apply State.told_inv
    | split
    | intro _
    | dsimp only
    | (unfold State.inv; dsimp only)

theorem execOpen_inv (n : Nat) {s : State} (hm : s.inv) :
    KeepsOut (execOpen n s) := by
  unfold execOpen
  try dsimp only
  repeat' first
    | with_reducible assumption
    | with_reducible apply State.wf_of_inv
    | with_reducible apply keepsOut_next
    | with_reducible apply State.modJob_inv
    | with_reducible apply State.ctlReply_inv
    | with_reducible apply State.control_inv
    | split
    | intro _
    | dsimp only
    | (unfold State.inv; dsimp only)

theorem execAbort_inv (n : Nat) {s : State} (hm : s.inv) :
    KeepsOut (execAbort n s) := by
  unfold execAbort
  try dsimp only
  repeat' first
    | with_reducible assumption
    | with_reducible apply State.wf_of_inv
    | with_reducible apply keepsOut_next
    | with_reducible apply State.ctlReply_inv
    | with_reducible apply State.control_inv
    | with_reducible apply State.modLaunch_inv
    | with_reducible apply State.ctlAll_inv
    | with_reducible apply State.abortOwn_inv
    | with_reducible apply State.closeAbort_inv
    | with_reducible apply State.told_inv
    | split
    | intro _
    | dsimp only
    | (unfold State.inv; dsimp only)

theorem execQreport_inv (n : Nat) {s : State} (hm : s.inv) :
    KeepsOut (execQreport n s) := by
  unfold execQreport
  try dsimp only
  repeat' first
    | with_reducible assumption
    | with_reducible apply State.wf_of_inv
    | with_reducible apply keepsOut_next
    | with_reducible apply State.ctlReply_inv
    | with_reducible apply State.control_inv
    | with_reducible apply State.modLaunch_inv
    | with_reducible apply State.ctlAll_inv
    | split
    | intro _
    | dsimp only
    | (unfold State.inv; dsimp only)

theorem execRetire_inv (n : Nat) {s : State} (hm : s.inv) :
    KeepsOut (execRetire n s) := by
  unfold execRetire
  try dsimp only
  repeat' first
    | with_reducible assumption
    | with_reducible apply State.wf_of_inv
    | with_reducible apply keepsOut_next
    | with_reducible apply State.mevent_inv
    | with_reducible apply State.modJob_inv
    | with_reducible apply State.ctlReply_inv
    | with_reducible apply State.control_inv
    | split
    | intro _
    | dsimp only
    | (unfold State.inv; dsimp only)

theorem execTlh_inv (n : Nat) {s : State} (hm : s.inv) :
    KeepsOut (execTlh n s) := by
  unfold execTlh
  try dsimp only
  repeat' first
    | with_reducible assumption
    | with_reducible apply State.wf_of_inv
    | with_reducible apply keepsOut_next
    | with_reducible apply State.ctlReply_inv
    | with_reducible apply State.control_inv
    | with_reducible apply State.modLaunch_inv
    | split
    | intro _
    | dsimp only
    | (unfold State.inv; dsimp only)

theorem inRange_inv {s : State} (lo hi : Nat) (v : Word) {go : State} (hm : s.inv) (hgo : go.inv) :
    (inRange s lo hi v go).1.inv := by
  unfold inRange
  try dsimp only
  repeat' first
    | with_reducible assumption
    | with_reducible apply State.wf_of_inv
    | split
    | intro _
    | dsimp only
    | (unfold State.inv; dsimp only)

theorem State.cfgWrite_inv {s : State} (n : Nat) (v : Word) (hm : s.inv) :
    (State.cfgWrite s n v).1.inv := by
  unfold State.cfgWrite
  try dsimp only
  repeat' first
    | with_reducible assumption
    | with_reducible apply State.wf_of_inv
    | with_reducible apply State.modCluster_inv
    | with_reducible apply State.writeGov_inv
    | with_reducible apply inRange_inv
    | split
    | intro _
    | dsimp only
    | (unfold State.inv; dsimp only)

theorem execCfgw_inv (n : Nat) {s : State} (hm : s.inv) :
    KeepsOut (execCfgw n s) := by
  unfold execCfgw
  try dsimp only
  repeat' first
    | with_reducible assumption
    | with_reducible apply State.wf_of_inv
    | with_reducible apply keepsOut_next
    | with_reducible apply State.ctlReply_inv
    | with_reducible apply State.control_inv
    | with_reducible apply State.cfgWrite_inv
    | split
    | intro _
    | dsimp only
    | (unfold State.inv; dsimp only)

theorem State.applyStaged_inv {s : State} (hm : s.inv) :
    (State.applyStaged s).inv := by
  unfold State.applyStaged
  try dsimp only
  repeat' first
    | with_reducible assumption
    | with_reducible apply State.wf_of_inv
    | with_reducible apply foldl_inv
    | split
    | intro _
    | dsimp only
    | (unfold State.inv; dsimp only)

theorem execPapply_inv (n : Nat) {s : State} (hm : s.inv) :
    KeepsOut (execPapply n s) := by
  unfold execPapply
  try dsimp only
  repeat' first
    | with_reducible assumption
    | with_reducible apply State.wf_of_inv
    | with_reducible apply keepsOut_next
    | with_reducible apply State.ctlReply_inv
    | with_reducible apply State.control_inv
    | with_reducible apply State.applyStaged_inv
    | split
    | intro _
    | dsimp only
    | (unfold State.inv; dsimp only)

theorem State.saveSlots_inv {α : Type} {s : State} (rec : Nat → Nat) (x : α) (sl : List (Slot α)) (hm : s.inv) :
    (State.saveSlots s rec x sl).inv := by
  unfold State.saveSlots
  try dsimp only
  repeat' first
    | with_reducible assumption
    | with_reducible apply State.wf_of_inv
    | with_reducible apply State.put64_inv
    | with_reducible apply foldl_inv
    | split
    | intro _
    | dsimp only
    | (unfold State.inv; dsimp only)

theorem State.saveInbox_inv {s : State} (rec : Nat → Nat) (k : Core) (m : Message) (hm : s.inv) :
    (State.saveInbox s rec k m).inv := by
  unfold State.saveInbox
  try dsimp only
  repeat' first
    | with_reducible assumption
    | with_reducible apply State.wf_of_inv
    | with_reducible apply State.storeAt_inv
    | split
    | intro _
    | dsimp only
    | (unfold State.inv; dsimp only)

theorem State.saveCore_inv {s : State} (rec : Nat → Nat) (c : CoreIx) (k : Core) (hm : s.inv) :
    (State.saveCore s rec c k).inv := by
  unfold State.saveCore
  try dsimp only
  repeat' first
    | with_reducible assumption
    | with_reducible apply State.wf_of_inv
    | with_reducible apply State.storeWord_inv
    | with_reducible apply State.put64_inv
    | with_reducible apply State.saveSlots_inv
    | with_reducible apply State.saveInbox_inv
    | with_reducible apply getD_inv
    | with_reducible apply foldl_inv
    | split
    | intro _
    | dsimp only
    | (unfold State.inv; dsimp only)

/-- Words stored at places that a list names keep the canonical form. -/
theorem foldl_storeWord_inv {α : Type} (l : List α) (p : α → Nat) (d : State → α → Word) (m : BitVec 16) (q : State → α → Bool)
    {s : State} (hm : s.inv) :
    (l.foldl (fun s i => s.storeWord (p i) (d s i) m (q s i)) s).inv :=
  foldl_inv hm fun _ _ hu => State.storeWord_inv _ _ _ _ hu

theorem State.loadTcm_inv {s : State} (rec : Nat → Nat) (c : CoreIx) (hm : s.inv) :
    (State.loadTcm s rec c).inv :=
  foldl_storeWord_inv _ (fun i => tcmPlace c (8 * i)) (fun s i => s.word (rec (8 * i))) (BitVec.allOnes 16)
    (fun s i => s.poisoned (rec (8 * i))) hm

theorem State.copyTile_inv {s : State} (src dst : Nat) (hm : s.inv) :
    (State.copyTile s src dst).inv := by
  unfold State.copyTile
  try dsimp only
  repeat' first
    | with_reducible assumption
    | with_reducible apply State.wf_of_inv
    | with_reducible apply State.putBytes_inv
    | with_reducible apply State.setEntry_inv
    | with_reducible apply State.markTile_inv
    | with_reducible apply State.setTile_inv
    | split
    | intro _
    | dsimp only
    | (unfold State.inv; dsimp only)

theorem State.saveEng_inv {s : State} (a : SaveArea) (ks : List EngCmd) (hm : s.inv) :
    (State.saveEng s a ks).inv := by
  unfold State.saveEng
  try dsimp only
  repeat' first
    | with_reducible assumption
    | with_reducible apply State.wf_of_inv
    | with_reducible apply State.place_inv
    | with_reducible apply State.storeAt_inv
    | with_reducible apply State.saveSlots_inv
    | with_reducible apply foldl_inv
    | split
    | intro _
    | dsimp only
    | (unfold State.inv; dsimp only)

theorem State.saveArray_inv {s : State} (rec : Nat → Nat) (m : MatArray) (hm : s.inv) :
    (State.saveArray s rec m).inv := by
  unfold State.saveArray
  try dsimp only
  repeat' first
    | with_reducible assumption
    | with_reducible apply State.wf_of_inv
    | with_reducible apply State.put64_inv
    | with_reducible apply State.storeAt_inv
    | with_reducible apply getD_inv
    | with_reducible apply foldl_inv
    | split
    | intro _
    | dsimp only
    | (unfold State.inv; dsimp only)

theorem execPreempt_inv (n : Nat) {s : State} (hm : s.inv) :
    KeepsOut (execPreempt n s) := by
  unfold execPreempt
  try dsimp only
  repeat' first
    | with_reducible assumption
    | with_reducible apply State.wf_of_inv
    | with_reducible apply keepsOut_next
    | with_reducible apply State.modCluster_inv
    | with_reducible apply State.ctlReply_inv
    | with_reducible apply State.control_inv
    | split
    | intro _
    | dsimp only
    | (unfold State.inv; dsimp only)

theorem State.stopThread_inv {s : State} (c : CoreIx) (t : ThrIx) (hm : s.inv) :
    (State.stopThread s c t).inv := by
  unfold State.stopThread
  try dsimp only
  repeat' first
    | with_reducible assumption
    | with_reducible apply State.wf_of_inv
    | with_reducible apply State.modTh_inv
    | with_reducible apply State.commitThread_inv
    | split
    | intro _
    | dsimp only
    | (unfold State.inv; dsimp only)

theorem State.stopTeam_inv {s : State} (cl : BitVec 8) (job : BitVec 8) (hm : s.inv) :
    (State.stopTeam s cl job).inv := by
  unfold State.stopTeam
  try dsimp only
  repeat' first
    | with_reducible assumption
    | with_reducible apply State.wf_of_inv
    | with_reducible apply State.modCore_inv
    | with_reducible apply State.modCluster_inv
    | with_reducible apply State.stopThread_inv
    | with_reducible apply foldl_inv
    | split
    | intro _
    | dsimp only
    | (unfold State.inv; dsimp only)

theorem State.saveHeader_inv {s : State} (cl : BitVec 8) (g : Grace) (arrays engs : Nat) (hm : s.inv) :
    (State.saveHeader s cl g arrays engs).inv := by
  unfold State.saveHeader
  try dsimp only
  repeat' first
    | with_reducible assumption
    | with_reducible apply State.wf_of_inv
    | with_reducible apply State.place_inv
    | with_reducible apply State.put64_inv
    | with_reducible apply getD_inv
    | with_reducible apply foldl_inv
    | split
    | intro _
    | dsimp only
    | (unfold State.inv; dsimp only)

/-- Tiles copied between places that a list names keep the canonical form. -/
theorem foldl_copyTile_inv {α : Type} (l : List α) (p q : α → Nat) {s : State} (hm : s.inv) :
    (l.foldl (fun s i => s.copyTile (p i) (q i)) s).inv :=
  foldl_inv hm fun _ _ hu => State.copyTile_inv _ _ hu

theorem State.writeArea_inv {s : State} (cl : BitVec 8) (g : Grace) (mine : List EngCmd) (arrs : List (BitVec 2))
    (hm : s.inv) : (State.writeArea s cl g mine arrs).inv :=
  foldl_copyTile_inv _ _ _
    (foldl_inv (foldl_inv (State.saveEng_inv _ _ (State.saveHeader_inv _ _ _ _ hm)) fun _ _ hu => State.saveArray_inv _ _ hu)
      fun _ _ hu => State.saveCore_inv _ _ _ hu)

theorem State.vacate_inv {s : State} (cl : BitVec 8) (g : Grace) (v : Saved) (arrs : List (BitVec 2)) (hm : s.inv) :
    (State.vacate s cl g v arrs).inv := by
  unfold State.vacate
  try dsimp only
  repeat' first
    | with_reducible assumption
    | with_reducible apply State.wf_of_inv
    | with_reducible apply State.modCore_inv
    | with_reducible apply State.modCluster_inv
    | with_reducible apply State.modMat_inv
    | with_reducible apply foldl_inv
    | split
    | intro _
    | dsimp only
    | (unfold State.inv; dsimp only)

theorem State.saveTeam_inv {s : State} (cl : BitVec 8) (g : Grace) (hm : s.inv) :
    (State.saveTeam s cl g).inv := by
  unfold State.saveTeam
  try dsimp only
  repeat' first
    | with_reducible assumption
    | with_reducible apply State.wf_of_inv
    | with_reducible apply State.modCore_inv
    | with_reducible apply State.ctlReplyTo_inv
    | with_reducible apply State.writeArea_inv
    | with_reducible apply State.vacate_inv
    | with_reducible apply foldl_inv
    | split
    | intro _
    | dsimp only
    | (unfold State.inv; dsimp only)

theorem execPreemptGraceEnd_inv (cl : BitVec 8) {s : State} (hm : s.inv) :
    KeepsOut (execPreemptGraceEnd cl s) := by
  unfold execPreemptGraceEnd
  try dsimp only
  repeat' first
    | with_reducible assumption
    | with_reducible apply State.wf_of_inv
    | with_reducible apply keepsOut_next
    | with_reducible apply State.modCore_inv
    | with_reducible apply State.stopTeam_inv
    | with_reducible apply State.saveTeam_inv
    | with_reducible apply foldl_inv
    | split
    | intro _
    | dsimp only
    | (unfold State.inv; dsimp only)

theorem State.restoreTeam_inv {s : State} (cl : BitVec 8) (v : Saved) (a : SaveArea) (hm : s.inv) :
    (State.restoreTeam s cl v a).inv := by
  unfold State.restoreTeam
  try dsimp only
  repeat' first
    | with_reducible assumption
    | with_reducible apply State.wf_of_inv
    | with_reducible apply State.setCore_inv
    | with_reducible apply State.modCluster_inv
    | with_reducible apply State.modMat_inv
    | with_reducible apply State.loadTcm_inv
    | with_reducible apply State.copyTile_inv
    | with_reducible apply getD_inv
    | with_reducible apply foldl_inv
    | split
    | intro _
    | dsimp only
    | (unfold State.inv; dsimp only)

theorem execRestore_inv (n : Nat) {s : State} (hm : s.inv) :
    KeepsOut (execRestore n s) := by
  unfold execRestore
  try dsimp only
  repeat' first
    | with_reducible assumption
    | with_reducible apply State.wf_of_inv
    | with_reducible apply keepsOut_next
    | with_reducible apply State.place_inv
    | with_reducible apply State.ctlReply_inv
    | with_reducible apply State.control_inv
    | with_reducible apply State.restoreTeam_inv
    | with_reducible apply getD_inv
    | split
    | intro _
    | dsimp only
    | (unfold State.inv; dsimp only)

theorem execResume_inv (n : Nat) {s : State} (hm : s.inv) :
    KeepsOut (execResume n s) := by
  unfold execResume
  try dsimp only
  repeat' first
    | with_reducible assumption
    | with_reducible apply State.wf_of_inv
    | with_reducible apply keepsOut_next
    | with_reducible apply State.modCore_inv
    | with_reducible apply State.ctlReply_inv
    | with_reducible apply State.control_inv
    | with_reducible apply foldl_inv
    | split
    | intro _
    | dsimp only
    | (unfold State.inv; dsimp only)


end Sys2Proof.Machine
end

