-- ==== Sys2Proof/Tests/Slice0.lean ====
section
/-! SUPPORT. Tests: ill-formed terms refused, words of the spec decoded, single steps with the spec's own examples,
and for every statement with hypotheses a state and operands that meet them. -/

open Sys2Proof Sys2Proof.Machine

namespace Tests

/- One proof after another: so many at once would each wait in a thread of its own. -/
set_option Elab.async false

/-! ### Ill-formed terms, one for each check -/

/-- s30 as a source, s29 as a destination, a field both read and written as a port (R48). -/
theorem test_wf_ports : Instr.wf (.add 4 30 5) = false ∧ Instr.wf (.add 29 4 5) = false ∧
    Instr.wf (.bool3 30 4 5 0) = false ∧ Instr.wf (.ins 29 4 0 0) = false ∧ Instr.wf (.cas false 29 4 5) = false ∧
    Instr.wf (.add 30 29 29) = true := by decide

/-- The range and page instructions name no port (R379). -/
theorem test_wf_supervisor_ports : Instr.wf (.rngw 29 4 5) = false ∧ Instr.wf (.rngr 30 4 false) = false ∧
    Instr.wf (.pgr 30 4) = false ∧ Instr.wf (.pgr 4 5) = true := by decide

/-- No SR in a rounding field (R27, R263). -/
theorem test_wf_rounding : Instr.wf (.fadd .f32 .sr 4 5 6) = false ∧ Instr.wf (.fsub .f32 .sr 4 5 6) = false ∧
    Instr.wf (.fmul .f32 .sr 4 5 6) = false ∧ Instr.wf (.vaddFp .f32 .sr 1 2 3 0) = false ∧
    Instr.wf (.vfma .f32 .sr 1 2 3 0) = false ∧ Instr.wf (.vdiv .f32 .sr 1 2 3 0) = false ∧
    Instr.wf (.vrcp .f32 .sr 1 2 0) = false ∧ Instr.wf (.vcvt .f32 .bf16 false .sr 1 2 0 0) = false := by decide

/-- Bitfields within the word; no sign extension of eight bytes; `get` not in class trump. -/
theorem test_wf_ranges : Instr.wf (.ext 4 5 8 56) = false ∧ Instr.wf (.extn 4 5 63 1) = false ∧
    Instr.wf (.ins 4 5 1 63) = false ∧ Instr.wf (.ext 4 5 8 55) = true ∧ Instr.wf (.ldn .d true 4 5 0) = false ∧
    Instr.wf (.ldf .d true 4 5 0) = false ∧ Instr.wf (.get .trump 4 5 0 6) = false := by decide

/-- Vector types, conversion parts, immediate shifts (R64, R65, R267, R272). -/
theorem test_wf_vector : Instr.wf (.vaddInt .bf16 1 2 3 0) = false ∧ Instr.wf (.vsll .f32 1 2 3 0) = false ∧
    Instr.wf (.vcmp .eq .e4m3 1 2 3 0) = false ∧ Instr.wf (.vredadd .e2m1 1 2 0) = false ∧
    Instr.wf (.vcvt .f32 .bf16 false .rne 1 2 2 0) = false ∧ Instr.wf (.vcvt .f32 .bf16 true .rne 1 2 0 0) = false ∧
    Instr.wf (.vcvt .i64 .e2m1 false .rne 1 2 0 0) = false ∧ Instr.wf (.vslli .i8 1 2 8 0) = false ∧
    Instr.wf (.vsrai .i64 1 2 63 0) = true := by decide

/-- Format pairs and tags of the engine and the arrays (Table 11.2, R159, R300). -/
theorem test_wf_formats : Instr.wf (.mop 0 false .bf16 .f16 1 2 3 0) = false ∧ Instr.wf (.mload 0 false .e4m3 1 0) = false ∧
    Instr.wf (.mdrain 0 false .e2m1 .rne false 0 1 0) = false ∧ Instr.wf (.tident .i32 0 1 2 0) = false ∧
    Instr.wf (.xcopy ⟨true, true⟩ .raw .trump 1 2 3 0) = false ∧
    Instr.wf (.xscatter false false .bf16 .normal 1 2 3 4 0) = false ∧ Instr.wf (.xpack false .i16 .bulk 1 2 3 0) = false ∧
    Instr.wf (.xembed .i8 .normal 1 2 3 4 0) = false ∧ Instr.wf (.xstream false false .trump 1 2 3 4 0) = false ∧
    Instr.wf (.mop 0 false .i8 .n8 1 2 3 0) = true := by decide

/-! ### Words of the spec, bit by bit (the fields of the encoding tables of chapter 2, highest first) -/

theorem test_decode_add : decodeTableWord 32 0b000000_00110_00100_00111_00000000001 = some (.add 6 4 7) := by decide +kernel
theorem test_decode_adds : decodeTableWord 32 0x00E74819 = some (.adds 7 7 9) := by decide +kernel
theorem test_decode_immediate : decodeTableWord 32 0x25203F80 = some (.lui 9 0x3F80) ∧
    decodeTableWord 32 0x20850003 = some (.slli 4 5 3) := by decide +kernel
theorem test_decode_ext : decodeTableWord 32 0b000011_00100_00101_001000_001011_0000 = some (.ext 4 5 8 11) := by decide +kernel
theorem test_decode_compare : decodeTableWord 32 0x28919200 = some (.cmp 1 .lt 6 9) := by decide +kernel
theorem test_decode_jalr : decodeTableWord 32 0b100011_11111_01001_0000000000000000 = some (.jalr 31 9 0) := by decide +kernel
theorem test_decode_near : decodeTableWord 32 0x40856010 = some (.ldn .d false 4 5 16) ∧
    decodeTableWord 32 0x44E56000 = some (.stn .d 7 5 0) := by decide +kernel
theorem test_decode_far : decodeTableWord 32 0x4CC94008 = some (.stf .w 6 9 8) ∧
    decodeTableWord 32 0x500832B0 = some (.amoPost .faddBf16 true 8 6) := by decide +kernel
theorem test_decode_csr : decodeTableWord 32 0xAD014004 = some (.csrw 0 5 .fflags) := by decide +kernel
theorem test_decode_send : decodeTableWord 32 0xA0252800 = some (.send .normal 5 20 0) ∧
    decodeTableWord 32 0xA0C52A60 = some (.sendR .high 5 21 3) := by decide +kernel
theorem test_decode_messages : decodeTableWord 32 0xA1A63C00 = some (.mcast .normal 6 30 0) ∧
    decodeTableWord 32 0xA28701EA = some (.put 7 15 10) ∧ decodeTableWord 32 0xA6940000 = some (.tlaunch 5) := by decide +kernel
theorem test_decode_vector : decodeTableWord 32 0x68873080 = some (.vldf 2 7 3 128) := by decide +kernel
theorem test_decode_engine : decodeTableWord 64 0x000008A1FEC84A96 = some (.xembed .bf16 .normal 8 9 10 11 33) ∧
    decodeTableWord 64 0x00001B8EFD60280C = some (.tident .e4m3 3 5 6 14) ∧
    decodeTableWord 64 0x00004814FE042980 = some (.xcopy ⟨false, true⟩ .bf16 .bulk 4 5 6 20) := by decide +kernel
theorem test_decode_matrix : decodeTableWord 64 0x00001818FC804800 = some (.mload 0 false .f32 9 24) ∧
    decodeTableWord 64 0x00000197FC600000 = some (.mzero 3 false 23) := by decide +kernel
theorem test_decode_directory : decodeTableWord 64 0xFD042800 = some (.tdir 4 5) := by decide +kernel
/-- Words that are no instruction. -/
theorem test_decode_refused : decodeTableWord 32 0 = none ∧ decodeTableWord 32 0xFFFFFFFF = none := by decide +kernel

/-! ### Small states -/

/-- A ready thread with an instance, and with scalar registers. -/
def thr : Thread := { run := .ready, inst := some (1, .normal) }
def regs (rs : List (Fin 32 × Word)) : Thread :=
  { thr with s := rs.foldl (fun v r => v.set r.1 r.2) (Vector.replicate 32 0) }
/-- A thread with vector registers v1 and v2. -/
def vecs (x y : Vec) : Thread := { thr with v := ((Vector.replicate 16 0).set 1 x).set 2 y }

/-- Core 0 of cluster 0 in job 5 with a thread 0: XB 256, a window of 4 tiles, a trap handler at 64, a kitty. -/
def kernel (th : Thread) : Core :=
  { threads := (Vector.replicate 8 {}).set 0 th, job := 5, member := true, size := 1, xb := 4, tvEn := true, tvEntry := 16,
    winBase := 0, winTiles := 4, kitty := { size := 4096 } }

/-- The module in full service, with a job 5 of that core. -/
def withCore (k : Core) : State :=
  { State.reset with cores := [(0, k)], jobs := [(5, { gate := true, cores := [0] })],
                     care := { svc := .full, hbmOk := true, lpOk := true, linkOk := true, powered := true } }
def at' (th : Thread) : State := withCore (kernel th)

/-- Whether an answer is a next state that meets a test. -/
def gives (o : Out) (f : State → Bool) : Bool :=
  match o with
  | .next t => f t
  | _ => false
/-- The same of the executing thread. -/
def ends (o : Out) (f : Thread → Bool) : Bool := gives o fun t => f t.th

/-! ### Single steps, expected values from the spec's examples -/

/-- Table 9.1's example: `adds` clamps and sets SAT. -/
theorem test_adds_saturates : ends (exec (.adds 6 4 5) (at' (regs [(4, 0x7FFFFFFFFFFFFFF8), (5, 12)])))
    (fun t => t.reg 6 == 0x7FFFFFFFFFFFFFFF && t.fflags == 0b100000 && t.pc == 4) = true := by decide +kernel
/-- `subsu` of 3 − 5 gives 0 and SAT. -/
theorem test_subsu_floor : ends (exec (.subsu 6 4 5) (at' (regs [(4, 3), (5, 5), (6, 9)])))
    (fun t => t.reg 6 == 0 && t.fflags == 0b100000) = true := by decide +kernel
/-- `mulhsu` of −1 and 2. -/
theorem test_mulhsu : ends (exec (.mulhsu 6 4 5) (at' (regs [(4, 0xFFFFFFFFFFFFFFFF), (5, 2)])))
    (fun t => t.reg 6 == 0xFFFFFFFFFFFFFFFF) = true := by decide +kernel
/-- R19: −7 by 2 gives −3 remainder −1, and 5 by 0 gives −1 remainder 5. -/
theorem test_division : ends (exec (.div 6 4 5) (at' (regs [(4, -7), (5, 2)]))) (fun t => t.reg 6 == -3) = true ∧
    ends (exec (.rem 6 4 5) (at' (regs [(4, -7), (5, 2)]))) (fun t => t.reg 6 == -1) = true ∧
    ends (exec (.div 6 4 0) (at' (regs [(4, 5)]))) (fun t => t.reg 6 == -1) = true ∧
    ends (exec (.rem 6 4 0) (at' (regs [(4, 5)]))) (fun t => t.reg 6 == 5) = true := by decide +kernel
/-- R240's example. -/
theorem test_fshl : ends (exec (.fshlImm 4 5 6 8) (at' (regs [(5, 0xAB), (6, 0xCD00000000000000)])))
    (fun t => t.reg 4 == 0xABCD) = true := by decide +kernel
/-- R241's example. -/
theorem test_ext : ends (exec (.ext 4 5 8 11) (at' (regs [(5, 0x00ABC800)]))) (fun t => t.reg 4 == 0xFFFFFFFFFFFFFBC8) = true ∧
    ends (exec (.extn 4 5 8 11) (at' (regs [(5, 0x00ABC800)]))) (fun t => t.reg 4 == 0xBC8) = true := by decide +kernel
/-- R22, R34: infinity less infinity is the canonical NaN with NV. -/
theorem test_fadd_invalid : ends (exec (.fadd .f32 .rne 4 5 6) (at' (regs [(5, 0x7F800000), (6, 0xFF800000)])))
    (fun t => t.reg 4 == 0x7FC00000 && t.fflags == 0b010000) = true := by decide +kernel
/-- R245: `jalr s9, s9, 0` jumps to the old value of s9; bits [1:0] trap, with no register written. -/
theorem test_jalr : ends (exec (.jalr 9 9 0) (at' (regs [(9, 0x40)]))) (fun t => t.pc == 0x40 && t.reg 9 == 4) = true ∧
    ends (exec (.jalr 9 9 2) (at' (regs [(9, 0x40)])))
      (fun t => t.trap && t.tcause == 2 && t.taddr == 0x42 && t.reg 9 == 0x40 && t.pc == 64) = true := by decide +kernel
/-- R257: `trap` saves PC + 4, `brk` its own address. -/
theorem test_trap_brk : ends (exec (.trap 7) (at' thr)) (fun t => t.tepc == 4 && t.taddr == 7 && t.tcause == 10 && t.pc == 64) = true ∧
    ends (exec (.brk 7) (at' thr)) (fun t => t.tepc == 0 && t.taddr == 7 && t.tcause == 11) = true := by decide +kernel
/-- R48, R218, R219: s29 pops in field order, s30 pushes, s0 discards. -/
theorem test_ports : ends (exec (.sub 30 29 29) (at' { thr with msg := some { hdr := { plen := 1 }, words := [9, 2], arrived := 1 } }))
    (fun t => t.out == [7] && t.popped == 2 && !t.ine) = true ∧
    ends (exec (.add 0 29 0) (at' thr)) (fun t => t.ine && t.reg 0 == 0) = true := by decide +kernel
/-- A source that is also the destination; a wrap. -/
theorem test_add_wraps : ends (exec (.add 4 4 4) (at' (regs [(4, 0x8000000000000001)]))) (fun t => t.reg 4 == 2) = true := by
  decide +kernel
/-- Table 10.2's examples. -/
theorem test_vector_saturates : ends (exec (.vadds .i8 3 1 2 0) (at' (vecs 0x7F 0x02)))
      (fun t => t.vreg 3 == 0x7F && t.fflags == 0b100000) = true ∧
    ends (exec (.vsubs .n16 3 1 2 0) (at' (vecs 3 5))) (fun t => t.vreg 3 == 0 && t.fflags == 0b100000) = true ∧
    ends (exec (.vabsInt .i8 3 1 0) (at' (vecs 0x80 0))) (fun t => t.vreg 3 == 0x80 && t.fflags == 0) = true := by decide +kernel
/-- R268's example: part 1 puts the results into elements 16 on; lanes 0 to 3 stay. -/
theorem test_vcvt_part : ends (exec (.vcvt .f32 .bf16 false .rne 1 2 1 0) (at' (vecs 0x1234 0x404000003F808000)))
    (fun t => t.vreg 1 == 0x1234 + 0x40403F80 * 2 ^ 256 && t.fflags == 1) = true := by decide +kernel
/-- R31's example: E4M3 near the top, saturating and not, under RNE and RZ. -/
theorem test_convert_e4m3 : convert (.flt .fp32) (.flt .e4m3) false .rne 0x43960000 = (0x79, 1) ∧
    convert (.flt .fp32) (.flt .e4m3) false .rne 0x43E80000 = (0x7E, 1) ∧
    convert (.flt .fp32) (.flt .e4m3) false .rne 0x43EB0000 = (0x7E, 0b101) ∧
    convert (.flt .fp32) (.flt .e4m3) true .rne 0x43EB0000 = (0x7F, 0b101) ∧
    convert (.flt .fp32) (.flt .e4m3) true .rz 0x43EB0000 = (0x7E, 1) := by decide +kernel
/-- R271's example: 2²⁴ first, then fifteen ones. -/
theorem test_vredadd_order : ends (exec (.vredadd .f32 3 1 0)
      (at' (vecs (BitVec.ofNat 512 (0x4B800000 + ((List.range 15).map fun i => 0x3F800000 * 2 ^ (32 * (i + 1))).sum)) 0)))
    (fun t => t.vreg 3 == 0x4B800000 && t.fflags == 1) = true := by decide +kernel
/-- `qget s4, q0` gives 0xFF; a write of q0 is discarded. -/
theorem test_q0 : ends (exec (.qget 4 0) (at' thr)) (fun t => t.reg 4 == 0xFF) = true ∧
    ends (exec (.cmp 0 .ne 4 4) (at' thr)) (fun t => t.q.toList.all (· == 0) && t.qreg 0 == 0xFF) = true := by decide +kernel
/-- R222, R250: a store into the own TCM takes effect at once and is read back with its sign. -/
theorem test_near_own : gives (exec (.stn .b 5 4 0) (at' (regs [(4, 0x1F00103), (5, 0x80)])))
      (fun t => t.memByte (tcmPlace 0 0x103) == 0x80 && t.th.buf.isEmpty
        && ends (exec (.ldn .b true 6 4 0) t) (fun u => u.reg 6 == 0xFFFFFFFFFFFFFF80)) = true := by decide +kernel
/-- R253, R259: a scratchpad store waits in the buffer, is forwarded, and takes effect at the commit. -/
theorem test_near_commit : gives (exec (.stn .d 5 4 0) (at' (regs [(4, 0x108), (5, 0x1122334455667788)])))
      (fun t => t.byte (spadPlace 0 0x108) == 0 && ends (exec (.ldn .b false 6 4 1) t) (fun u => u.reg 6 == 0x77)
        && gives (exec .commit t) (fun u => u.byte (spadPlace 0 0x10F) == 0x11 && u.th.buf.isEmpty)) = true := by decide +kernel
/-- R85: below XB of the own TCM, and outside the window, a near access traps. -/
theorem test_near_bounds : ends (exec (.ldn .d false 6 4 0) (at' (regs [(4, 0x1F000F8)])))
      (fun t => t.tcause == 3 && t.taddr == 0x1F000F8) = true ∧
    ends (exec (.stn .d 5 4 0) (at' (regs [(4, 0x4000)]))) (fun t => t.tcause == 3) = true := by decide +kernel
/-- The record of a `tfill` tile (chapter 7): its `tdir`, and a word of it. -/
theorem test_tdir_const : (let s := (at' (regs [(5, 0x1000)])).setTile (spadPlace 0 0x1000) 0x00003F8000000042
    ends (exec (.tdir 4 5) s) (fun t => t.reg 4 == 0x00003F8000000042)
      && ends (exec (.ldn .w false 8 5 8) s) (fun t => t.reg 8 == 0x3F803F80)) = true := by decide +kernel
/-- R86: HOME 0xFFF is the own module; a far load leaves as one RD and waits. -/
theorem test_far_load : gives (exec (.ldf .d false 4 7 0) (at' (regs [(7, 0xFFF0000040120000), (4, 3)])))
    (fun t => t.net.length == 1 && t.net.all (fun f => f.p.hdr.kind == 1 && f.p.words == [0x40120000, 8] && f.loc == .home)
      && t.th.reads.length == 1 && t.th.reg 4 == 3 && t.th.pc == 4) = true := by decide +kernel
/-- R87: bits [51:48] and a module out of the pod trap. -/
theorem test_far_bounds : ends (exec (.ldf .d false 4 7 0) (at' (regs [(7, 0xFFF1000040120000)]))) (fun t => t.tcause == 5) = true ∧
    ends (exec (.stf .d 4 7 0) (at' (regs [(7, 0x0A30000040120000)])))
      (fun t => t.tcause == 5 && t.taddr == 0x0A30000040120000) = true := by decide +kernel
/-- R330: a trump payload is cut to four words and sets OOV (the example `sendv.trump s5, v2, 7`). -/
theorem test_sendv_trump : ends (exec (.sendv .trump 5 7 0 2) (at' { regs [(5, 0x7FF8000)] with
      v := (Vector.replicate 16 0).set 2 0x1 }))
    (fun t => t.oov && t.buf == [.msg [0] .trump 7 0 [1, 0, 0, 0] false false]) = true := by decide +kernel
/-- R255, R226: a write of THS reaches the loop context and not the RO bits. -/
theorem test_csr_ths : ends (exec (.csrw 6 5 .ths) (at' (regs [(5, 0xFFFFFFFFFFFFFFFF)])))
    (fun t => t.lact && t.llen == 31 && t.lcnt == 0xFFFFFFFF && !t.trap && t.reg 6 == 0) = true := by decide +kernel
/-- R380: `rngw` outside supervisor mode is illegal. -/
theorem test_rngw_user : ends (exec (.rngw 4 5 6) (at' thr)) (fun t => t.tcause == 1 && t.trap) = true := by decide +kernel
/-- R223: the back-edge at LEND. -/
theorem test_loop_edge : ends (exec .nop (at' { thr with pc := 8, lact := true, lstart := 1, llen := 1, lcnt := 2 }))
      (fun t => t.pc == 4 && t.lcnt == 1 && t.lact) = true ∧
    ends (exec .nop (at' { thr with pc := 8, lact := true, lstart := 1, llen := 1, lcnt := 1 }))
      (fun t => t.pc == 12 && !t.lact) = true := by decide +kernel

/-! ### Witnesses: for each statement with hypotheses, states and operands that meet them, clause by clause -/

theorem wit_ScalarFloat : ∃ p ∈ Claims.floatTwo, ∃ rm : Rm, rm ≠ .sr ∧ p.2 .fp32 .rne 0 0 = (0, 0) :=
  ⟨_, List.mem_cons_self .., .dyn, by decide, by decide +kernel⟩

/-- A field that ends at bit 63, whole words, single bits. -/
theorem wit_BitInstructions : (8 : BitVec 6).toNat + (55 : BitVec 6).toNat + 1 ≤ 64 ∧
    (0 : BitVec 6).toNat + (63 : BitVec 6).toNat + 1 ≤ 64 ∧ (63 : BitVec 6).toNat + (0 : BitVec 6).toNat + 1 ≤ 64 := by decide

theorem wit_Jumps : Claims.taken .any 0x01 ∧ ¬ Claims.taken .any 0x00 ∧ Claims.taken .all 0xFF ∧ ¬ Claims.taken .all 0x7F ∧
    Claims.taken .none 0x00 ∧ ¬ Claims.taken .none 0x80 ∧ Claims.taken .nall 0xFE ∧ ¬ Claims.taken .nall 0xFF ∧
    (0x40 : Word).extractLsb' 0 2 = 0#2 ∧ (0x43 : Word).extractLsb' 0 2 ≠ 0#2 := by
  unfold Claims.taken; decide

/-- A word of TCM code of core 0. -/
def withCode (s : State) (o : Nat) (w : Nat) : State := s.putBytes (tcmPlace 0 o) (leBytes 4 w)

/-- Body of 2 words from 4 on, its last word at 8: a short word there, or a first word of a long form; XB after it or at it;
counts 0 and 1; the last and the last but one iteration. -/
theorem wit_Loop : let s := at' thr
    (let lend := s.th.pc.toNat + 4 * ((1 : BitVec 5).toNat + 1)
     lend = 8 ∧ ¬ (lend < s.k.xbBytes ∧ s.codeWord s.cur.core lend / 2 ^ 26 % 64 = 0x3F) ∧
     (let u := withCode s 8 0xFC000000
      lend < u.k.xbBytes ∧ u.codeWord u.cur.core lend / 2 ^ 26 % 64 = 0x3F) ∧ (0 : BitVec 32) = 0 ∧ (1 : BitVec 32) ≠ 0) ∧
    (let t := at' { thr with pc := 8, lact := true, lstart := 1, llen := 1, lcnt := 2 }
     t.th.lact = true ∧ t.th.pc = BitVec.ofNat 64 (4 * (t.th.lstart.toNat + t.th.llen.toNat)) ∧ t.th.lcnt ≠ 1) ∧
    (let t := at' { thr with pc := 8, lact := true, lstart := 1, llen := 1, lcnt := 1 }
     t.th.lact = true ∧ t.th.pc = BitVec.ofNat 64 (4 * (t.th.lstart.toNat + t.th.llen.toNat)) ∧ t.th.lcnt = 1) := by decide +kernel

/-- A far write to module 0 on its way. -/
def aWrite : FarWrite := { txid := 0, gva := 0x40000000, bytes := 8, kind := 2 }

theorem wit_PassAndWait :
    (let s := { at' (regs [(4, 100)]) with cycle := 100 }
     (s.th.source 4 []).toNat ≤ s.cycle.toNat) ∧
    (let s := { at' (regs [(4, 100)]) with cycle := 99 }
     s.cycle.toNat < (s.th.source 4 []).toNat) ∧
    (let s := at' { thr with wrs := [aWrite] }
     (∃ w ∈ s.th.wrs, Scope.module = .pod ∨ (Scope.module = .module ∧ w.gva.extractLsb' 52 12 = s.cfg.modid)) ∧
     (∀ w ∈ s.th.wrs, ¬ (Scope.core = .pod ∨ (Scope.core = .module ∧ w.gva.extractLsb' 52 12 = s.cfg.modid)))) := by decide +kernel

theorem wit_TrapReturn :
    (at' thr).th.trap = false ∧
    (let s := at' { thr with trap := true, tepc := 6 }
     s.th.trap = true ∧ s.th.tepc.toNat % 4 ≠ 0) ∧
    (let s := at' { thr with trap := true, tepc := 8 }
     s.th.trap = true ∧ s.th.tepc.toNat % 4 = 0 ∧ s.th.ovf = none) ∧
    (at' { thr with trap := true, tepc := 8, ovf := some true }).th.ovf = some true ∧
    (at' { thr with trap := true, tepc := 8, ovf := some false }).th.ovf = some false := by decide +kernel

/-- A thread with two near entries. -/
def storing : Thread := { thr with buf := [.near (spadPlace 0 8) 7 0xFFFF, .near (spadPlace 0 0x1000) 9 0x000F] }

theorem wit_CommitPoints : Claims.nearsOf (at' storing).th.buf = some [(spadPlace 0 8, 7, 0xFFFF), (spadPlace 0 0x1000, 9, 0x000F)] ∧
    Claims.nearsOf (at' thr).th.buf = some [] ∧ (at' storing).th.held = [] ∧ (at' storing).th.begun = false ∧
    SMap.find (at' storing).jobs (at' storing).k.job.toNat = some { gate := true, cores := [0] } := by decide +kernel

/-- The edges of the near space: the window, the TCM windows, the own alias, the reserved areas. -/
theorem wit_NearChecks : (0x0FFFFFF : Word).toNat < 0x1000000 ∧
    ((127 < 128 ∧ 0x17FFF < 0x18000) ∧ (0x1BFFFFF : Word).toNat = 0x1000000 + 127 * 0x18000 + 0x17FFF) ∧
    (0x1000000 : Word).toNat = 0x1000000 + 0 * 0x18000 + 0 ∧ (0x1F17FFF : Word).toNat = 0x1F00000 + 0x17FFF ∧
    0x1C00000 ≤ (0x1C00000 : Word).toNat ∧ (0x1EFFFFF : Word).toNat < 0x1F00000 ∧ 0x1F18000 ≤ (0x1F18000 : Word).toNat := by decide

/-- The last double word of the window, and a poisoned one that the own buffer covers. -/
theorem wit_NearLoad :
    (let s := at' (regs [(4, 0x3FF8)])
     let e := s.th.source 4 [] + (0 : BitVec 12).signExtend 64
     e.toNat % 8 = 0 ∧ s.nearPlace 0 e 8 = some (spadPlace 0 0x3FF8) ∧ s.poisoned (spadPlace 0 0x3FF8) = false) ∧
    (let s := { at' { regs [(4, 8)] with buf := [.near (spadPlace 0 8) 7 0xFFFF] } with poison := [spadPlace 0 8 / 8] }
     let p := spadPlace 0 8
     s.nearPlace 0 (s.th.source 4 [] + (0 : BitVec 12).signExtend 64) 8 = some p ∧ s.poisoned p = true ∧
     ∀ i ∈ List.range 16, Claims.covered s (p / 8 * 8) i = true) := by decide +kernel

theorem wit_NearLoad_premise : ¬ Claims.meetsPoison (at' (regs [(4, 0x3FF8)])) (spadPlace 0 0x3FF8 / 8 * 8)
    (2 * (spadPlace 0 0x3FF8 % 8)) (2 * 8) := fun h => absurd h.1 (by decide +kernel)

/-- A poisoned word in the window. -/
def poisoned8 : State := { at' (regs [(4, 8)]) with poison := [spadPlace 0 8 / 8] }

theorem wit_NearTraps_poison : poisoned8.nearPlace 0 (poisoned8.th.source 4 [] + (0 : BitVec 12).signExtend 64) 8 = some (spadPlace 0 8) ∧
    Claims.meetsPoison poisoned8 (spadPlace 0 8 / 8 * 8) (2 * (spadPlace 0 8 % 8)) (2 * 8) :=
  ⟨by decide +kernel, by decide +kernel, 0, by decide, by decide, by decide +kernel⟩

/-- Misaligned, out of the window, past the 16 nibbles of a word and at their end; `tdir` below, above and beyond. -/
theorem wit_NearTraps :
    (let s := at' (regs [(4, 0x3FFC), (5, 0x4000), (6, 0x1000000)])
     let e := s.th.source 4 [] + (0 : BitVec 12).signExtend 64
     let f := s.th.source 5 [] + (0 : BitVec 12).signExtend 64
     let g := s.th.source 5 [] + (-1 : BitVec 11).signExtend 64
     e.toNat % 8 ≠ 0 ∧ f.toNat % 8 = 0 ∧ s.nearPlace 0 f 8 = none ∧ f.toNat % 64 = 0 ∧ s.nearPlace 0 f 64 = none ∧
     16 < 2 * (g.toNat % 8) + true.toNat + ((1 : BitVec 4).toNat + 1) ∧
     2 * (g.toNat % 8) + true.toNat + ((0 : BitVec 4).toNat + 1) ≤ 16 ∧
     s.nearPlace 0 (s.th.source 5 [] + (0 : BitVec 11).signExtend 64) 1 = none ∧
     (s.k.winBase + s.k.winTiles) * 4096 ≤ (s.th.source 5 []).toNat ∧ 2 ^ 24 ≤ (s.th.source 6 []).toNat) ∧
    (let s := withCore { kernel thr with winBase := 1 }
     (s.th.source 4 []).toNat < s.k.winBase * 4096) := by decide +kernel

/-- Own TCM; a full word of the scratchpad; a buffer with one entry left. -/
theorem wit_NearStore :
    (let s := at' (regs [(4, 0x1F17FFC), (5, 0x3FF8)])
     let e := s.th.source 4 [] + (0 : BitVec 12).signExtend 64
     let f := s.th.source 5 [] + (0 : BitVec 12).signExtend 64
     e.toNat % 4 = 0 ∧ s.nearPlace 0 e 4 = some (tcmPlace 0 0x17FFC) ∧ ownTcm 0 (tcmPlace 0 0x17FFC / 8 * 8) = true ∧
     f.toNat % 8 = 0 ∧ s.nearPlace 0 f 8 = some (spadPlace 0 0x3FF8) ∧ ownTcm 0 (spadPlace 0 0x3FF8 / 8 * 8) = false) ∧
    (let s := at' { regs [(5, 0x3FF8)] with buf := (List.range 63).map fun i => .near (spadPlace 0 (8 * i)) 1 0xFFFF }
     s.th.used + (entriesSize (Claims.withNear (spadPlace 0 0x3FF8) 5 0xFFFF s.th.buf) - entriesSize s.th.buf) ≤ 64) ∧
    (let s := at' (regs [(5, 0x3FFF)])
     let g := s.th.source 5 [] + (0 : BitVec 11).signExtend 64
     2 * (g.toNat % 8) + true.toNat + ((0 : BitVec 4).toNat + 1) ≤ 16 ∧ s.nearPlace 0 g 1 = some (spadPlace 0 0x3FFF)) := by
  decide +kernel

/-- A vector of addresses: lanes at 0x3FF8 and 8, the others not enabled and out of the window. -/
def laneAddrs : Vec := 0x3FF8 + 8 * 2 ^ 64 + 0x5000 * 2 ^ 128
def gathering : State := at' { vecs 0 laneAddrs with q := (Vector.replicate 8 0).set 1 0x03 }

theorem wit_NearVectorLoads :
    (let s := at' (regs [(4, 0x3FC0)])
     let e := s.th.source 4 [] + (0 : BitVec 12).signExtend 64
     e.toNat % 8 = 0 ∧ s.nearPlace 0 e 64 = some (spadPlace 0 0x3FC0) ∧ s.poison = []) ∧
    (let s := gathering
     let g (i : Nat) : Word := s.th.source 0 [] + ((s.th.vreg 2).extractLsb' (64 * i) 64 <<< (0 : BitVec 2).toNat)
     Claims.lanesOf (s.th.qreg 1) = [0, 1] ∧ (g 0).toNat % 8 = 0 ∧ s.nearPlace 0 (g 0) 8 = some (spadPlace 0 0x3FF8) ∧
     (g 1).toNat % 8 = 0 ∧ s.nearPlace 0 (g 1) 8 = some (spadPlace 0 8) ∧ s.poison = []) ∧
    (let s := at' (regs [(4, 0x3FFF)])
     s.k.winBase * 4096 ≤ (s.th.source 4 []).toNat ∧ (s.th.source 4 []).toNat < (s.k.winBase + s.k.winTiles) * 4096 ∧
     (s.th.source 4 []).toNat < 2 ^ 24) := by decide +kernel

/-- The same lanes for the stores; lane 2, when enabled, is the first bad one; a misaligned lane. -/
theorem wit_NearVectorStores :
    (let s := gathering
     let ws := (Claims.lanesOf (s.th.qreg 1)).map fun l => (spadPlace 0 (8 * l), lane (s.th.vreg 1) l, BitVec.allOnes 16)
     s.th.used + (entriesSize (Claims.withNears ws s.th.buf) - entriesSize s.th.buf) ≤ 64) ∧
    (let s := at' { vecs 0 laneAddrs with q := (Vector.replicate 8 0).set 1 0x07 }
     let g (i : Nat) : Word := s.th.source 0 [] + ((s.th.vreg 2).extractLsb' (64 * i) 64 <<< (0 : BitVec 2).toNat)
     2 ∈ Claims.lanesOf (s.th.qreg 1) ∧ (g 2).toNat % 8 = 0 ∧ s.nearPlace 0 (g 2) 8 = none) ∧
    (let s := at' { vecs 0 9 with q := (Vector.replicate 8 0).set 1 0x01 }
     let g (i : Nat) : Word := s.th.source 0 [] + ((s.th.vreg 2).extractLsb' (64 * i) 64 <<< (0 : BitVec 2).toNat)
     0 ∈ Claims.lanesOf (s.th.qreg 1) ∧ (g 0).toNat % 8 ≠ 0) := by decide +kernel

theorem wit_StoreWord : spadPlace 255 0xFFFFF8 % 8 = 0 ∧ hbmPlace 23 0 % 8 = 0 := by decide

/-- Addresses of the own module, at the ends of its 48-bit space, and a near destination. -/
def farRegs : Thread := { regs [(4, 0xFFF0FFFFFFFFFFC0), (5, 0), (6, 0x2000), (7, 1)] with q := (Vector.replicate 8 0).set 1 0x03 }

theorem wit_FarReads :
    (let s := at' farRegs
     let g := Claims.gvaOf s (s.th.source 4 [] + (0 : BitVec 12).signExtend 64)
     let e := Claims.gvaOf s (s.th.source 4 [] + (56 : BitVec 12).signExtend 64)
     e.toNat % 8 = 0 ∧ Claims.farAllowed s e ∧ Claims.maySend s e 8 ((8 + 15) / 16 + 1) 0 ∧
     g.toNat % 64 = 0 ∧ Claims.farAllowed s g ∧ s.th.qreg 1 ≠ 0 ∧ s.th.qreg 2 = 0 ∧ Claims.maySend s g 64 5 0) ∧
    (let s := at' farRegs
     let h := Claims.gvaOf s (s.th.source 5 [])
     h.toNat % 16 = 0 ∧ (s.th.source 6 [5]).toNat % 16 = 0 ∧ Claims.farAllowed s h ∧
     s.nearPlace 0 (s.th.source 6 [5]) 256 = some (spadPlace 0 0x2000) ∧ Claims.maySend s h 256 ((256 + 15) / 16 + 1) 0) := by
  unfold Claims.farAllowed Claims.maySend; decide +kernel

theorem wit_FarWrites :
    (let s := at' farRegs
     let g := Claims.gvaOf s (s.th.source 4 [] + (0 : BitVec 12).signExtend 64)
     g.toNat % 64 = 0 ∧ Claims.farAllowed s g ∧ Claims.fits s (Claims.withFar g (s.th.source 6 [4]) 0xFFFF s.th.buf) ∧
     Claims.fits s (Claims.withFars ((Claims.lanesOf (s.th.qreg 0)).map fun i => (g + BitVec.ofNat 64 (8 * i), 0, 0xFFFF)) s.th.buf)) ∧
    (let s := at' farRegs
     let h := Claims.gvaOf s (s.th.source 5 [])
     h.toNat % 16 = 0 ∧ (s.th.source 6 [5]).toNat % 16 = 0 ∧ Claims.farAllowed s h ∧
     s.nearPlace 0 (s.th.source 6 [5]) 256 = some (spadPlace 0 0x2000) ∧
     Claims.fits s (s.th.buf ++ [.put h (s.nearBytes (spadPlace 0 0x2000) 256) [] []]) ∧
     Claims.fits s (s.th.buf ++ [.amo h .add true 1])) := by
  unfold Claims.farAllowed Claims.fits; decide +kernel

theorem wit_BlockingAtomics : let s := at' farRegs
    let h := Claims.gvaOf s (s.th.source 5 [])
    h.toNat % 8 = 0 ∧ Claims.farAllowed s h ∧ s.th.buf = [] ∧ s.th.held = [] ∧ s.th.begun = false ∧ Claims.maySend s h 8 2 0 := by
  unfold Claims.farAllowed Claims.maySend; decide +kernel

/-- Misaligned by one, a nonzero [51:48], a module outside the pod; near misaligned and out of bounds. -/
theorem wit_FarTraps : let s := at' (regs [(4, 0xFFF0000000000001), (5, 0xFFF1000000000000), (6, 0x0010000000000000), (7, 0x3FF8), (8, 0x3FF0), (9, 0)])
    let g (r : SReg) := Claims.gvaOf s (s.th.source r [] + (0 : BitVec 12).signExtend 64)
    let h (r : SReg) := Claims.gvaOf s (s.th.source r [])
    (g 4).toNat % 2 ≠ 0 ∧ (g 5).toNat % 64 = 0 ∧ ¬ Claims.farAllowed s (g 5) ∧ ¬ Claims.farAllowed s (g 6) ∧
    (h 4).toNat % 4 ≠ 0 ∧ (h 5).toNat % 16 = 0 ∧ ¬ Claims.farAllowed s (h 5) ∧ (s.th.source 7 [9]).toNat % 16 ≠ 0 ∧
    (s.th.source 8 [9]).toNat % 16 = 0 ∧ Claims.farAllowed s (h 9) ∧ s.nearPlace 0 (s.th.source 8 [9]) 32 = none := by
  unfold Claims.farAllowed; decide +kernel

/-- A buffer of 64 entries, in a handler and outside. -/
def fullBuf (trap : Bool) : State :=
  at' { farRegs with trap := trap, buf := (List.range 64).map fun i => .near (spadPlace 0 (8 * i)) 1 0xFFFF }

/-- A buffer of 64 far entries at the same addresses, no mark among them, nothing held; a reachable core and group for the sends. -/
theorem wit_BufferFull_forms : ∀ b, let s := fullBuf b
    let e := s.th.source 6 [] + (0 : BitVec 12).signExtend 64
    let h := Claims.gvaOf s (s.th.source 5 [])
    64 < s.th.used + 1 ∧ entriesSize s.th.buf ≠ 0 ∧ s.th.held = [] ∧ (∀ x ∈ s.th.buf, x.isMark = false) ∧
    Claims.farAllowed s h ∧ h.toNat % 64 = 0 ∧ (s.th.source 6 [5]).toNat % 16 = 0 ∧ s.nearPlace s.cur.core (s.th.source 6 [5]) 16 = some (spadPlace 0 0x2000) ∧
    e.toNat % 8 = 0 ∧ s.nearPlace s.cur.core e 8 = some (spadPlace 0 0x2000) ∧ ownTcm s.cur.core (spadPlace 0 0x2000 / 8 * 8) = false ∧
    s.nearPlace s.cur.core e 64 = some (spadPlace 0 0x2000) ∧
    64 < s.th.used + (entriesSize (Claims.withNear (spadPlace 0 0x2000) 7 0xFFFF s.th.buf) - entriesSize s.th.buf) ∧
    s.reaches (modOf (s.sendDst (s.th.source 5 []))) = true := by
  unfold Claims.farAllowed; decide +kernel

theorem wit_BufferFull : ∀ b, let s := fullBuf b
    let h := Claims.gvaOf s (s.th.source 5 [])
    h.toNat % 8 = 0 ∧ Claims.farAllowed s h ∧ ¬ Claims.fits s (s.th.buf ++ [.amo h .add true 1]) ∧
    ¬ Claims.fits s (Claims.withFar h 1 0xFFFF s.th.buf) ∧ entriesSize s.th.buf ≠ 0 ∧ s.th.trap = b := by
  unfold Claims.farAllowed Claims.fits; decide +kernel

/-- A group of job 5 with core 0, and another of job 6; an open message of six words. -/
def grouped : State := { at' { regs [(4, 0x7FF8000), (5, 3), (6, 4), (7, 0x8000)] with out := [1, 2, 3, 4, 5, 6] } with
  groups := [(3, { job := 5, members := [0] }), (4, { job := 6, members := [0] })] }

theorem wit_Sends : Claims.inReach grouped (Claims.destination grouped (grouped.th.source 4 [])) ∧
    ¬ Claims.inReach grouped (Claims.destination grouped (grouped.th.source 7 [])) ∧
    Claims.ownsGroup grouped ((grouped.th.source 5 []).extractLsb' 0 8) { job := 5, members := [0] } ∧
    Claims.fits grouped (grouped.th.buf ++ [.msg [0] .normal 7 0 grouped.th.out false false]) := by
  unfold Claims.inReach Claims.ownsGroup Claims.fits; decide +kernel

theorem wit_Sends_none : ∀ g, ¬ Claims.ownsGroup grouped ((grouped.th.source 6 []).extractLsb' 0 8) g := by
  rintro g ⟨h, h'⟩
  have e : SMap.find grouped.groups ((grouped.th.source 6 []).extractLsb' 0 8).toNat = some { job := 6, members := [0] } := by
    decide +kernel
  rw [e] at h
  cases h
  exact absurd h' (by decide +kernel)

/-- A message of label 9 in the normal queue behind one of label 8. -/
def aMessage (l : Label) : Message := { hdr := { cls := .normal, lab := l, plen := 1 }, words := [1, 2], arrived := 1 }
def receiving : State := withCore { kernel thr with qNormal := [aMessage 8, aMessage 9] }

theorem wit_Receive_sleeps : ∀ c, Claims.noneOf 9 ((at' thr).k.queue c) := by
  intro c; unfold Claims.noneOf; cases c <;> decide +kernel

theorem wit_Receive_takes : (∀ t since, (receiving.k.thread t).run ≠ .recv 9 since) ∧
    Claims.takes receiving.k 9 (aMessage 9) { kernel thr with qNormal := [aMessage 8] } ∧ (aMessage 9).eff.overflow = none := by
  refine ⟨?_, ⟨.normal, [aMessage 8], [], ?_⟩, rfl⟩
  · intro t since h
    have : ∀ t : ThrIx, (receiving.k.thread t).run = .free ∨ (receiving.k.thread t).run = .ready := by decide +kernel
    rcases this t with e | e <;> rw [e] at h <;> cases h
  · unfold Claims.noneOf; decide +kernel

/-- An xpack-overflow completion, in a handler and outside. -/
def overflowing (b : Bool) : State := withCore { kernel { thr with trap := b } with
  qNormal := [{ aMessage 9 with eff := { overflow := some 0x40 } }] }

theorem wit_Receive_overflow : ∀ b,
    Claims.takes (overflowing b).k 9 { aMessage 9 with eff := { overflow := some 0x40 } } (kernel { thr with trap := b }) ∧
    (overflowing b).th.trap = b ∧ (overflowing b).k.tvEn = true := by
  intro b
  refine ⟨⟨.normal, [], [], ?_⟩, ?_⟩
  · unfold Claims.noneOf; cases b <;> decide +kernel
  · cases b <;> decide +kernel

theorem wit_Triggers : SMap.find (at' thr).jobs (at' thr).k.job.toNat = some { gate := true, cores := [0] } := by decide +kernel

/-- The three barrier states of a member of the group; a group of another job. -/
def barred (b : BarSt) : State := { grouped with cores := [(0, { kernel thr with bars := [(3, b)] })] }

theorem wit_Barriers : (∀ b ∈ [BarSt.idle, .wait, .done], let s := barred b
      Claims.ownsGroup s 3 { job := 5, members := [0] } ∧ s.cur.core ∈ [(0 : CoreIx)] ∧
      s.guard s.cur.core s.k.job false s.cfg.modid (clusterOf 0) = true ∧ SMap.get BarSt.idle s.k.bars 3 = b) := by
  unfold Claims.ownsGroup; decide +kernel

theorem wit_Barriers_outside : ∀ gr, Claims.ownsGroup grouped 4 gr → grouped.cur.core ∉ gr.members := by
  rintro g ⟨h, h'⟩
  have e : SMap.find grouped.groups (4 : BitVec 8).toNat = some { job := 6, members := [0] } := by decide +kernel
  rw [e] at h
  cases h
  exact absurd h' (by decide +kernel)

theorem wit_CsrReads : Claims.csrRead true .pcc3 = true ∧ Claims.csrRead false .pcc3 = false ∧ Claims.csrRead false .instret = true := by
  decide

theorem wit_CsrWrites : (0 : SReg) ≠ 30 ∧ Claims.csrWrite false .ths = true ∧ Claims.csrWrite false .taddr = false ∧
    Claims.csrWrite true .taddr = true ∧ Claims.csrWrite true .mhd0 = false := by decide

theorem wit_VectorInteger : ∃ t ∈ Claims.intTypes, (7 : BitVec 7).toNat < t.2.2 ∧ t.2.2 = 8 := ⟨(.i8, true, 8), by decide, by decide, rfl⟩

theorem wit_VectorFloat : Rm.rne ≠ .sr ∧ Rm.dyn ≠ .sr := by decide
theorem wit_VectorConvert : Rm.rz ≠ .sr := by decide
theorem wit_VectorCompare : (VTy.n64, false, 64) ∈ Claims.intTypes ∧ (VTy.f16, FF.f16) ∈ Claims.floatTypes := by decide
theorem wit_VectorReduce : (VTy.i8, true, 8) ∈ Claims.intTypes ∧ (VTy.bf16, FF.bf16) ∈ Claims.floatTypes ∧
    Claims.reductions.length = 5 := by decide

/-- A core in supervisor mode, with registers; a paged range over the first 2 MiB; requests that match entry 7. -/
def supers (rs : List (Fin 32 × Word)) : State :=
  { withCore { kernel (regs rs) with sup := true } with ranges := [(7, 0x579, 0x8000000)] }
/-- A packet of core 0 to its own module. -/
def request (kind : BitVec 4) (ws : List Word) : Packet :=
  { hdr := { cls := .normal, plen := BitVec.ofNat 5 (ws.length / 2), kind := kind, src := 0, job := 5, txid := 3 }, words := ws }
def atHome (kind : BitVec 4) (ws : List Word) : Flight := { p := request kind ws, loc := .home }
def aSlot (page : Nat) : ParkSlot := { stack := 0, flight := atHome 2 [0x40, 7], entry := 7, page := page, since := 0 }

theorem wit_RangeTable : (at' thr).k.sup = false ∧ (supers [(4, 4095)]).k.sup = true ∧ ((supers [(4, 4095)]).th.reg 4).toNat ≤ 4095 ∧
    4095 < ((supers [(4, 4096)]).th.reg 4).toNat ∧
    ((∀ k ∈ (supers []).park, k.entry ≠ 7) ∧ ∀ f ∈ (supers []).net, f.loc = .home → ∀ e, f.ent = some e → e.1 ≠ 7) ∧
    (∃ k ∈ ({ supers [] with park := [aSlot 0] } : State).park, k.entry = 7) := by
  refine ⟨by decide +kernel, by decide +kernel, by decide +kernel, by decide +kernel, ⟨?_, ?_⟩, by decide +kernel⟩
  · intro k h; cases h
  · intro f h; cases h

theorem wit_PageTable : Claims.pageAt (supers [(4, 0x10000)]) ((supers [(4, 0x10000)]).th.reg 4) (pagePlace (4096 + 8)) ∧
    Claims.pageFits 0 ∧ Claims.pageFits 0x000007FFFFFF0004 ∧ ¬ Claims.pageFits 0x8 ∧
    2 ^ 48 ≤ ((supers [(4, 0x0001000000000000)]).th.reg 4).toNat := by
  unfold Claims.pageFits
  exact ⟨⟨by decide +kernel, 7, 0x579, 0x8000000, by decide +kernel, by decide +kernel, by decide +kernel⟩, by decide +kernel,
    by decide +kernel, by decide +kernel, by decide +kernel⟩

theorem wit_PageTable_none : ((supers [(4, 0x200000)]).th.reg 4).toNat < 2 ^ 48 ∧
    ∀ pl, ¬ Claims.pageAt (supers [(4, 0x200000)]) ((supers [(4, 0x200000)]).th.reg 4) pl := by
  refine ⟨by decide +kernel, ?_⟩
  rintro pl ⟨-, i, l, h, e, -⟩
  have : (supers [(4, 0x200000)]).rangeOf 0 ((supers [(4, 0x200000)]).partOf (clusterOf (supers [(4, 0x200000)]).cur.core))
    ((supers [(4, 0x200000)]).th.reg 4).toNat = none := by decide +kernel
  rw [this] at e
  cases e

/-- An engine command of a core. -/
def aCommand (i : Instr) (c : CoreIx) (id : Nat) : EngCmd :=
  { id := id, insn := i, core := c, thr := 0, dv := 0, av := 0, bv := 0, cv := 0, cls := .normal, lab := 9, reqCls := .normal, job := 5 }
def engines (es : List EngCmd) : State := { at' thr with clusters := [(0, { eng := es })] }
/-- n commands of core c. -/
def many (n : Nat) (c : CoreIx) : List EngCmd := (List.range n).map (aCommand (.tzero 1 2 9) c)

theorem wit_EngineIssue : Claims.atRest (at' thr).th ∧
    (∀ n ∈ [0, 3], let q := ((engines (many n 0)).cluster 0).eng
      (q.filter fun k => decide (k.core = 0)).length < 4 ∧ q.length < 64 ∧ ((engines (many n 0)).cluster 0).wait = []) ∧
    4 ≤ ((((engines (many 4 0)).cluster 0).eng.filter fun k => decide (k.core = 0)).length) ∧
    64 ≤ ((engines (many 64 1)).cluster 0).eng.length := by
  unfold Claims.atRest; decide +kernel

/-- A command of array 1, and a cluster whose array 1 belongs to job 5 and holds commands. -/
def aMatCmd (i : Instr) (c : CoreIx) (id : Nat) : MatCmd :=
  { id := id, insn := i, core := c, thr := 0, dv := 0, av := 0, bv := 0, cv := 0, frm := 0, lab := 9 }
def arrays (cs : List MatCmd) : State :=
  { at' thr with clusters := [(0, { aown := 0x200000500, arrays := (Vector.replicate 4 {}).set 1 { cmds := cs } })] }

theorem wit_MatrixIssue : Claims.atRest (arrays []).th ∧ Claims.ownsArray (arrays []) 1 ∧ ¬ Claims.ownsArray (at' thr) 1 ∧
    (at' thr).k.kitty.full = false ∧ (at' thr).k.kitty.size ≠ 0 ∧
    (∀ n ∈ [0, 3], let A := ((arrays ((List.range n).map (aMatCmd (.mzero 1 false 9) 0))).cluster 0).arrays[1]
      (A.cmds.filter fun k => decide (k.core = 0)).length < 4 ∧ A.cmds.length < 16 ∧ A.wait = []) ∧
    16 ≤ ((arrays ((List.range 16).map (aMatCmd (.mzero 1 false 9) 1))).cluster 0).arrays[1].cmds.length := by
  unfold Claims.atRest Claims.ownsArray; decide +kernel

/-- A packet of kind `kind` with label 9 at core 0, for a job. -/
def aPacket (kind : BitVec 4) (job : BitVec 8) (ws : List Word) : Packet :=
  { hdr := { cls := .normal, lab := 9, plen := BitVec.ofNat 5 ((ws.length + 1) / 2), kind := kind, job := job }, words := ws }
def arriving (p : Packet) (k : Core) : State := { withCore k with net := [{ p := p, loc := .dest }] }

/-- The first packet in flight has landed. -/
theorem landed_first (s : State) (f : Flight) (kind : Nat) (h : s.net[0]? = some f) (hl : f.loc = .dest)
    (hk : f.p.hdr.kind.toNat = kind) : Claims.landed s 0 f kind :=
  ⟨h, hl, hk, fun g hg => by cases hg⟩

/-- The packet that arrives, and the core with label 9 in MSG mode, in COUNT mode before THOLD, and at it. -/
def comes (p : Packet) : Flight := { p := p, loc := .dest }
def counting (e : Word) : State := arriving (aPacket 0 5 [1, 2]) { kernel thr with trig := [(9, e)] }

theorem wit_Arrivals (e : Word) : Claims.landed (counting e) 0 (comes (aPacket 0 5 [1, 2])) 0 ∧ Claims.notSaved (counting e) 0 5 ∧
    ((counting e).core 0).member = true ∧ ((counting e).core 0).job = 5 ∧
    Claims.room ((counting e).core 0) (messageOf 0 (aPacket 0 5 [1, 2])) := by
  refine ⟨landed_first _ _ _ rfl rfl rfl, fun v hv => ?_, rfl, rfl, ?_, ?_, fun _ => ⟨fun r hr => ?_, ?_⟩⟩
  · cases hv
  · show (0 : Nat) < 64; decide
  · exact (by decide +kernel : (kernel thr).inboxRoom (messageOf 0 (aPacket 0 5 [1, 2])) = true)
  · cases hr
  · exact .inr (by decide +kernel : (kernel thr).kitty.full = false)

theorem wit_Arrivals_modes : (0 : Word).getLsbD 17 = false ∧ (0x20000020000 : Word).getLsbD 17 = true ∧
    (0 : BitVec 16) + 1 ≠ (0x20000020000 : Word).extractLsb' 40 16 ∧ (0 : BitVec 16) + 1 = (0x10000020000 : Word).extractLsb' 40 16 ∧
    (0 : Word).extractLsb' 15 2 ≠ 3#2 ∧ (0x20000020000 : Word).extractLsb' 15 2 ≠ 3#2 ∧
    (0x10000020000 : Word).extractLsb' 15 2 ≠ 3#2 := by decide +kernel
theorem wit_Arrivals_entry : Claims.entryOf ((counting 0x10000020000).core 0) 9 = 0x10000020000 := by decide +kernel

/-- A kitty that is full; a message of another job. -/
theorem wit_Arrivals_others :
    (let k := { kernel thr with kitty := { size := 319 } }
     k.kitty.size ≠ 0 ∧ k.kitty.full = true) ∧
    (let s := arriving (aPacket 0 6 [1, 2]) (kernel thr)
     ¬ ((s.core 0).member = true ∧ (s.core 0).job = 6) ∧ (s.cluster (clusterOf 0)).saved = []) := by decide +kernel

/-- A trigger entry of class trump for a normal message; a queue that is full beside a kitty with room, full, and of size 0. -/
theorem wit_Arrivals_spill : let m := messageOf 0 (aPacket 0 5 [1, 2])
    ¬ (m.hdr.cls = .trump ↔ (0x18000 : Word).extractLsb' 15 2 = 3#2) ∧ (m.hdr.cls = .trump ↔ (0 : Word).extractLsb' 15 2 = 3#2) ∧
    (let k := { kernel thr with qNormal := List.replicate 64 (aMessage 8) }
     64 ≤ (k.queue m.hdr.cls).length ∧ k.kitty.size ≠ 0 ∧ k.kitty.full = false ∧ k.lastSink ≤ (withCore k).cycle.toNat ∧
     ({ k with kitty := {} } : Core).kitty.size = 0 ∧ ({ k with kitty := {} } : Core).kitty.reported = false ∧
     Claims.ringOk k.kitty k.kitty.tail ∧ Claims.recordBytes m ≤ k.kitty.size) := by
  unfold Claims.ringOk; decide +kernel
theorem wit_Arrivals_needs : Claims.needsKitty { kernel thr with qNormal := List.replicate 64 (aMessage 8) } (messageOf 0 (aPacket 0 5 [1, 2])) :=
  .inl (by decide +kernel)

/-- The team of core 0 saved in its cluster, its kitty with room and full. -/
def awayTeam (n : Nat) : State := { arriving (aPacket 0 5 [1, 2]) {} with
  clusters := [(0, { saved := [{ job := 5, area := {}, cores := [(0, { kernel thr with kitty := { size := n } })] }] })] }
theorem wit_Arrivals_saved : ∀ n ∈ [319, 4096], let s := awayTeam n
    (match s.savedOf (clusterOf 0) 5 with
     | some v => decide (SMap.find v.cores 0 = some { kernel thr with kitty := { size := n } })
     | none => false) = true ∧
    (kernel thr).drops = [] ∧ ({ size := n } : Kitty).full = decide (n = 319) ∧ s.net[0]? = some (comes (aPacket 0 5 [1, 2])) := by
  decide +kernel

/-- A record of the ring whose first payload flit arrives; one that comes back to its queue. -/
theorem wit_Arrivals_kitty : let m := { aMessage 9 with id := 7, arrived := 0 }
    let k := { kernel thr with kitty := { size := 4096, recs := [m] } }
    k.kitty.recs = [] ++ m :: [] ∧ m.id = 7 ∧ m.arrived < m.hdr.plen.toNat ∧ Claims.ringOk k.kitty m.slot ∧ m.hdr.cls = .normal ∧
    k.owed = [] ∧ (k.queue .normal).length < 64 ∧ k.inboxRoom m = true ∧ k.kitty.size ≠ 0 ∧
    ((withCore k).cluster (clusterOf 0)).saved = [] := by
  unfold Claims.ringOk; decide +kernel

/-- Label 9 with EN, entry 32, class normal: its oldest entry behind none of a higher class. -/
def startingCore : Core := { kernel {} with trig := [(9, 0x4000008020)], qNormal := [aMessage 9] }

theorem wit_Starts : let s := withCore startingCore
    Claims.dealing s 0 ∧ (s.core 0).lastStart ≤ s.cycle.toNat ∧ (s.core 0).lastIssue ≤ s.cycle.toNat ∧
    (s.core 0).queue .normal = [] ++ aMessage 9 :: [] ∧ Claims.noneOf 9 [] ∧
    Claims.threadFor (s.core 0) (Claims.entryOf (s.core 0) 9) 0 ∧
    Cls.code .normal = ((Claims.entryOf (s.core 0) 9).extractLsb' 15 2).toNat ∧
    (∀ c' ∈ Claims.higher .normal, (s.core 0).queue c' = []) ∧ (∀ x ∈ (s.core 0).queue .normal, x = aMessage 9) := by
  unfold Claims.dealing Claims.noneOf Claims.threadFor; decide +kernel

theorem wit_Starts_startable : Claims.startable startingCore 9 := by
  refine ⟨by decide +kernel, by decide +kernel, by decide +kernel, ⟨0, ?_⟩, ?_⟩
  · unfold Claims.threadFor; decide +kernel
  · intro t since h
    have : ∀ t : ThrIx, (startingCore.thread t).run = .free := by decide +kernel
    rw [this t] at h
    cases h
theorem wit_Starts_may : Claims.mayStart (withCore startingCore) startingCore (startingCore.queue .normal) (aMessage 9) :=
  ⟨⟨[], [], by decide +kernel, fun m h => by cases h⟩, by decide +kernel, wit_Starts_startable⟩
theorem wit_Starts_none (x : Message) (q : List Message) (h : q = []) : ¬ Claims.mayStart (withCore startingCore) startingCore q x := by
  rintro ⟨⟨pre, post, e, -⟩, -⟩
  rw [h] at e
  cases pre <;> cases e

theorem wit_Starts_recv : let k := { kernel { thr with run := .recv 9 4 } with qNormal := [aMessage 9] }
    k.frozen = false ∧ k.held = false ∧ (k.thread 0).run = .recv 9 4 ∧
    (∀ u : ThrIx, u ≠ 0 → (k.thread u).run = .free) ∧ k.queue .normal = [] ++ aMessage 9 :: [] ∧ Claims.noneOf 9 [] ∧
    (aMessage 9).eff.overflow = none ∧ (aMessage 9).placed ≤ (withCore k).cycle.toNat ∧
    k.queue .trump = [] ∧ k.queue .high = [] ∧ k.queue .bulk = [] := by
  unfold Claims.noneOf; decide +kernel
theorem wit_Starts_first : let k := { kernel { thr with run := .recv 9 4 } with qNormal := [aMessage 9] }
    Claims.placedFirst (withCore k) k 9 .normal (aMessage 9) := by
  refine ⟨rfl, rfl, by decide +kernel, fun c pre x post e _ _ hc => ?_⟩
  have h : ∀ c : Cls, c ≠ .normal → Core.queue { kernel { thr with run := .recv 9 4 } with qNormal := [aMessage 9] } c = [] := by
    intro c hc; cases c <;> first | rfl | exact absurd rfl hc
  rw [h c hc] at e
  cases pre <;> cases e

/-- Two cores of the team, eight entries of a spreading label at the first. -/
theorem wit_Starts_spread : let e : Word := 0x6000008020
    let k := { kernel {} with trig := [(9, e)], qNormal := List.replicate 8 (aMessage 9) }
    let o := { kernel {} with trig := [(9, e)] }
    let s := { withCore k with cores := [(0, k), (1, o)] }
    s.team (clusterOf 0) (s.core 0).job = [0, 1] ∧ (s.core 0).member = true ∧ (s.core 0).spread ≤ s.cycle.toNat / 256 ∧
    (∀ c' ∈ [Cls.trump, .high, .normal, .bulk], ∀ m ∈ (s.core 0).queue c' ++ (s.core 1).queue c', m.hdr.lab = 9) ∧
    (∀ m ∈ (s.core 0).queue .normal, m.hdr.cls = .normal) ∧ e.getLsbD 37 = true ∧ e.getLsbD 17 = false ∧
    (e.extractLsb' 15 2).toNat = Cls.code .normal ∧ (Claims.entryOf (s.core 1) 9) = e ∧
    ((s.core 1).queue .normal).length ≤ ((s.core 0).queue .normal).length ∧
    ((s.core 1).queue .normal).length + Nat.min 8 ((8 - 0) / 4) ≤ 64 ∧
    (s.core 1).inboxUse false + ((((s.core 0).queue .normal).take 2).map fun m => m.hdr.plen.toNat).sum ≤ 992 := by
  decide +kernel

/-- What a commit holds. -/
def holding (hs : List Held) : State := at' { thr with held := hs }

/-- Near entries before a far one; a far entry of part of a word. -/
theorem wit_CommitInjection : let ws := [(spadPlace 0 8, (7 : Word), (0xFFFF : BitVec 16)), (spadPlace 0 16, 8, 0xF)]
    let rest : List Held := [{ commit := 0, part := 0, e := .far 0x40000000 7 0xFF }]
    (holding (ws.map (Claims.heldNear 0 0 .normal) ++ rest)).th.held = ws.map (Claims.heldNear 0 0 .normal) ++ rest ∧ ws ≠ [] ∧
    (∀ h ∈ rest, h.e.isNear = true → ¬ (h.commit = 0 ∧ h.part = 0)) ∧ (0xFF : BitVec 16) ≠ BitVec.allOnes 16 := by
  refine ⟨by decide +kernel, by decide, ?_, by decide⟩
  intro h e; simp only [List.mem_singleton] at e; subst e; intro h; exact absurd h (by decide)
/-- A far write that may leave, with a guard that passes it and one that does not (module 1, POD 0); the same of a message. -/
def leaving (g : Word) : State := holding [{ commit := 0, part := 0, e := .far g 7 0xFF }]
theorem wit_CommitInjection_leaves : (leaving 0x40000000).th.wrs = [] ∧ (leaving 0x40000000).mayInject (clusterOf 0) 0 false = true ∧
    (leaving 0x40000000).k.reserved false + 1 ≤ 512 ∧ (leaving 0x40000000).freeTxid 0 = some 0 ∧
    (leaving 0x40000000).guard 0 5 true ((0x40000000 : Word).extractLsb' 52 12) 0 = true ∧
    (leaving 0x0010000000000000).guard 0 5 true ((0x0010000000000000 : Word).extractLsb' 52 12) 0 = false := by decide +kernel
def telling : State := holding [{ commit := 0, part := 0, e := .msg [0] .normal 9 0 [1] true false }]
theorem wit_CommitInjection_message : Claims.controlPath telling 0 (Claims.messagePacket telling 0 0 .normal 9 0 [1] false) false = false ∧
    telling.th.wrs = [] ∧ telling.guard 0 5 false 0 0 = true ∧ telling.guard 0 5 false 1 0 = false ∧ telling.trumpOk 0 false = true ∧
    (withCore { kernel thr with frozen := true }).k.frozen = true := by decide +kernel
/-- A run of three words from a 16-aligned address; a `put` of 256 bytes, which leaves in two, and of 248. -/
theorem wit_CommitInjection_run : (Claims.heldRun 0 0 .normal 0x40000000 [1, 2, 3]).length = 3 ∧
    (0x40000000 : Word).toNat + 8 * (2 + 1) < 2 ^ 64 ∧ (0x40000000 : Word).toNat % 16 = 0 ∧
    (List.replicate 256 (0 : Byte)).length ≤ 256 ∧ 248 < (List.replicate 256 (0 : Byte)).length ∧
    ¬ 248 < (List.replicate 248 (0 : Byte)).length := by decide +kernel
theorem wit_CommitInjection_mark : Claims.noMarkFirst [] ∧ Claims.noMarkFirst [{ commit := 0, part := 0, e := .far 0x40000000 7 0xFF }] := by
  unfold Claims.noMarkFirst
  refine ⟨fun h e => (by cases e), fun h e => ?_⟩
  simp only [List.head?_cons, Option.some.injEq] at e; subst e; rfl

/-- A group of two cores, the second arrived or not: an arrival (AUX 3) or a release (AUX 259) at core 0, whose thread 0
sleeps in `bar`. -/
def barring (arr : List CoreIx) (aux : BitVec 16) : State :=
  { State.reset with
    cores := [(0, { kernel { thr with run := .bar 3 } with bars := [(3, .wait)] })]
    net := [{ p := { hdr := { cls := .normal, kind := 10, job := 5, aux := aux } }, loc := .dest }]
    groups := [(3, { job := 5, members := [0, 1], arrived := arr })] }
def barFlight (aux : BitVec 16) : Flight := { p := { hdr := { cls := .normal, kind := 10, job := 5, aux := aux } }, loc := .dest }

theorem wit_ThreadEvents_landed : Claims.landed (barring [] 3) 0 (barFlight 3) 10 ∧ Claims.landed (barring [1] 3) 0 (barFlight 3) 10 ∧
    Claims.landed (barring [] 259) 0 (barFlight 259) 10 :=
  ⟨landed_first _ _ _ (by decide +kernel) (by decide +kernel) (by decide +kernel),
   landed_first _ _ _ (by decide +kernel) (by decide +kernel) (by decide +kernel),
   landed_first _ _ _ (by decide +kernel) (by decide +kernel) (by decide +kernel)⟩

theorem wit_ThreadEvents_arrival : SMap.find (barring [1] 3).groups 3 = some { job := 5, members := [0, 1], arrived := [1] } ∧
    (3 : BitVec 16).getLsbD 8 = false ∧ (259 : BitVec 16).getLsbD 8 = true ∧ ((barring [] 259).cluster (clusterOf 0)).saved = [] := by
  decide +kernel
theorem wit_ThreadEvents_members : (∃ m ∈ [(0 : CoreIx), 1], m ∉ [(0 : CoreIx)]) ∧ (∀ m ∈ [(0 : CoreIx), 1], m ∈ [(1 : CoreIx), 0]) :=
  ⟨⟨1, by decide, by decide⟩, by simp⟩

theorem wit_ThreadEvents_release : ((barring [] 259).core 0).member = true ∧ ((barring [] 259).core 0).job = 5 ∧
    SMap.get BarSt.idle ((barring [] 259).core 0).bars 3 = .wait := by decide +kernel

/-- A deadline reached in the cycle; a watchdog at its bound. -/
theorem wit_ThreadEvents :
    (let s := { at' { thr with run := .wait 100 } with cycle := 100 }
     (s.getTh 0 0).run = .wait 100 ∧ (100 : Word).toNat ≤ s.cycle.toNat ∧ (s.core 0).frozen = false ∧ (s.core 0).held = false) ∧
    (let s := withCore { kernel thr with threads := (Vector.replicate 8 {}).set 7 { thr with inst := some (2, .trump), wdog := 4096 } }
     (s.getTh 0 7).inst = some (2, .trump) ∧ 4096 ≤ (s.getTh 0 7).wdog ∧ (s.getTh 0 7).run ≠ .free) := by
  decide +kernel

/-- One packet at a place of the fabric of module 0 in a 2 x 1 x 1 pod. -/
def lone (f : Flight) : State :=
  { at' thr with net := [f], links := [(0, { up := true }), (8, { up := false })], cfg := { podext := 1 } }
def hopping (dcl : BitVec 8) (dmod : BitVec 12) (loc : Loc) : Flight :=
  { p := { hdr := { dmod := dmod, dcl := dcl, cls := .normal, job := 5 } }, loc := loc }

/-- The turn of cx before cy, the wrap of the torus, and the way out to module 1 by gateway 0. -/
theorem wit_RouterForward :
    (let f := hopping 0x31 0 (.router 0x0E 0)
     (lone f).net = [f] ∧ Header.malformed f.p.hdr = false ∧ f.p.hdr.dmod = (lone f).cfg.modid) ∧
    Claims.plusOn 16 14 1 ∧ ¬ Claims.plusOn 16 1 14 ∧ Claims.plusOn 16 0 8 ∧
    (let f := hopping 0 1 (.router (Claims.gateway 0) 0)
     f.p.hdr.dmod ≠ (lone f).cfg.modid ∧ (lone f).gatewayFor f.p.hdr.src (Claims.gateway 0) 0 = some 0) ∧
    (Claims.linkAt (lone (hopping 0 1 (.switch 0 0))) 0).up = true ∧ (Claims.linkAt (lone (hopping 0 1 (.switch 1 0))) 8).up = false ∧
    (let f := hopping 0 1 (.link 0)
     f.loc = .link 0 ∧ (Claims.linkAt (lone f) 0).up = true ∧ (Claims.linkAt (lone f) 0).retraining = false ∧
     (Claims.linkAt (lone f) 0).fails < 16) := by
  unfold Claims.plusOn; decide +kernel

/-- No link of the direction up at all; one up outside the band of two columns. -/
theorem wit_RouterForward_none : let f := hopping 0 1 (.router (Claims.gateway 0) 0)
    (let s := { lone f with links := [] }
     s.gatewayFor f.p.hdr.src (Claims.gateway 0) 0 = none ∧ ∀ i, i < 8 → (Claims.linkAt s (8 * 0 + i)).up = false) ∧
    (let s := { lone f with links := [(1, { up := true })], cfg := { podext := 1, pctl := [(0, 0x110), (1, 0x1F2)] } }
     s.gatewayFor f.p.hdr.src (Claims.gateway 0) 0 = none ∧ (Claims.linkAt s (8 * 0 + 1)).up = true) := by decide +kernel

theorem wit_RouterForward_hop : ∃ out loc, Claims.nextHop (lone (hopping 0x31 0 (.router 0x0E 0))) 0x0E 0x31 .dest out loc := by
  refine ⟨1, .router 0x0F 1, by decide +kernel, fun _ _ => by decide +kernel, ?_, ?_, ?_⟩
  · intro h h'; exact absurd h' (by unfold Claims.plusOn; decide +kernel)
  · intro h; exact absurd h (by decide +kernel)
  · intro h; exact absurd h (by decide +kernel)

theorem wit_RouterForward_pod : Claims.podHop (lone (hopping 0 1 (.switch 0 0))) 1 0 := by
  refine ⟨0, by decide, by decide +kernel, fun e h => absurd h (by omega), fun _ => rfl, fun h => ?_⟩
  exact absurd (by unfold Claims.plusOn; decide +kernel) h

/-- A formed packet from module 1 of the pod; an empty ring, a ring with one; the ring full for 1 ms; links in their states. -/
def fromPod (job : BitVec 8) : Packet := { hdr := { cls := .normal, src := 0x8000, job := job } }
def ringed : State := { at' thr with switches := [(0, { ring := [fromPod 0], fullSince := some 0 })], cycle := 2500000 }

theorem wit_Gateways : Header.malformed (fromPod 0).hdr = false ∧ ringFull (Claims.switchAt ringed 0).ring = false ∧
    (fromPod 0).hdr.dmod = ringed.cfg.modid ∧ Header.malformed { (fromPod 0).hdr with dmod := 1 } = false ∧
    (Claims.switchAt ringed 0).ring ≠ [] ∧ (Claims.switchAt (at' thr) 0).ring = [] ∧ (at' thr).net = [] ∧
    ringed.care.svc = .full ∧ (Claims.switchAt ringed 0).fullSince = some 0 ∧ 0 + 2500000 ≤ ringed.cycle.toNat ∧
    ((at' thr).cycle + (Claims.switchAt (at' thr) 0).podSkew).toNat < (5 : Word).toNat := by decide +kernel

theorem wit_Gateways_admitted : Claims.admitted ringed 0 (fromPod 0) ∧ ¬ Claims.admitted ringed 0 (fromPod 5) := by
  unfold Claims.admitted; decide +kernel

theorem wit_Gateways_links : (let x := Claims.linkAt { at' thr with links := [(0, { up := true, fails := 16 })] } 0
      x.up = true ∧ x.retraining = false ∧ 16 ≤ x.fails) ∧
    (Claims.linkAt { at' thr with links := [(0, { up := true, retraining := true })] } 0).retraining = true := by decide +kernel

/-- A request of core 0 at home, in a range over module SRAM, or none; the word poisoned or not. -/
def ranged (poison : List Nat) : State :=
  { at' thr with ranges := [(7, 0x575, 0)], poison := poison }
def homing (poison : List Nat) (kind : BitVec 4) (ws : List Word) (aux : BitVec 16) (ent : Option (Nat × Word × Word)) : State × Flight :=
  let f : Flight := { p := { request kind ws with hdr := { (request kind ws).hdr with aux := aux } }, loc := .home, ent := ent }
  ({ ranged poison with net := [f] }, f)
def entry7 : Option (Nat × Word × Word) := some (7, 0x575, 0)

/-- RD, masked WR, block WR, atomics with the word as it is, and the place that they translate to. -/
theorem wit_HomeRequests : ∀ x ∈ [((1 : Nat), [(0x40 : Word), 16], (0 : Nat)), (2, [0x40, 7], 0xFFFF), (2, [0x40, 1, 2, 0], 16),
      (3, [0x40, 5], 97), (4, [0x40, 5], 97), (5, [0x40, 9, 0, 0], 96)],
    let h := homing [] (BitVec.ofNat 4 x.1) x.2.1 (BitVec.ofNat 16 x.2.2) entry7
    h.2.p.tile = none ∧ h.1.net[0]? = some h.2 ∧ h.2.loc = .home ∧ h.2.p.hdr.kind.toNat = x.1 ∧ h.1.park = [] ∧
    h.2.p.hdr.src.extractLsb' 15 12 = h.1.cfg.modid ∧
    (Claims.without h.1 0).translate h.2.ent h.2.part ((h.2.p.words.getD 0 0).toNat % 2 ^ 48) (Claims.coveredBytes h.2.p) x.1 false =
      (.perform (msramPlace 0 0x40), Claims.without h.1 0) ∧
    h.1.poisoned (msramPlace 0 0x40) = false := by decide +kernel

/-- Each of them at its endpoint, new; from the own module and from module 1; all words performed at once, or the first put off. -/
def fromModule (m : BitVec 12) (h : State × Flight) : State × Flight :=
  let f := { h.2 with p := { h.2.p with hdr := { h.2.p.hdr with src := m ++ (0 : BitVec 15) } } }
  ({ h.1 with net := [f] }, f)
theorem wit_HomeRequests_home : ∀ m ∈ [(0 : BitVec 12), 1], ∀ x ∈ [((1 : Nat), [(0x40 : Word), 16]), (2, [0x40, 7]), (3, [0x40, 5]), (4, [0x40, 5]),
      (5, [0x40, 9, 0, 0])],
    let h := fromModule m (homing [] (BitVec.ofNat 4 x.1) x.2 97 entry7)
    Claims.athome h.1 0 h.2 x.1 ∧ Claims.isNew h.1 h.2 (h.1.endpointOfPlace (msramPlace 0 0x40)) ∧
    h.1.clusterOfPlace (msramPlace 0 0x40) = h.2.p.hdr.dcl ∧ h.2.got = [] := by
  unfold Claims.athome Claims.isNew Claims.ownRequest; decide +kernel
theorem wit_HomeRequests_words : let h := homing [] 1 [0x40, 16] 0 entry7
    (Claims.nowOf h.1 h.2 2).length + h.2.got.length = 2 ∧
    (Claims.nowOf { h.1 with later := [0] } h.2 2).length + h.2.got.length < 2 := by decide +kernel
theorem wit_HomeRequests_got : Claims.gotOk (homing [] 1 [0x40, 16] 0 entry7).2 2 := ⟨.nil, fun e h => by cases h⟩
/-- A range over module SRAM whose place lies in another cluster than the controller's. -/
theorem wit_HomeRequests_elsewhere : (ranged []).clusterOfPlace (msramPlace 1 0) ≠ 0 ∧ (ranged []).mayInject 0 0 false = true := by
  decide +kernel

theorem wit_HomeRequests_other :
    (let h := homing [msramPlace 0 0x40 / 8] 3 [0x40, 5] 97 entry7
     (Claims.without h.1 0).poisoned (msramPlace 0 0x40) = true) ∧
    (let h := homing [] 1 [0x40, 16] 0 none
     (Claims.without h.1 0).translate h.2.ent h.2.part ((h.2.p.words.getD 0 0).toNat % 2 ^ 48) (Claims.coveredBytes h.2.p) 1 false =
       (.error 1, Claims.without h.1 0)) ∧
    Claims.atomicOld (ranged []) (msramPlace 0 0x40) 64 = (0 : Word).toNat % 2 ^ 64 := by decide +kernel

/-- Boundaries of the limit and the page; permissions; a page entry of each state whose copy agrees. -/
def paged (e : Word) : State :=
  (supers []).storeWord (pagePlace 4096) e (BitVec.allOnes 16) |> fun s => { s with pcache := [(pagePlace 4096, e)] }

/-- The same without a copy. -/
def uncopied (e : Word) : State := { paged e with pcache := [] }

theorem wit_Translation :
    (let lim := (((0x579 : Word).extractLsb' 21 27).toNat + ((0x8000000 : Word).extractLsb' 0 27).toNat + 1) * 2 ^ 21
     lim < 0x1FFFF9 + 8 ∧ 0x1FFFF8 + 8 ≤ lim) ∧
    (0x579 : Word).getLsbD 4 = true ∧ (0x29 : Word).getLsbD 4 = false ∧ (0x579 : Word).getLsbD 3 = true ∧ (0x71 : Word).getLsbD 3 = false ∧
    0xFFFC / 65536 ≠ (0xFFFC + 8 - 1) / 65536 ∧ 0xFFF8 / 65536 = (0xFFF8 + 8 - 1) / 65536 ∧
    (∀ n ∈ [0, 1, 2, 3], let e : Word := BitVec.ofNat 64 n
      let pa := ((0x8000000 : Word).extractLsb' 27 29).toNat * 4096 + (0x8 - 0) / 65536 * 8
      (paged e).care.hbmOk = true ∧ pagePlace pa = pagePlace 4096 ∧ (paged e).word (pagePlace 4096) = e ∧
      SMap.find (paged e).pcache (pagePlace 4096) = some e ∧ (paged e).park = [] ∧ (e.extractLsb' 0 2).toNat = n) ∧
    (∃ k ∈ ({ paged 1 with park := [aSlot (pagePlace 4096)] } : State).park, k.page = pagePlace 4096) := by decide +kernel

/-- A request whose page is MIGRATING (state 1): it parks, first of its page or not, or finds 256 slots in use. -/
def parking (n : Nat) (page : Nat) : State :=
  { uncopied 1 with net := [{ atHome 2 [0x40, 7] with ent := some (7, 0x579, 0x8000000) }], park := List.replicate n (aSlot page),
                    cycle := 60000 }

/-- Whether a translation parks for that page, or performs. -/
def parksAt (t : Trans) (i pl state : Nat) : Bool :=
  match t with
  | .park st j q x => decide (st = 0 ∧ j = i ∧ q = pl ∧ x = state)
  | _ => false
def performs (t : Trans) : Bool :=
  match t with
  | .perform _ => true
  | _ => false

theorem wit_Parking : (let f := (parking 0 0).net.head?
      f = some { atHome 2 [0x40, 7] with ent := some (7, 0x579, 0x8000000) }) ∧
    (∀ f ∈ (parking 0 0).net, parksAt ((Claims.without (parking 0 0) 0).translate f.ent f.part
      ((f.p.words.getD 0 0).toNat % 2 ^ 48) (Claims.coveredBytes f.p) f.p.hdr.kind.toNat false).1 7 (pagePlace 4096) 1 = true) ∧
    256 ≤ ((parking 256 0).park.filter fun k => decide (k.stack.toNat = 0)).length ∧
    ((parking 255 (pagePlace 4096)).park.filter fun k => decide (k.stack.toNat = 0)).length < 256 := by decide +kernel

/-- It is at its controller, new. -/
theorem wit_Parking_home : ∀ f ∈ (parking 0 0).net, Claims.athome (parking 0 0) 0 f 2 ∧ Claims.isNew (parking 0 0) f f.ep := by
  unfold Claims.athome Claims.isNew Claims.ownRequest; decide +kernel

/-- A duplicate of a request from module 1; a notice, a limit and an entry that are due; a released write of a VALID page. -/
theorem wit_Parking_events :
    (let f : Flight := { p := { request 2 [0x40, 7] with hdr := { (request 2 [0x40, 7]).hdr with src := 0x8000 } }, loc := .home }
     let s := { ranged [] with net := [f], ctc := [{ endpoint := 0, src := 0x8000, txid := 3, reply := {}, until_ := 9 }] }
     s.net[0]? = some f ∧ f.loc = .home ∧ f.p.hdr.kind = 2 ∧ f.p.hdr.src.extractLsb' 15 12 ≠ s.cfg.modid ∧ s.mayReply 0 = true ∧
     s.ctc.find? (fun c => decide (c.src = f.p.hdr.src ∧ c.txid = f.p.hdr.txid ∧ s.cycle.toNat < c.until_)) = s.ctc.head? ∧
     (∀ c ∈ s.ctc, c.until_ ≤ ({ s with cycle := 9 } : State).cycle.toNat)) ∧
    (let s := parking 1 0
     ∀ k ∈ s.park, k.noticed + 2 * Claims.tenMicros s ≤ s.cycle.toNat) ∧
    (let s := { parking 1 0 with cycle := 25000001 }
     ∀ k ∈ s.park, k.since + 100 * s.cfg.parklim * Claims.tenMicros s < s.cycle.toNat) ∧
    (let s := { uncopied 0 with park := [{ aSlot (pagePlace 4096) with released := true }] }
     ∀ k ∈ s.park, k.released = true ∧ k.flight.p.tile = none ∧ k.flight.got = [] ∧ s.later = [] ∧ s.net = [] ∧
      s.mayReply k.flight.p.hdr.dcl = true ∧ s.cacheFull k.flight.p 0 = false ∧
      performs (s.translate (s.stage1 k.flight.p k.flight.part) k.flight.part 0x40 (Claims.coveredBytes k.flight.p) 2 true).1 = true) := by
  decide +kernel

/-- A core with a request of thread 0 outstanding under TXID 3, and a reply of a kind to it. -/
def outReq : Req := { txid := 3, pkt := request 1 [0x40, 8], owner := .thread 0 }
def replying (th : Thread) (kind : BitVec 4) (stat : BitVec 4) : State :=
  { withCore { kernel th with reqs := [outReq] } with
    net := [{ p := { hdr := { vn := 1, cls := .normal, kind := kind, txid := 3, stat := stat }, words := [0x55, 0] }, loc := .dest }]
    cycle := 125000 }
def loading (d : Dest) (n : Nat) : Thread := { thr with reads := [{ txid := 3, dest := d, bytes := n }] }

theorem wit_Replies : ∀ kind ∈ [6, 7, 8, 9],
    ∀ th ∈ [loading (.s 4) 8, loading (.v 1 0x03) 64, { thr with reads := [{ txid := 3, kind := .get (spadPlace 0 0) 9 .normal, bytes := 16 }] },
      { thr with block := some { txid := 3, dest := 4, gva := 0x40, pops := 0 } },
      { thr with wrs := [{ txid := 3, gva := 0x40, bytes := 8, kind := 2 }] }],
    let s := replying th (BitVec.ofNat 4 kind) 1
    (s.core 0).reqs.find? (fun q => decide (q.txid = 3)) = some outReq ∧ outReq.owner = .thread 0 ∧
    (∀ f ∈ s.net, f.loc = .dest ∧ f.p.hdr.kind.toNat = kind ∧ f.p.poison = [] ∧ f.p.hdr.stat ≠ 8) ∧
    s.later = [] ∧ outReq.timer + s.cfg.timer * Claims.tenMicros s ≤ s.cycle.toNat ∧ outReq.expiries < 3 ∧
    s.mayInject 0 0 false = true := by decide +kernel

/-- A value that the read's bytes make. -/
theorem wit_Replies_value : Claims.waitsFor (loading (.s 4) 8) 3 { txid := 3, dest := .s 4, bytes := 8 } ∧
    ∀ i, i < 8 → (0x55 : Word).extractLsb' (8 * i) 8 = Claims.byteFor { txid := 3, dest := .s 4, bytes := 8 } [0x55, 0] i := by
  unfold Claims.waitsFor; decide +kernel


/-! ### The units, the loader, the host -/

/-- An engine command and its cluster: a tile command of one tile of core 0, one at the end of the scratchpad, a copy of 16 bytes. -/
def tileCmd (i : Instr) (av cv : Word) : EngCmd := { aCommand i 0 1 with av := av, cv := cv, bv := 0x3F80 }
def copyCmd : EngCmd := { aCommand (.xcopy ⟨true, true⟩ .raw .normal 1 2 3 9) 0 1 with dv := 0x2000, av := 0x1010, bv := 16 }

/-- The first command of a queue of one can start. -/
theorem starts (e : EngCmd) (hp : e.phase = .queued) (hw : e.was = none) (h : (e.pos, e.sub, e.stage, e.spsn) = (0, 0, [], []))
    (h2 : (e.ent, e.reqs, e.fail, e.doneUnits, e.hold) = (none, [], none, 0, false)) (hc : e.core = 0) :
    Claims.commandAt (engines [e]) 0 0 e ∧ Claims.canStart (engines [e]) 0 0 e := by
  simp only [Prod.mk.injEq] at h h2
  refine ⟨⟨rfl, by rw [hc]; decide +kernel, fun j f hf _ => ?_⟩, hp, hw, h.1, h.2.1, h.2.2.1, h.2.2.2, h2.1, h2.2.1, h2.2.2.1, h2.2.2.2.1,
    h2.2.2.2.2, ?_, fun j f hj => absurd hj (by omega), ?_⟩
  · have hl : j < ((engines [e]).cluster 0).eng.length := (List.getElem?_eq_some_iff.mp hf).1
    have hl' : ((engines [e]).cluster 0).eng.length = 1 := rfl
    omega
  · rw [hc]; rfl
  · exact Nat.lt_of_le_of_lt (List.length_filter_le _ _) (by show (1 : Nat) < 16; decide)

/-- Nothing lands, and nothing waits to read what describes its work. -/
theorem lands (e : EngCmd) (h : e.phase = .queued) (p n : Nat) : Claims.landingFree (engines [e]) 0 e p n := by
  refine ⟨(by show (0 : Nat) < 64; decide), fun l hl => (by cases hl), fun f hf _ => ?_⟩
  have hf' : f = e := List.mem_singleton.mp (show f ∈ [e] from hf)
  rw [hf', h]; decide

theorem wit_UnitSteps_tiles : ∀ e ∈ [tileCmd (.tzero 5 6 9) 0x1000 1, tileCmd (.tfill .bf16 5 7 6 9) 0x3000 1, tileCmd (.tident .bf16 3 5 6 9) 0x1000 1],
    (Claims.commandAt (engines [e]) 0 0 e ∧ Claims.canStart (engines [e]) 0 0 e) ∧ e.cv = 1 ∧ e.av.toNat < 0x1000000 ∧ e.av.toNat % 4096 = 0 ∧
    (engines [e]).nearPlace e.core e.av 4096 = some (spadPlace 0 e.av.toNat) ∧ Claims.landingFree (engines [e]) 0 e (spadPlace 0 e.av.toNat) 4096 := by
  intro e he
  simp only [List.mem_cons, List.not_mem_nil, or_false] at he
  obtain rfl | rfl | rfl := he <;>
    exact ⟨starts _ rfl rfl rfl rfl rfl, by decide +kernel, by decide +kernel, by decide +kernel, by decide +kernel, lands _ rfl _ _⟩

/-- Where the start checks meet: alignment before count before limit; 4,096 tiles from 0 fit, from 1 they do not; a reserved bit. -/
theorem wit_UnitSteps_checks : ∀ p ∈ [((0x1010 : Word), (0 : Word)), (0x1000, 0), (0, 0x4000), (0x1000, 4096)],
    (Claims.commandAt (engines [tileCmd (.tzero 0 0 0) p.1 p.2]) 0 0 (tileCmd (.tzero 0 0 0) p.1 p.2) ∧
      Claims.canStart (engines [tileCmd (.tzero 0 0 0) p.1 p.2]) 0 0 (tileCmd (.tzero 0 0 0) p.1 p.2)) ∧
    (p.1.toNat % 4096 ≠ 0 ∨ (p.1.toNat % 4096 = 0 ∧ (p.2.toNat % 2 ^ 13 = 0 ∨ 2 ^ 13 ≤ p.2.toNat)) ∨
      (p.1.toNat % 4096 = 0 ∧ p.2.toNat % 2 ^ 13 ≠ 0 ∧ p.2.toNat < 2 ^ 13 ∧ 0x1000000 < p.1.toNat + 4096 * p.2.toNat)) := by
  intro p hp
  refine ⟨starts _ rfl rfl rfl rfl rfl, ?_⟩
  simp only [List.mem_cons, List.not_mem_nil, or_false] at hp
  obtain rfl | rfl | rfl | rfl := hp <;> decide +kernel

theorem wit_UnitSteps_copy : (Claims.commandAt (engines [copyCmd]) 0 0 copyCmd ∧ Claims.canStart (engines [copyCmd]) 0 0 copyCmd) ∧
    copyCmd.av.toNat % 16 = 0 ∧ copyCmd.dv.toNat % 16 = 0 ∧ copyCmd.av ≠ copyCmd.dv ∧
    (engines [copyCmd]).nearPlace 0 copyCmd.av 16 = some (spadPlace 0 0x1010) ∧
    (engines [copyCmd]).nearPlace 0 copyCmd.dv 16 = some (spadPlace 0 0x2000) ∧
    (∀ i, i < 16 → (engines [copyCmd]).poisoned (spadPlace 0 0x1010 + i) = false) ∧
    Claims.landingFree (engines [copyCmd]) 0 copyCmd (spadPlace 0 0x2000) 16 ∧
    Claims.landingFree (engines [copyCmd]) 0 copyCmd (spadPlace 0 0x1010) 16 :=
  ⟨starts _ rfl rfl rfl rfl rfl, by decide +kernel, by decide +kernel, by decide +kernel, by decide +kernel, by decide +kernel,
    by decide +kernel, lands _ rfl _ _, lands _ rfl _ _⟩

/-- A command that has ended; a kitty with room, and one that is full. -/
theorem wit_UnitSteps_completion : (let e := Claims.didOne (aCommand (.tzero 1 2 9) 0 1)
      e.phase = .ended ∧ e.fail = none ∧ e.doneCount < 2 ^ 32 ∧ ((engines [e]).core e.core).kitty.size ≠ 0 ∧
      ((engines [e]).core e.core).kitty.full = false ∧ ((engines [e]).cluster 0).eng[0]? = some e) ∧
    ((withCore { kernel thr with kitty := { size := 64, recs := [aMessage 9] } }).core 0).kitty.full = true := by decide +kernel

/-- A command at work on its first block: each of those that move data, where its first act of the reads or of the writes comes. -/
def atWorkOn (i : Instr) (sub : Nat) (dv av bv cv : Word) : EngCmd :=
  { aCommand i 0 1 with phase := .work, sub := sub, dv := dv, av := av, bv := bv, cv := cv }
theorem works (i : Instr) (sub : Nat) (dv av bv cv : Word) (h : 0 < (atWorkOn i sub dv av bv cv).blocks) :
    Claims.atWork (engines [atWorkOn i sub dv av bv cv]) 0 0 (atWorkOn i sub dv av bv cv) := by
  refine ⟨⟨rfl, (by decide +kernel : clusterOf 0 = 0), fun j f hf _ => ?_⟩, rfl, rfl, rfl, rfl, h⟩
  have hl : j < ((engines [atWorkOn i sub dv av bv cv]).cluster 0).eng.length := (List.getElem?_eq_some_iff.mp hf).1
  have hl' : ((engines [atWorkOn i sub dv av bv cv]).cluster 0).eng.length = 1 := rfl
  omega
theorem wit_UnitSteps_work :
    0 < (atWorkOn (.xcopy ⟨true, true⟩ .raw .normal 1 2 3 9) 0 0x2000 0x1010 32 0).blocks ∧
    0 < (atWorkOn (.xgather true .normal 1 2 3 4 9) 0 0x2000 0x40000000 0x1000 0x0000000100010001).blocks ∧
    0 < (atWorkOn (.xscatter true false .raw .normal 1 2 3 4 9) 0 0x40000000 0x2000 0x1000 0x0000000100010001).blocks ∧
    0 < (atWorkOn (.xpack true .bf16 .normal 1 2 3 9) 0 0x3000 0x1000 0x1000001 0).blocks ∧
    0 < (atWorkOn (.xunpack true .bf16 .normal 1 2 3 9) 0 0x1000 0x3000 0x1000001 0).blocks := by decide +kernel

/-- A matrix command alone in its array: fresh, off a tile boundary, at work with the window used up, ended. -/
def working : MatCmd :=
  { aMatCmd (.mop 1 false .bf16 .bf16 1 2 3 9) 0 1 with cv := 64, started := true, ready := true, av := 0, bv := 0 }
theorem wit_UnitSteps_arrays : ∀ e ∈ [aMatCmd (.mzero 1 false 9) 0 1, aMatCmd (.mseed 1 2) 0 1,
      { aMatCmd (.mop 1 false .bf16 .bf16 1 2 3 9) 0 1 with av := 0x10 }],
    Claims.oldest (arrays [e]) 0 1 e [] ∧ Claims.fresh (arrays [e]) 0 e := by
  intro e he
  simp only [List.mem_cons, List.not_mem_nil, or_false] at he
  obtain rfl | rfl | rfl := he <;> exact ⟨⟨rfl, rfl, fun f hf => by cases hf⟩, rfl, rfl, rfl⟩

theorem wit_UnitSteps_governor : Claims.working (arrays [working]) 0 1 working [] ∧ working.pos < working.cycles ∧
    working.cycleKind working.pos ≠ .skip ∧ Claims.cleanFeed (arrays [working]) working ∧
    (let s := (arrays [working]).modCluster 0 fun x => { x with govNow := 64, govUsed := 64 }
     s.cycle.toNat / 1024 ≤ (s.cluster 0).govWin ∧ (s.cluster 0).govNow ≤ (s.cluster 0).govUsed) ∧
    (arrays [working]).cycle.toNat / 1024 ≤ ((arrays [working]).cluster 0).govWin ∧
    ((arrays [working]).cluster 0).govUsed < ((arrays [working]).cluster 0).govNow ∧
    (arrays [{ working with ended := true }]).clusters ≠ [] ∧ ((arrays []).core 0).kitty.full = false ∧
    ({ at' thr with cycle := 1024 } : State).cycle.toNat / 1024 > (({ at' thr with cycle := 1024 } : State).cluster 0).govWin :=
  ⟨⟨⟨rfl, rfl, fun f hf => by cases hf⟩, rfl, rfl, rfl⟩, by decide +kernel, by decide +kernel, ⟨by decide +kernel, by decide +kernel⟩,
    by decide +kernel⟩
/-- A load and a drain of a tile without poison. -/
theorem wit_UnitSteps_cells : (let e : MatCmd := { aMatCmd (.mload 1 false .bf16 1 9) 0 1 with started := true, ready := true, av := 0x1000 }
      4096 * e.pos < 1024 * tagWidth .bf16 ∧ (arrays [e]).matBad e (e.at (e.av.toNat + 4096 * e.pos)) 4096 = []) ∧
    (Claims.arrayOf (arrays []) 0 1).psn false = [] := by decide +kernel

/-- An image of one role, core 1 of cluster 0, with XB 0 (R80, R81), in host memory at 64; its entry, PJOB 9. -/
def anImage : List Byte :=
  leBytes 4 0x4A424947 ++ leBytes 2 1 ++ leBytes 2 1 ++ leBytes 2 1 ++ leBytes 2 0 ++ leBytes 4 144 ++ List.replicate 48 0 ++
    (leBytes 2 1 ++ List.replicate 6 0 ++ leBytes 4 64 ++ List.replicate 4 0) ++
    (leBytes 32 1 ++ leBytes 16 2 ++ List.replicate 16 0)
def anEntry : BitVec 512 := BitVec.ofNat 512 (7 + 2 ^ 32 * 144 + 2 ^ 64 * 64 + 2 ^ 128 * 9)
/-- A queue that loads from an entry, with an image of the bytes given. -/
def loads (bs : List Byte) : State :=
  { at' thr with queues := [(3, { state := .loading, load := some (0, anEntry), tokens := [leBytes 64 7] })] }.putBytes (hostPlace 64) bs

/-- Whether a load can go on. -/
def goes (p : Planned) : Bool :=
  match p with
  | .go _ => true
  | _ => false
/-- A load that fails, by an image in host memory and by a copy that a job uses; one that goes on, in EARLY service, where no choice of
the loader is needed. -/
theorem wit_LaunchEvents : (Claims.queueOf (loads anImage) 3).state = .loading ∧
    (Claims.queueOf (loads anImage) 3).load = some (0, anEntry) ∧ anEntry.extractLsb' 148 12 = 0#12 ∧
    (SMap.find (loads []).store (anEntry.extractLsb' 0 32).toNat = none ∧ (Claims.queueOf (loads []) 3).tail = false ∧
      leVal ((Claims.imageOf (loads []) anEntry).take 4) ≠ 0x4A424947) ∧
    (let s := { loads anImage with store := [(7, { bytes := [], used := 0 })], jobs := [(6, { handle := 7 })] }
     (∃ j ∈ s.jobs, j.2.handle = anEntry.extractLsb' 0 32) ∧ (Claims.imageOf s anEntry).length < 64) ∧
    (let s := { loads anImage with care := { svc := .early, clok := 256 } }
     goes ((s.evictFor (anEntry.extractLsb' 0 32).toNat).plan 0 anEntry) = true) := by decide +kernel

/-- A prepared job of one module, one of two; an open one with an initial message; one that is done. -/
def jobbed (j : Job) : State := { at' thr with jobs := [(5, j)] }
def firstMsg : InitMsg := { core := 0, lab := 8, cls := .normal, tag := 2, words := [1] }
theorem wit_LaunchEvents_gate : (∀ j ∈ [({ cores := [0] } : Job), { cores := [0], nmod := 1 }, { cores := [0], nmod := 1, opened := true }],
      SMap.find (jobbed j).jobs 5 = some j ∧ j.gate = false) ∧
    (let j : Job := { gate := true, cores := [0], inits := [firstMsg] }
     SMap.find (jobbed j).jobs 5 = some j ∧ j.inits = [firstMsg] ∧ (jobbed j).mayInject 0 0 false = true ∧ (jobbed j).net = [] ∧
     (jobbed j).trumpOk 0 false = true) := by decide +kernel
/-- A message of another class on its way to the core. -/
theorem wit_LaunchEvents_ahead : Claims.otherAhead { at' thr with net := [{ p := { hdr := { cls := .high } }, loc := .router 0 0 }] } 0 .normal :=
  ⟨_, List.mem_cons_self .., rfl, rfl, rfl, rfl, by decide⟩

/-- A job that has finished: done, nothing on its way, its core without work. -/
def finishedJob : Job := { gate := true, cores := [0], done := true, queue := some 3 }
def retiring : State :=
  { withCore { kernel {} with threads := Vector.replicate 8 {} } with jobs := [(5, finishedJob)], queues := [(3, { state := .bound, job := 5 })] }
theorem wit_LaunchEvents_retire : SMap.find retiring.jobs 5 = some finishedJob ∧ finishedJob.nmod = 0 ∧ finishedJob.tail = none ∧
    finishedJob.sent = finishedJob.recv ∧ finishedJob.inits = [] ∧ (∀ c ∈ finishedJob.cores, Claims.workless (retiring.core c)) ∧
    ((retiring.cluster 0).eng = [] ∧ (retiring.cluster 0).saved = [] ∧ (retiring.cluster 0).grace = [] ∧
      ∀ a ∈ (retiring.cluster 0).arrays.toList, a.cmds = []) ∧
    retiring.park = [] ∧ retiring.net = [] ∧ (Claims.queueOf retiring 3).tokens = [] := by
  refine ⟨by decide +kernel, by decide +kernel, by decide +kernel, by decide +kernel, by decide +kernel, fun c hc => ?_,
    by decide +kernel, by decide +kernel, by decide +kernel, by decide +kernel⟩
  have h0 : c = 0 := List.mem_singleton.mp (show c ∈ [(0 : CoreIx)] from hc)
  rw [h0]
  exact ⟨by decide +kernel, fun cls => by cases cls <;> decide +kernel, by decide +kernel, by decide +kernel⟩

/-- A token of 64 bytes for core 0, label 8, with nw words of class normal. -/
def aToken (nw : Nat) : List Byte := leBytes 64 (7 + 2 ^ 48 * 8 + 2 ^ 56 * (1 + 4 * nw))
def queued (x : IQueue) : State := { at' thr with queues := [(3, x)], images := [(0, anEntry)] }
/-- Tokens at the queue's offset: a right one, a short one; the queue full, with room; of each state; images named or not. -/
theorem wit_HostEvents_tokens : (0x3000 : BitVec 26).extractLsb' 12 14 = 3 ∧ (aToken 2).length = 64 ∧ (0x3000 : BitVec 26).toNat % 64 = 0 ∧
    64 ≤ (List.replicate 64 (aToken 2)).length ∧ (List.replicate 63 (aToken 2)).length < 64 ∧
    BitVec.ofNat 32 (Claims.tokenField (aToken 2) 0 4) = 7 ∧
    (queued {}).images.find? (fun e => decide (e.2.extractLsb' 0 32 = 7#32 ∧ e.2.extractLsb' 32 32 ≠ 0#32)) = some (0, anEntry) ∧
    (∀ e ∈ (queued {}).images, ¬ (e.2.extractLsb' 0 32 = 8#32 ∧ e.2.extractLsb' 32 32 ≠ 0#32)) ∧
    (Claims.queueOf (queued { state := .error }) 3).state = .error ∧ (Claims.queueOf (queued { state := .bound }) 3).state = .bound ∧
    (Claims.queueOf (queued {}) 3).state = .unbound ∧ (Claims.queueOf (queued {}) 3).tokens = [] ∧
    (at' thr).care.svc = .full ∧ State.reset.care.svc = .reset := by decide +kernel

theorem wit_HostEvents_release : (let s := queued { state := .bound, job := 5, tokens := [aToken 2] }
      (Claims.queueOf s 3).state = .bound ∧ (Claims.queueOf s 3).tokens = [aToken 2] ∧ SMap.find s.jobs 5 = some { gate := true, cores := [0] }) ∧
    (at' thr).mayInject (clusterOf 0) 0 false = true ∧ ¬ Claims.malformed (aToken 6) ∧ Claims.malformed (aToken 7) ∧ Cls.ofCode (Claims.tokenField (aToken 6) 7 1 % 4) = some .normal ∧
    (⟨0, 8, .normal⟩ : HostTarget) ∉ ([] : List HostTarget) := by
  unfold Claims.malformed; decide +kernel

/-- Words of the power cap at its bounds; registers at the ends of their windows; the mailbox with each command. -/
def boxed (svc : Svc) (c : Nat) (under : Option Nat) : State :=
  { at' thr with care := { (at' thr).care with svc := svc, mbox := [(0, BitVec.ofNat 8 c)], mboxCmd := under } }
theorem wit_HostEvents_registers : (3999 : Word).toNat < 4000 ∧ 24000 < (24001 : Word).toNat ∧ 4000 ≤ (4000 : Word).toNat ∧
    (24000 : Word).toNat ≤ 24000 ∧ (0x1000 : BitVec 25).toNat % 8 = 0 ∧ (0x1FF0 : BitVec 25).toNat < 0x1FF8 ∧
    (0x103FC0 : BitVec 25).toNat % 64 = 0 ∧ (0x0000000000000007 : Word).extractLsb' 32 32 = 0#32 ∧
    0x200000 ≤ (0x3FFFF8 : BitVec 25).toNat ∧ (0x3FFFF8 : BitVec 25).toNat < 0x400000 ∧
    (boxed .recovery 3 none).care.svc = .recovery ∧ Claims.box (boxed .recovery 3 none) 0 8 = 3 ∧
    0x100000 ≤ (0x103FF8 : BitVec 25).toNat ∧ (0x103FF8 : BitVec 25).toNat < 0x104000 ∧
    (∀ c ∈ [1, 2, 4, 5], Claims.box (boxed .full c none) 0 8 = c) ∧ Claims.box (boxed .early 3 none) 0 8 ∉ [1, 2, 4, 5] ∧
    (boxed .boot 1 none).care.mboxCmd = none ∧ (boxed .boot 1 none).care.svc = .boot ∧
    (∀ c ∈ [1, 2, 3, 4, 5], (boxed .recovery c (some c)).care.mboxCmd = some c) ∧ (boxed .recovery 3 (some 3)).care.bist = false ∧
    (boxed .full 2 (some 2)).care.flashWriting = false ∧
    (let s := boxed .recovery 3 (some 3)
     { s.care with flashWriting := true }.flashWriting = true) := by decide +kernel

/-- Which images boot is the model's free value: one that is too long does not, whatever it says, and of the others every case is met. -/
theorem wit_HostEvents_boot (bs : List Byte) (h : 2 ^ 26 < bs.length) : ¬ Claims.bootable bs := fun b => absurd b.1 (by omega)

theorem wit_CareEvents : State.reset.care.powered = false ∧ (boxed .boot 0 none).care.verified = false ∧
    (boxed .boot 0 none).care.flashBad = false ∧ (boxed .boot 0 none).care.bist = false ∧ (256 : BitVec 9).toNat ≤ 256 ∧
    ({ powered := true } : Care).svc = .reset ∧ (boxed .boot 0 none).care.svc ≠ .reset ∧
    (let s : State := { at' thr with net := [{ p := { hdr := { plen := 1 }, words := [1, 2] }, loc := .router 3 0 }] }
     s.net[0]? = some { p := { hdr := { plen := 1 }, words := [1, 2] }, loc := .router 3 0 } ∧ 2 * 0 < [(1 : Word), 2].length) ∧
    (let s := { at' thr with care := { svc := .early } }
     s.care.hbmFail = false ∧ s.care.hbmOk = false ∧ s.care.lpOk = false ∧ s.care.linkOk = false) ∧
    placeKind (spadPlace 3 0x108 / 8 * 8) = 1 ∧ placeKind (hostPlace 8) = 6 ∧
    (let s := { at' thr with cycle := 1025, cfg := { secLog := [(0, List.range 1025), (1, List.range 1024)] } }
     let hour := 36000 * 10000 * (if s.care.svc = .full then 25000 else 12500)
     (∃ e ∈ s.cfg.secLog, 1024 < (e.2.filter fun t => decide (s.cycle.toNat < t + hour)).length) ∧
     ∀ e ∈ [((1 : Nat), List.range 1024)], ¬ 1024 < (e.2.filter fun t => decide (s.cycle.toNat < t + hour)).length) := by decide +kernel

/-! ### Control operations -/

/-- A control packet of the system job to a core of its own module: operation, first word (reply label 40, job 5), others. -/
def ctlOp (op : Label) (c : CoreIx) (w0 : Word) (ws : List Word) : Flight :=
  { p := { hdr := { dcore := c.extractLsb' 0 7, dcl := clusterOf c, cls := .high, lab := op, plen := 1, kind := 11 }, words := w0 :: ws }
    loc := .dest, supPath := true }
def asked (f : Flight) (s : State) : State := { s with net := [f] }
theorem asks_first (s : State) (f : Flight) (op : Label) (h : s.net[0]? = some f) (hl : f.loc = .dest) (hk : f.p.hdr.kind.toNat = 11)
    (ho : f.p.hdr.lab = op) : Claims.asks s 0 f op := ⟨landed_first s f 11 h hl hk, ho⟩

/-- Every operation of Table 14.2 asked for, and one that is not listed. -/
theorem wit_ControlOps (s : State) (c : CoreIx) (w0 : Word) (ws : List Word) (op : Label) :
    Claims.asks (asked (ctlOp op c w0 ws) s) 0 (ctlOp op c w0 ws) op := asks_first _ _ _ rfl rfl rfl rfl

theorem wit_ControlOps_core : Claims.landed (asked (ctlOp 0x15 0 40 []) (at' thr)) 0 (ctlOp 0x15 0 40 []) 11 ∧
    0x14 < (ctlOp 0x15 0 40 []).p.hdr.lab.toNat ∧ ((at' thr).core 0).frozen = false ∧
    ((withCore { kernel thr with frozen := true }).core 0).frozen = true ∧ ((at' thr).cluster 0).eng = [] ∧
    (40 : Word).getLsbD 8 = false ∧ (0x128 : Word).getLsbD 8 = true :=
  ⟨landed_first _ _ _ rfl rfl rfl, by decide +kernel⟩

/-- A job of two modules: the first READY, then the second; readings of both, equal in both rounds, or one short. -/
def twoModules : Job := { cores := [0], nmod := 1, coord := 1, sent := 2, recv := 2 }
def reading (m : BitVec 12) (x : Word) (b : Bool) : QRep := { mod := m, sent := x, recv := x, reading := b }
def launching (l : Launch) : State := { jobbed twoModules with launches := [(5, l)] }
theorem wit_ControlOps_launch : (let f := ctlOp 0 0 0x528 []
      Claims.jobOf f = 5 ∧ (Claims.launchRecord (launching {}) f).aborted = false ∧ Claims.sender f = 0 ∧
      (Claims.launchRecord (launching { readys := [1] }) f).readys = [1] ∧ SMap.find (launching {}).jobs 5 = some twoModules ∧
      SMap.find (launching {}).jobs 6 = none) ∧
    twoModules.coord ≠ (launching {}).cfg.modid ∧ twoModules.gate = false ∧ twoModules.queue = none := by decide +kernel

theorem wit_ControlOps_quiesced :
    Claims.quiesced 1 (Claims.withReport { reps := [reading 0 2 false, reading 1 2 false, reading 0 2 true] } (reading 1 2 true)).reps ∧
    ¬ Claims.quiesced 1 (Claims.withReport { reps := [reading 0 2 false, reading 1 2 false] } (reading 0 2 true)).reps := by
  unfold Claims.quiesced; decide +kernel

/-- Configuration registers at the ends of their ranges; partitions that cover every band once, twice, or not. -/
theorem wit_ControlOps_cfgw : (∀ g ∈ [(1 : Nat), 2, 3, 4, 0x10, 0x1F, 0x20, 0x1000, 0x13FF, 0x2000, 0x20FF, 0x2100, 0x21FF, 0x2200, 0x2440],
      ((BitVec.ofNat 64 (40 + 65536 * g)).extractLsb' 16 16).toNat = g) ∧ ((at' thr).cluster 255).aown.getLsbD 35 = false ∧
    (at' thr).cycle.toNat / 1024 ≤ ((at' thr).cluster 255).govWin ∧
    (∀ d, d < 16 → Claims.holds (Claims.stagedWord (at' thr) 0) d ∧ ∀ r, r < 16 → Claims.holds (Claims.stagedWord (at' thr) r) d → r = 0) ∧
    (∀ p, p < 16 → (Claims.stagedWord (at' thr) p).getLsbD 8 = true →
      (Claims.stagedWord (at' thr) p).extractLsb' 0 4 ≤ (Claims.stagedWord (at' thr) p).extractLsb' 4 4) ∧
    (let s := { at' thr with cfg := { staged := [(0, 0)] } }
     ∀ p, p < 16 → ¬ Claims.holds (Claims.stagedWord s p) 15) := by unfold Claims.holds; decide +kernel
/-- The columns of the teams stay where they are; the column of core 0 goes to another partition. -/
theorem wit_ControlOps_bands : Claims.bandsStay (at' thr) ∧ ¬ Claims.bandsStay { at' thr with cfg := { staged := [(0, 0x1F1), (1, 0x100)] } } := by
  refine ⟨fun k _ _ _ p _ => ?_, fun h => ?_⟩
  · exact Iff.rfl
  · have h1 := h (0, kernel thr) (List.mem_cons_self ..) (by decide +kernel) (by decide +kernel) 1 (by omega)
    exact absurd (h1.mp (by unfold Claims.holds; decide +kernel)) (by unfold Claims.holds; decide +kernel)

/-! ### Preemption -/

/-- Unpaged HBM of the system job over the first 32 MiB; a save area at 0x1000 of it. -/
def saving (k : Core) (x : Cluster) : State :=
  { withCore k with ranges := [(1, 0x71, 0x4000000F)], clusters := [(0, x)] }
def anArea : SaveArea := ((saving {} {}).areaAt 0 0x1000 0x1304000).getD {}
def aGrace (b : Bool) : Grace := { job := 5, area := anArea, until_ := 0, src := 0, lab := 40, stopping := b }
theorem wit_team : Claims.inTeam (at' thr) 0 5 0 := by unfold Claims.inTeam; decide +kernel
theorem wit_noTeam : ∀ c, ¬ Claims.inTeam (at' thr) 0 6 c := by
  rintro c ⟨-, hm, hj⟩
  by_cases h : c = 0
  · subst h; exact absurd hj (by decide +kernel)
  · have : (at' thr).core c = {} := by
      show SMap.get {} [(0, kernel thr)] c.toNat = {}
      have hn : ¬ (0 : Nat) = c.toNat := fun e => h (BitVec.eq_of_toNat_eq e.symm)
      have hn' : ¬ c.toNat = 0 := fun e => hn e.symm
      simp [SMap.get, hn']
    rw [this] at hm; cases hm

theorem wit_Preemption : (ctlOp 0x12 0 0x528 [0x1000]).p.hdr.dcl = 0 ∧ Claims.jobOf (ctlOp 0x12 0 0x528 [0x1000]) = 5 ∧
    ((ctlOp 0x12 0 0x528 [0x1008]).p.words.getD 1 0).toNat % 4096 ≠ 0 ∧ (saving (kernel thr) {}).teamTiles 0 5 = 4 ∧
    (saving (kernel thr) {}).areaAt 0 0x1000 0x1304000 = some anArea ∧ ((saving (kernel thr) {}).cluster 0).grace = [] ∧
    (saving (kernel thr) { grace := [{ aGrace false with until_ := 1 }] }).cycle.toNat < 1 ∧
    ((saving (kernel thr) { grace := [aGrace false] }).cluster 0).eng = [] ∧
    (∀ i, i < 4 → ((saving (kernel thr) { grace := [aGrace true] }).cluster 0).aown.getLsbD (32 + i) = false) := by decide +kernel

theorem wit_Preemption_settled : Claims.settledCore (kernel thr) := by
  refine ⟨rfl, rfl, fun i => ?_⟩
  revert i; decide +kernel

/-- The team of core 0 saved: an area with its header, or without; in a cluster where the team is not. -/
def savedTeam : Saved := { job := 5, area := anArea, cores := [(0, kernel thr)] }
def restoring (head : Word) : State :=
  ({ saving {} { saved := [savedTeam] } with cores := [] }.storeWord (anArea.place 0) head (BitVec.allOnes 16)).storeWord (anArea.place 8) 1 (BitVec.allOnes 16)
theorem wit_Preemption_restore : (restoring 0).savedOf 0 5 = some savedTeam ∧ savedTeam.cores = [(0, kernel thr)] ∧
    (kernel thr).winTiles = 4 ∧ (restoring 0).areaAt 0 0x1000 0x1304000 = some anArea ∧
    (restoring 0).word (anArea.place 0) = 0 ∧
    (restoring 0x0005000145564153).word (anArea.place 0) = 0x0005000145564153 ∧
    (0x0005000145564153 : Word).extractLsb' 0 32 = 0x45564153#32 ∧ (0x0005000145564153 : Word).extractLsb' 32 16 = 1#16 ∧
    (restoring 0x0005000145564153).mayRestore 0 5 savedTeam anArea = true ∧
    savedTeam.cores.Pairwise (fun x y => x.1 < y.1) ∧ (∀ e ∈ savedTeam.cores, e.1 < 2 ^ 15) := by decide +kernel

theorem wit_Preemption_resume : ((at' thr).core 0).held = false ∧ ((withCore { kernel thr with held := true }).core 0).held = true ∧
    SMap.find (at' thr).jobs 5 = some { gate := true, cores := [0] } ∧
    (∀ i, ((withCore { kernel thr with held := true }).core 0).thread i |>.block.isNone) := by decide +kernel

/-! ### The step -/

/-- A thread that may issue, the word of `add s6, s4, s7` (Table 9.1) at its pc, below XB and at it; the move of the agenda. -/
def fetching (pc : Word) (w : Nat) : State :=
  { withCode (at' { thr with pc := pc }) pc.toNat w with agenda := [.issue 0 0] }
theorem wit_StepRunsDecoded : Claims.nextIs (fetching 0 0x00C43801) (.issue 0 0) [] ∧ (fetching 0 0).care.stopped = false ∧
    64 * ((fetching 0 0).core 0).xb.toNat = 256 ∧
    Claims.codeAt (fetching 252 0x00C43801) 0 252 = 0x00C43801 ∧ ¬ Claims.isLong 0x00C43801 ∧ Claims.isLong 0xFCC05000 ∧
    (((fetching 0 0).core 0).pcc.toList.all fun p => !p.getLsbD 0) = true ∧
    decodeWords 0x00C43801 0 = .ok (.add 6 4 7) ∧ (fetching 0 0).th.reads = [] ∧ (fetching 0 0).th.msg = none ∧
    (fetching 0 0).th.block = none ∧ (fetching 0 0).th.pend = none ∧
    (∀ i ∈ [Instr.commitInjection 0 0, .thermalThrottle], Claims.nextIs { at' thr with agenda := [.event i] } (.event i) [] ∧ Instr.isEvent i = true) ∧
    (∀ m ∈ [Move.defer [0], .upset (.corrected 0)], Claims.nextIs { at' thr with agenda := [m] } m []) := by
  refine ⟨.inl (by decide +kernel), by decide +kernel, by decide +kernel, by decide +kernel, by unfold Claims.isLong; decide +kernel,
    by unfold Claims.isLong; decide +kernel, by decide +kernel, rfl, by decide +kernel, by decide +kernel, by decide +kernel, by decide +kernel,
    ?_, ?_⟩
  · rintro i hi
    exact ⟨.inl rfl, by revert i; decide +kernel⟩
  · rintro m hm
    exact .inl rfl

/-- The thread may issue, whatever cycle its clock shows. -/
theorem wit_StepRunsDecoded_may (ms : List Move) : Claims.mayIssue (Claims.atIssue (fetching 0 0x00C43801) ms 0 0) 0 0 := by
  have hk : (Claims.atIssue (fetching 0 0x00C43801) ms 0 0).core 0 = (fetching 0 0x00C43801).core 0 := rfl
  have hq : ∀ cls, ((fetching 0 0x00C43801).core 0).queue cls = [] := fun cls => by cases cls <;> decide +kernel
  have ho : ∀ u : ThrIx, (((fetching 0 0x00C43801).core 0).thread u).opens = 0 := by decide +kernel
  have hr : ∀ u : ThrIx, u ≠ 0 → (((fetching 0 0x00C43801).core 0).thread u).run = .free := by decide +kernel
  unfold Claims.mayIssue
  rw [hk]
  refine ⟨by decide +kernel, by decide +kernel, .inl (by decide +kernel), by rw [ho]; exact Nat.zero_le _,
    by rw [(by decide +kernel : ((fetching 0 0x00C43801).core 0).lastIssue = 0)]; exact Nat.zero_le _,
    .inr ⟨fun h => ?_, fun u hu h => ?_⟩, fun _ _ cls m h => ?_, fun u lab since h cls m hm => ?_, .inl fun l h => ?_⟩
  · rw [Claims.ready, hr 7 (by decide)] at h; cases h.1
  · by_cases e : u = 0
    · subst e; exact Nat.le_refl _
    · rw [Claims.ready, hr u e] at h; cases h.1
  · obtain ⟨⟨pre, post, e, -⟩, -⟩ := h
    rw [hq] at e
    cases pre <;> cases e
  · rw [hq] at hm; cases hm
  · have hin : (((fetching 0 0x00C43801).core 0).thread 0).inst = some (1, .normal) := by decide +kernel
    rw [hin] at h; cases h

/-- A blocking atomic that failed. -/
theorem wit_StepRunsDecoded_atomic : let th : Thread := { thr with block := some { txid := 3, dest := 4, gva := 0x40, pops := 0, err := some 7 } }
    (th.block.bind (·.err)) = some 7 := by decide

/-- Words that decode to nothing; a long form at LEND of an active loop; a read of s4 that has not come. -/
theorem wit_StepRunsDecoded_other : (∀ i, decodeWords 0 0 ≠ .ok i) ∧
    (let th : Thread := { thr with lact := true, lstart := 1, llen := 1, pc := 8, reads := [{ txid := 3, dest := .s 4, bytes := 8 }] }
     th.lact = true ∧ th.pc = th.lend ∧ (th.reads.all fun r => decide (r.dest = .s 4 ∧ r.failed = none) && !r.met) = true) := by
  refine ⟨fun i h => ?_, by decide +kernel⟩
  have : (decodeWords 0 0).toOption = none := by decide +kernel
  rw [h] at this; cases this

/-- Instructions of one word and of two that are well-formed and have words. -/
theorem wit_DecodeEncode : (Instr.add 6 4 7).wf = true ∧ encode (.add 6 4 7) = some 0x00C43801 ∧ ¬ Claims.isLong (0x00C43801 % 2 ^ 32) ∧
    (Instr.mseed 1 10).wf = true ∧ encode (.mseed 1 10) = some 0x00000080FCC05000 ∧ Claims.isLong (0x00000080FCC05000 % 2 ^ 32) := by
  unfold Claims.isLong; decide +kernel

/-- The reset state meets the invariant, and a state that steps. -/
theorem wit_StepKeepsMemory : State.reset.inv ∧ ({ State.reset with care := { stopped := true }, agenda := [.issue 0 0] } : State).inv ∧
    (∃ t, step { State.reset with care := { stopped := true }, agenda := [.issue 0 0] } = .next t) := by
  refine ⟨by unfold State.inv; decide +kernel, by unfold State.inv; decide +kernel, ?_⟩
  have h : (match step { State.reset with care := { stopped := true }, agenda := [.issue 0 0] } with
    | .next _ => true
    | _ => false) = true := by decide +kernel
  revert h; cases step { State.reset with care := { stopped := true }, agenda := [.issue 0 0] } with
  | next t => exact fun _ => ⟨t, rfl⟩
  | fault f => exact fun h => by cases h
  | refused r => exact fun h => by cases h
end Tests
end

/-! SUPPORT. The dealer's starts, the delivery to `recv` and the spreading of a team of two (R214, R215, R319 to R321, R323). -/

namespace Sys2Proof.Machine

/-! ### Class queues -/

@[simp] theorem Core.queue_setQueue (k : Core) (c : Cls) (q : List Message) : (k.setQueue c q).queue c = q := by
  cases c <;> rfl

/-- A queue replaced by itself. -/
theorem Core.setQueue_queue (k : Core) (c : Cls) : k.setQueue c (k.queue c) = k := by
  cases c <;> rfl

@[simp] theorem Core.setQueue_setQueue (k : Core) (c : Cls) (q r : List Message) :
    (k.setQueue c q).setQueue c r = k.setQueue c r := by
  cases c <;> rfl

@[simp] theorem Core.thread_setQueue (k : Core) (c : Cls) (q : List Message) (t : ThrIx) :
    (k.setQueue c q).thread t = k.thread t := by
  cases c <;> rfl

@[simp] theorem Core.trigger_setQueue (k : Core) (c : Cls) (q : List Message) (l : Label) :
    (k.setQueue c q).trigger l = k.trigger l := by
  cases c <;> rfl

/-- A message at the tail of a queue holds the flits of its kind. -/
theorem Core.inboxUse_setQueue_append (k : Core) (c : Cls) (m : Message) (trump : Bool) :
    (k.setQueue c (k.queue c ++ [m])).inboxUse trump =
      k.inboxUse trump + if Cls.isTrump m.hdr.cls = trump then m.flits else 0 := by
  cases c <;> simp only [Core.inboxUse, Core.setQueue, Core.queue, List.map_append, List.sum_append, List.map_cons, List.map_nil,
    List.sum_cons, List.sum_nil] <;> omega

theorem Cls.isTrump_of_ne {c : Cls} (h : c ≠ .trump) : Cls.isTrump c = false := by
  cases c <;> trivial

theorem queueCap_of_ne {c : Cls} (h : c ≠ .trump) : queueCap c = 64 := by
  cases c <;> trivial

@[simp] theorem State.putTh_putTh (s : State) (c : CoreIx) (t : ThrIx) (a b : Thread) :
    (s.putTh c t a).putTh c t b = s.putTh c t b := by
  simp [State.putTh, State.modCore]

/-! ### The oldest entry of a label -/

theorem takeLabel_append {lab : Label} {m : Message} {pre : List Message} (post : List Message) (hm : m.hdr.lab = lab)
    (hpre : Claims.noneOf lab pre) : takeLabel lab (pre ++ m :: post) = some (m, pre ++ post) := by
  induction pre with
  | nil => simp [takeLabel, hm]
  | cons x xs ih =>
    have hx : x.hdr.lab ≠ lab := hpre x List.mem_cons_self
    have hxs : Claims.noneOf lab xs := fun y hy => hpre y (List.mem_cons_of_mem x hy)
    simp [takeLabel, hx, ih hxs]

theorem find_label_eq_some_iff {lab : Label} {q : List Message} {x : Message} :
    q.find? (fun m => decide (m.hdr.lab = lab)) = some x ↔
      x.hdr.lab = lab ∧ ∃ pre post, q = pre ++ x :: post ∧ Claims.noneOf lab pre := by
  simp only [List.find?_eq_some_iff_append, Claims.noneOf, decide_eq_true_eq, Bool.not_eq_true', decide_eq_false_iff_not, ne_eq]

/-- The first class, from trump down, at which a search finds something. -/
theorem firstM_classes {α : Type} {f : Cls → Option α} {cls : Cls} {r : α} (hr : f cls = some r)
    (hh : ∀ c ∈ Claims.higher cls, f c = none) : [Cls.trump, .high, .normal, .bulk].firstM f = some r := by
  cases cls <;> simp only [Claims.higher, List.mem_cons, List.not_mem_nil, or_false, forall_eq_or_imp, forall_eq] at hh <;>
    simp [List.firstM, hr, hh]

/-! ### Trigger entries (Table 12.1) -/

theorem fld_toNat (w : Word) (lo n : Nat) : fld w.toNat lo n = (w.extractLsb' lo n).toNat := by
  rw [fld, BitVec.extractLsb'_toNat, Nat.shiftRight_eq_div_pow]

theorem Cls.ofCode_code (c : Cls) : Cls.ofCode c.code = some c := by
  cases c <;> rfl

theorem trgCls_of_code {e : Word} {c : Cls} (h : c.code = (e.extractLsb' 15 2).toNat) : trgCls e = c := by
  rw [trgCls, fld_toNat, ← h, Cls.ofCode_code, Option.getD_some]

theorem isTrump_trgCls (e : Word) : Cls.isTrump (trgCls e) = decide (e.extractLsb' 15 2 = 3#2) := by
  rw [trgCls, fld_toNat]
  have h : ∀ x : BitVec 2, Cls.isTrump ((Cls.ofCode x.toNat).getD .bulk) = decide (x = 3#2) := by decide
  exact h _

theorem trgGuard_iff (e : Word) (cf : Byte) : trgGuard e cf = true ↔ cf &&& e.extractLsb' 21 8 = e.extractLsb' 29 8 := by
  rw [trgGuard, decide_eq_true_eq, fld_toNat, fld_toNat, ← BitVec.toNat_and, BitVec.toNat_inj]

/-! ### Threads that sleep and threads that are free -/

theorem Core.mem_zip_threads_iff {k : Core} {n : Nat} {th : Thread} :
    (n, th) ∈ (List.range 8).zip k.threads.toList ↔ ∃ t : ThrIx, t.toNat = n ∧ k.thread t = th := by
  rw [List.mem_iff_getElem]
  constructor
  · rintro ⟨i, hi, e⟩
    have hi8 : i < 8 := by simpa using hi
    rw [List.getElem_zip, List.getElem_range, Vector.getElem_toList, Prod.mk.injEq] at e
    obtain ⟨rfl, hth⟩ := e
    have ht : (BitVec.ofNat 3 i).toNat = i := Nat.mod_eq_of_lt hi8
    exact ⟨BitVec.ofNat 3 i, ht, by simp only [Core.thread, ht, hth]⟩
  · rintro ⟨t, rfl, hth⟩
    exact ⟨t.toNat, by simpa using t.isLt, by
      rw [List.getElem_zip, List.getElem_range, Vector.getElem_toList]; exact congrArg (t.toNat, ·) hth⟩

theorem Core.mem_sleepers_iff {k : Core} {lab : Label} {n since : Nat} :
    (n, since) ∈ k.sleepers lab ↔ ∃ t : ThrIx, t.toNat = n ∧ (k.thread t).run = .recv lab since := by
  simp only [Core.sleepers, List.mem_filterMap, Prod.exists]
  constructor
  · rintro ⟨i, th, hmem, hrun⟩
    obtain ⟨t, rfl, rfl⟩ := Core.mem_zip_threads_iff.1 hmem
    split at hrun
    · next l x hl =>
      split at hrun
      · next hlab => cases hrun; exact ⟨t, rfl, hlab ▸ hl⟩
      · cases hrun
    · cases hrun
  · rintro ⟨t, rfl, hrun⟩
    exact ⟨_, _, Core.mem_zip_threads_iff.2 ⟨t, rfl, rfl⟩, by simp [hrun]⟩

theorem Core.sleepers_isEmpty_iff {k : Core} {lab : Label} :
    (k.sleepers lab).isEmpty = true ↔ ∀ t since, (k.thread t).run ≠ .recv lab since := by
  rw [List.isEmpty_iff, List.eq_nil_iff_forall_not_mem]
  constructor
  · exact fun h t since hrun => h _ (Core.mem_sleepers_iff.2 ⟨t, rfl, hrun⟩)
  · rintro h ⟨n, since⟩ hmem
    obtain ⟨t, -, hrun⟩ := Core.mem_sleepers_iff.1 hmem
    exact h t since hrun

/-- R214: thread 7 for a trump start, else the lowest FREE one of 0 to 6. -/
theorem Core.freeThread_eq_some_iff {k : Core} {e : Word} {t : ThrIx} :
    k.freeThread (trgCls e) = some t ↔ Claims.threadFor k e t := by
  rw [Core.freeThread, Claims.threadFor, isTrump_trgCls]
  by_cases he : e.extractLsb' 15 2 = 3#2
  · simp only [he, decide_true, if_true, Option.ite_none_right_eq_some, Option.some.injEq, decide_eq_true_eq]
    constructor
    · rintro ⟨hfree, rfl⟩; exact ⟨hfree, rfl⟩
    · rintro ⟨hfree, rfl⟩; exact ⟨hfree, rfl⟩
  · have hback (u : ThrIx) : BitVec.ofNat 3 u.toNat = u := BitVec.ofNat_toNat 3 u ▸ BitVec.setWidth_eq u
    simp only [he, decide_false, Bool.false_eq_true, if_false, Option.map_eq_some_iff, List.find?_range_eq_some,
      decide_eq_true_eq, List.mem_range, Bool.not_eq_true', decide_eq_false_iff_not]
    constructor
    · rintro ⟨n, ⟨hfree, hn, hlow⟩, rfl⟩
      have hN : (BitVec.ofNat 3 n).toNat = n := Nat.mod_eq_of_lt (by omega)
      refine ⟨hfree, fun h7 => ?_, fun u hu => ?_⟩
      · have : n = 7 := hN ▸ congrArg BitVec.toNat h7
        omega
      · exact hback u ▸ hlow u.toNat (hN ▸ BitVec.lt_def.1 hu)
    · rintro ⟨hfree, h7, hlow⟩
      refine ⟨t.toNat, ⟨(hback t).symm ▸ hfree, by bv_omega, fun n hn => hlow _ ?_⟩, hback t⟩
      rw [BitVec.lt_def, BitVec.toNat_ofNat]
      exact Nat.lt_of_le_of_lt (Nat.mod_le _ _) hn

/-! ### What may start (R319) -/

theorem Core.running_eq (k : Core) (l : Label) :
    k.running l = (k.threads.toList.filter fun th => decide (th.inst.map (·.1) = some l)).length := by
  rw [Core.running]
  exact congrArg List.length (List.filter_congr fun th _ => Bool.eq_iff_iff.2 (by rw [beq_iff_eq, decide_eq_true_eq]))

theorem Core.startable_iff {k : Core} {l : Label} : k.startable l = true ↔ Claims.startable k l := by
  simp only [Core.startable, Claims.startable, Bool.and_eq_true, and_assoc, trgGuard_iff, decide_eq_true_eq, Core.running_eq,
    Core.sleepers_isEmpty_iff, Option.isSome_iff_exists, Core.freeThread_eq_some_iff, trgLim, fld_toNat, trgEn]
  rfl

/-- Whether the dealer may start a label of a class queue in a cycle, as `Core.nextLabel` asks it. -/
def Core.eligible (k : Core) (cls : Cls) (now : Nat) (l : Label) : Bool :=
  ((k.queue cls).find? fun m => decide (m.hdr.lab = l)).any (fun m => decide (m.placed ≤ now)) && k.startable l

theorem Core.eligible_iff {s : State} {k : Core} {cls : Cls} {l : Label} :
    k.eligible cls s.cycle.toNat l = true ↔ ∃ x : Message, x.hdr.lab = l ∧ Claims.mayStart s k (k.queue cls) x := by
  simp only [Core.eligible, Bool.and_eq_true, Option.any_eq_true, decide_eq_true_eq, find_label_eq_some_iff, Core.startable_iff,
    Claims.mayStart]
  constructor
  · rintro ⟨⟨x, ⟨rfl, hold⟩, hp⟩, hs⟩; exact ⟨x, rfl, hold, hp, hs⟩
  · rintro ⟨x, rfl, hold, hp, hs⟩; exact ⟨⟨x, ⟨rfl, hold⟩, hp⟩, hs⟩

/-- The label after the one that a class started last. -/
def Core.firstTurn (k : Core) (cls : Cls) : Label :=
  match SMap.find k.lastLab cls.code with
  | some x => x + 1
  | none => 0

theorem Core.behind_eq (k : Core) (cls : Cls) (l : Label) : Claims.behind k cls l = (l - k.firstTurn cls).toNat := rfl

/-- `Core.nextLabel` looks for the eligible label that is the least behind. -/
theorem Core.nextLabel_eq (k : Core) (cls : Cls) (now : Nat) : k.nextLabel cls now =
    ((List.range 128).find? fun i => k.eligible cls now (k.firstTurn cls + BitVec.ofNat 7 i)).map
      fun i => k.firstTurn cls + BitVec.ofNat 7 i := by
  have hfind (f : Nat → Label) : (if (k.queue cls).isEmpty then none else ((List.range 128).map f).find? (k.eligible cls now)) =
      ((List.range 128).find? fun i => k.eligible cls now (f i)).map f := by
    split
    · next hq =>
      have hnone (i : Nat) : ¬ k.eligible cls now (f i) = true := by
        simp only [Core.eligible, List.isEmpty_iff.1 hq, List.find?_nil, Option.any_none, Bool.false_and, Bool.false_eq_true,
          not_false_eq_true]
      rw [List.find?_eq_none.2 fun i _ => hnone i, Option.map_none]
    · exact List.find?_map
  unfold Core.nextLabel Core.firstTurn
  cases SMap.find k.lastLab cls.code with
  | none => exact (hfind fun i => BitVec.ofNat 7 (0 + i)).trans (by simp)
  | some x => exact (hfind fun i => BitVec.ofNat 7 (x.toNat + 1 + i)).trans (by simp [BitVec.ofNat_add])

theorem Core.nextLabel_eq_none {s : State} {k : Core} {cls : Cls} (h : ∀ x, ¬ Claims.mayStart s k (k.queue cls) x) :
    k.nextLabel cls s.cycle.toNat = none := by
  rw [Core.nextLabel_eq, Option.map_eq_none_iff, List.find?_eq_none]
  intro i _ hel
  obtain ⟨x, -, hx⟩ := Core.eligible_iff.1 hel
  exact h x hx

/-- R319: the startable label that comes next after the one that the class started last. -/
theorem Core.nextLabel_eq_some {s : State} {k : Core} {cls : Cls} {m : Message} (hm : Claims.mayStart s k (k.queue cls) m)
    (hnext : ∀ x, Claims.mayStart s k (k.queue cls) x → Claims.behind k cls m.hdr.lab ≤ Claims.behind k cls x.hdr.lab) :
    k.nextLabel cls s.cycle.toNat = some m.hdr.lab := by
  have hlab : k.firstTurn cls + BitVec.ofNat 7 (Claims.behind k cls m.hdr.lab) = m.hdr.lab := by
    rw [Core.behind_eq, BitVec.ofNat_toNat, BitVec.setWidth_eq, BitVec.add_comm, BitVec.sub_add_cancel]
  rw [Core.nextLabel_eq, Option.map_eq_some_iff]
  refine ⟨Claims.behind k cls m.hdr.lab, List.find?_range_eq_some.2 ⟨?_, ?_, fun j hj => ?_⟩, hlab⟩
  · rw [hlab]; exact Core.eligible_iff.2 ⟨m, rfl, hm⟩
  · exact List.mem_range.2 (BitVec.isLt _)
  · rw [Bool.not_eq_true', Bool.eq_false_iff]
    intro hel
    obtain ⟨x, hx, hstart⟩ := Core.eligible_iff.1 hel
    have hle := hnext x hstart
    have hxj : Claims.behind k cls x.hdr.lab ≤ j := by
      rw [Core.behind_eq, hx, BitVec.add_comm, BitVec.add_sub_cancel, BitVec.toNat_ofNat]
      exact Nat.mod_le _ _
    omega

/-! ### The start of a handler (R215, R320) -/

theorem passed_of_le {t now : Nat} (h : t ≤ now) : passed t now = true := by
  simp [passed, h]

theorem State.inGrace_eq_false {s : State} {c : CoreIx} (h : ∀ g ∈ (s.cluster (clusterOf c)).grace,
    ¬ ((s.core c).member = true ∧ g.job = (s.core c).job)) : s.inGrace c = false := by
  simpa [State.inGrace, List.any_eq_false] using h

theorem State.startChoice_eq {s : State} {c : CoreIx} {cls : Cls} {m : Message} (hd : Claims.dealing s c)
    (hs : (s.core c).lastStart ≤ s.cycle.toNat) (hi : (s.core c).lastIssue ≤ s.cycle.toNat)
    (hm : Claims.mayStart s (s.core c) ((s.core c).queue cls) m)
    (hhigh : ∀ c' ∈ Claims.higher cls, ∀ x, ¬ Claims.mayStart s (s.core c) ((s.core c).queue c') x)
    (hnext : ∀ x, Claims.mayStart s (s.core c) ((s.core c).queue cls) x →
      Claims.behind (s.core c) cls m.hdr.lab ≤ Claims.behind (s.core c) cls x.hdr.lab) :
    s.startChoice c s.cycle.toNat = some (cls, m.hdr.lab) := by
  obtain ⟨hfrozen, hheld, hgrace⟩ := hd
  rw [State.startChoice]
  simp only [hfrozen, hheld, State.inGrace_eq_false hgrace, passed_of_le hs, passed_of_le hi, Bool.not_true, Bool.or_self,
    Bool.false_eq_true, if_false]
  refine firstM_classes (cls := cls) ?_ fun c' hc' => ?_
  · rw [Core.nextLabel_eq_some hm hnext, Option.map_some]
  · rw [Core.nextLabel_eq_none (hhigh c' hc'), Option.map_none]

theorem State.startOn_eq {s : State} {c : CoreIx} {cls : Cls} {m : Message} (t : ThrIx)
    (hcls : trgCls (Claims.entryOf (s.core c) m.hdr.lab) = cls) : s.startOn c t m =
      (s.putTh c t (Claims.started (s.getTh c t) s.cycle.toNat (Claims.entryOf (s.core c) m.hdr.lab) cls m)).modCore c
        fun k => k.unveil m.eff.cmds := by
  have he : (s.core c).trigger m.hdr.lab = Claims.entryOf (s.core c) m.hdr.lab := rfl
  rw [State.startOn, State.dequeueEffects]
  simp only [State.modTh, State.getTh_putTh, State.putTh_putTh, he, hcls, trgEntry, fld_toNat]
  rfl

/-- A core whose dealer has taken an entry of a label from a class queue, of which q remains (R319, R320). -/
def Core.dealt (k : Core) (cls : Cls) (q : List Message) (l : Label) (now : Nat) : Core :=
  { k.setQueue cls q with lastLab := SMap.set cls.code l k.lastLab, lastStart := now + 1 }

@[simp] theorem Core.thread_dealt (k : Core) (cls : Cls) (q : List Message) (l : Label) (now : Nat) (t : ThrIx) :
    (k.dealt cls q l now).thread t = k.thread t :=
  Core.thread_setQueue k cls q t

@[simp] theorem Core.entryOf_dealt (k : Core) (cls : Cls) (q : List Message) (l l' : Label) (now : Nat) :
    Claims.entryOf (k.dealt cls q l now) l' = Claims.entryOf k l' :=
  Core.trigger_setQueue k cls q l'

theorem execHandlerStart_of_choice {s : State} {c : CoreIx} {cls cls' : Cls} {t : ThrIx} {pre post : List Message} {m : Message}
    (hchoice : s.startChoice c s.cycle.toNat = some (cls, m.hdr.lab)) (hq : (s.core c).queue cls = pre ++ m :: post)
    (hpre : Claims.noneOf m.hdr.lab pre) (ht : Claims.threadFor (s.core c) (Claims.entryOf (s.core c) m.hdr.lab) t)
    (hcls : trgCls (Claims.entryOf (s.core c) m.hdr.lab) = cls') :
    execHandlerStart c s = .next (((s.setCore c ((s.core c).dealt cls (pre ++ post) m.hdr.lab s.cycle.toNat)).putTh c t
      (Claims.started ((s.core c).thread t) s.cycle.toNat (Claims.entryOf (s.core c) m.hdr.lab) cls' m)).modCore c
        fun k => k.unveil m.eff.cmds) := by
  have hfree : (s.core c).freeThread (trgCls ((s.core c).trigger m.hdr.lab)) = some t := Core.freeThread_eq_some_iff.2 ht
  rw [execHandlerStart]
  simp only [hchoice, hq, takeLabel_append post rfl hpre, hfree]
  refine congrArg Host.Outcome.next ((State.startOn_eq (s := s.setCore c (Core.dealt _ _ _ _ _)) (cls := cls') t ?_).trans ?_)
  · rw [State.core_setCore, Core.entryOf_dealt, hcls]
  · rw [State.getTh, State.core_setCore, Core.thread_dealt, Core.entryOf_dealt, State.setCore_cycle]

/-! ### Delivery to `recv` (R321) -/

theorem mem_of_earliest_eq_some {x : Nat × Nat} : ∀ {l : List (Nat × Nat)}, earliest l = some x → x ∈ l
  | [], h => by cases h
  | z :: zs, h => by
    rw [earliest] at h
    split at h
    · next y hy =>
      split at h
      · cases h; exact List.mem_cons_of_mem z (mem_of_earliest_eq_some hy)
      · cases h; exact List.mem_cons_self
    · cases h; exact List.mem_cons_self

/-- Of pairs of which one has the least second component, that one is found. -/
theorem earliest_eq_some {x : Nat × Nat} : ∀ {l : List (Nat × Nat)}, x ∈ l → (∀ y ∈ l, y = x ∨ x.2 < y.2) → earliest l = some x
  | [], hx, _ => by cases hx
  | z :: zs, hx, hleast => by
    have hz : z = x ∨ x.2 < z.2 := hleast z List.mem_cons_self
    have hzs : ∀ y ∈ zs, y = x ∨ x.2 < y.2 := fun y hy => hleast y (List.mem_cons_of_mem z hy)
    rw [earliest]
    by_cases hmem : x ∈ zs
    · rw [earliest_eq_some hmem hzs]
      rcases hz with rfl | hlt
      · simp
      · simp [hlt]
    · obtain rfl : x = z := (List.mem_cons.1 hx).resolve_right hmem
      split
      · next y hy =>
        rcases hzs y (mem_of_earliest_eq_some hy) with rfl | hlt
        · simp
        · rw [if_neg (by omega)]
      · rfl

theorem Core.earliest_sleepers {k : Core} {lab : Label} {t : ThrIx} {since : Nat} (ht : (k.thread t).run = .recv lab since)
    (hleast : ∀ u x, u ≠ t → (k.thread u).run = .recv lab x → since < x) :
    earliest (k.sleepers lab) = some (t.toNat, since) := by
  refine earliest_eq_some (Core.mem_sleepers_iff.2 ⟨t, rfl, ht⟩) fun y hy => ?_
  obtain ⟨u, hu, hrun⟩ := Core.mem_sleepers_iff.1 hy
  by_cases hut : u = t
  · subst hut
    obtain ⟨-, hsince⟩ := Run.recv.inj (ht.symm.trans hrun)
    exact .inl (Prod.ext hu.symm hsince.symm)
  · exact .inr (hleast u y.2 hut hrun)

theorem not_mem_higher (cls : Cls) : cls ∉ Claims.higher cls := by
  cases cls <;> decide

/-- The first class, from trump down, with a property. -/
theorem find_classes {p : Cls → Bool} {cls : Cls} (hp : p cls = true) (hh : ∀ c ∈ Claims.higher cls, p c = false) :
    [Cls.trump, .high, .normal, .bulk].find? p = some cls := by
  cases cls <;> simp only [Claims.higher, List.mem_cons, List.not_mem_nil, or_false, forall_eq_or_imp, forall_eq] at hh <;>
    simp [hp, hh]

theorem Core.mem_oldest_iff {k : Core} {lab : Label} {x : Message} : x ∈ k.oldest lab ↔
    ∃ c, (k.queue c).find? (fun m => decide (m.hdr.lab = lab)) = some x := by
  rw [Core.oldest, List.mem_filterMap]
  exact exists_congr fun c => and_iff_right (by cases c <;> simp)

/-- A search of the oldest messages of a label goes through the classes from trump down. -/
theorem Core.find_oldest (k : Core) (lab : Label) (p : Message → Bool) : (k.oldest lab).find? p =
    ([Cls.trump, .high, .normal, .bulk].find? fun c => ((k.queue c).find? fun m => decide (m.hdr.lab = lab)).any p).bind
      fun c => (k.queue c).find? fun m => decide (m.hdr.lab = lab) :=
  List.find?_filterMap

/-- R321: the message of a label that was placed first leaves the queues. -/
theorem Core.dequeueFirst_eq {s : State} {k : Core} {lab : Label} {cls : Cls} {m : Message} {pre post : List Message}
    (hq : k.queue cls = pre ++ m :: post) (hpre : Claims.noneOf lab pre) (hfirst : Claims.placedFirst s k lab cls m) :
    k.dequeueFirst lab s.cycle.toNat = some (m, k.setQueue cls (pre ++ post)) := by
  obtain ⟨hlab, hcls, hplaced, hothers⟩ := hfirst
  have hm : (k.queue cls).find? (fun m => decide (m.hdr.lab = lab)) = some m := find_label_eq_some_iff.2 ⟨hlab, pre, post, hq, hpre⟩
  have hbefore {c : Cls} {x : Message} (hx : (k.queue c).find? (fun m => decide (m.hdr.lab = lab)) = some x) (hc : c ≠ cls) :
      if c ∈ Claims.higher cls then m.placed < x.placed else m.placed ≤ x.placed := by
    obtain ⟨hxl, pre', post', hq', hpre'⟩ := find_label_eq_some_iff.1 hx
    exact hothers c pre' x post' hq' hxl hpre' hc
  have hleast : ∀ x ∈ k.oldest lab, m.placed ≤ x.placed := by
    intro x hx
    obtain ⟨c, hc⟩ := Core.mem_oldest_iff.1 hx
    by_cases hcc : c = cls
    · rw [hcc, hm] at hc; cases hc; exact Nat.le_refl _
    · have := hbefore hc hcc
      split at this <;> omega
  have hhead : ((k.oldest lab).filter fun x => (k.oldest lab).all fun o => decide (x.placed ≤ o.placed)).head? = some m := by
    rw [List.head?_filter, Core.find_oldest, find_classes (cls := cls) _ fun c hc => ?_, Option.bind_some, hm]
    · simpa [hm] using hleast
    · rw [Option.any_eq_false]
      intro x hx
      have hlt := hbefore hx fun e => not_mem_higher cls (e ▸ hc)
      rw [if_pos hc] at hlt
      simpa using ⟨m, Core.mem_oldest_iff.2 ⟨cls, hm⟩, hlt⟩
  obtain ⟨ms, hms⟩ : ∃ ms, ((k.oldest lab).filter fun x => (k.oldest lab).all fun o => decide (x.placed ≤ o.placed)) = m :: ms :=
    List.head?_eq_some_iff.1 hhead
  rw [Core.dequeueFirst]
  simp only [hms, hplaced, if_true, hcls, hq, takeLabel_append post hlab hpre, Option.map_some]

/-- R332: a thread takes a message and goes on behind its `recv`. -/
theorem Thread.advance_take (th : Thread) (m : Message) (len : Nat) :
    (th.take m).advance len = { th.passed len [] with msg := some m, popped := 0 } := by
  rw [← Thread.passed_nil, Thread.advance_eq, Thread.advance_eq]
  rfl

@[simp] theorem Thread.passed_fflags (th : Thread) (len : Nat) (srcs : List SReg) : (th.passed len srcs).fflags = th.fflags :=
  BitVec.or_zero

theorem State.recvTake_eq {s : State} (c : CoreIx) (t : ThrIx) {m : Message} (h : m.eff.overflow = none) : s.recvTake c t m =
    (s.putTh c t { (s.getTh c t).passed 4 [] with msg := some m, popped := 0, fflags := (s.getTh c t).fflags ||| m.eff.flags }).modCore c
      fun k => k.unveil m.eff.cmds := by
  rw [State.recvTake]
  simp only [h, State.dequeueEffects, State.modTh, State.getTh_putTh, State.putTh_putTh, Thread.advance_take,
    Thread.passed_fflags]

theorem execRecvDelivery_eq {s : State} {c : CoreIx} {lab : Label} {t : ThrIx} {m : Message} {k' : Core} {since : Nat}
    (hfrozen : (s.core c).frozen = false) (hheld : (s.core c).held = false)
    (ht : earliest ((s.core c).sleepers lab) = some (t.toNat, since))
    (hm : (s.core c).dequeueFirst lab s.cycle.toNat = some (m, k')) (hk : k'.thread t = (s.core c).thread t)
    (h : m.eff.overflow = none) :
    execRecvDelivery c lab s = .next (((s.setCore c k').putTh c t { ((s.core c).thread t).passed 4 [] with
      msg := some m, popped := 0, fflags := ((s.core c).thread t).fflags ||| m.eff.flags }).modCore c
        fun k => k.unveil m.eff.cmds) := by
  have hth : (s.setCore c k').getTh c t = (s.core c).thread t := by rw [State.getTh, State.core_setCore, hk]
  rw [execRecvDelivery]
  simp only [hfrozen, hheld, Bool.or_self, Bool.false_eq_true, if_false, ht, hm, Message.doubles, h, Option.isSome_none,
    Bool.false_and, BitVec.ofNat_toNat, BitVec.setWidth_eq, State.recvTake_eq c t h, hth]

/-! ### Spreading (R323) -/

/-- t is s after the n oldest entries of a class queue of a core have gone to the tail of that of another. -/
structure State.Moved (s t : State) (a b : CoreIx) (cls : Cls) (n : Nat) : Prop where
  source : t.core a = (s.core a).setQueue cls (((s.core a).queue cls).drop n)
  target : t.core b = (s.core b).setQueue cls ((s.core b).queue cls ++
    (((s.core a).queue cls).take n).map fun m => { m with placed := s.cycle.toNat + 1 })
  others : ∀ x, x ≠ a → x ≠ b → t.core x = s.core x
  frame : { t with cores := s.cores } = s

theorem State.Moved.zero (s : State) (a b : CoreIx) (cls : Cls) : State.Moved s s a b cls 0 where
  source := by rw [List.drop_zero, Core.setQueue_queue]
  target := by rw [List.take_zero, List.map_nil, List.append_nil, Core.setQueue_queue]
  others _ _ _ := rfl
  frame := rfl

theorem State.Moved.cycle {s t : State} {a b : CoreIx} {cls : Cls} {n : Nat} (h : State.Moved s t a b cls n) :
    t.cycle = s.cycle := by
  have hcycle := congrArg State.cycle h.frame
  exact hcycle

theorem State.frame_trans {s t u : State} (h : { t with cores := s.cores } = s) (h' : { u with cores := t.cores } = t) :
    { u with cores := s.cores } = s :=
  (congrArg (fun v : State => { v with cores := s.cores }) h').trans h

theorem State.frame_modCore (s : State) (c : CoreIx) (f : Core → Core) : { s.modCore c f with cores := s.cores } = s := rfl

/-- One entry goes, then n more. -/
theorem State.Moved.succ {s t u : State} {a b : CoreIx} {cls : Cls} {n : Nat} {m : Message} {rest : List Message}
    (hq : (s.core a).queue cls = m :: rest) (h : State.Moved s t a b cls 1) (h' : State.Moved t u a b cls n) :
    State.Moved s u a b cls (n + 1) where
  source := by simp [h'.source, h.source, hq]
  target := by simp [h'.target, h.target, h.source, h.cycle, hq]
  others x ha hb := (h'.others x ha hb).trans (h.others x ha hb)
  frame := State.frame_trans h.frame h'.frame

theorem State.Moved.one {s : State} {a b : CoreIx} {cls : Cls} {m : Message} {rest : List Message} (hab : b ≠ a)
    (hq : (s.core a).queue cls = m :: rest) (hm : m.hdr.cls = cls) :
    State.Moved s ((s.setCore a ((s.core a).setQueue cls rest)).toQueue b m) a b cls 1 where
  source := by
    rw [State.toQueue, State.core_modCore_ne _ _ hab.symm, State.core_setCore, hq]; rfl
  target := by
    rw [State.toQueue, State.core_modCore, State.core_setCore_ne _ _ hab, hm, hq]; rfl
  others x ha hb := by
    rw [State.toQueue, State.core_modCore_ne _ _ hb, State.core_setCore_ne _ _ ha]
  frame := rfl

/-- As many entries move as are asked for, where the queue and the inbox of the other core have room for them. -/
theorem State.moveEntries_moved {a b : CoreIx} {lab : Label} {cls : Cls} (hab : b ≠ a) (htr : cls ≠ .trump) :
    ∀ {n : Nat} {s : State}, trgCls ((s.core a).trigger lab) = cls → n ≤ ((s.core a).queue cls).length →
      (∀ m ∈ (s.core a).queue cls, m.hdr.lab = lab ∧ m.hdr.cls = cls) → ((s.core b).queue cls).length + n ≤ 64 →
      (s.core b).inboxUse false + ((((s.core a).queue cls).take n).map Message.flits).sum ≤ 992 →
      State.Moved s (s.moveEntries a b lab n) a b cls n
  | 0, s, _, _, _, _, _ => State.Moved.zero s a b cls
  | n + 1, s, hcls, hn, hall, hroom, hflits => by
    have htrump : Cls.isTrump cls = false := Cls.isTrump_of_ne htr
    cases hq : (s.core a).queue cls with
    | nil => rw [hq] at hn; cases hn
    | cons m rest =>
      rw [hq] at hn hall hflits
      obtain ⟨⟨hmlab, hmcls⟩, hrest⟩ := List.forall_mem_cons.1 hall
      rw [List.take_succ_cons, List.map_cons, List.sum_cons] at hflits
      have hinbox : (s.core b).inboxRoom m = true := by
        rw [Core.inboxRoom, hmcls, htrump]
        simp only [Bool.false_eq_true, if_false, decide_eq_true_eq]
        omega
      have hone := State.Moved.one hab hq hmcls
      rw [State.moveEntries]
      simp only [hcls, hq, takeLabel, hmlab, if_true, queueCap_of_ne htr, hinbox, and_true]
      rw [if_pos (by omega)]
      have hsource := hone.source
      have htarget := hone.target
      rw [hq, List.drop_one, List.tail_cons] at hsource
      rw [hq, List.take_succ_cons, List.take_zero, List.map_singleton] at htarget
      refine State.Moved.succ hq hone (State.moveEntries_moved hab htr ?_ ?_ ?_ ?_ ?_)
      · rw [hsource, Core.trigger_setQueue, hcls]
      · rw [hsource, Core.queue_setQueue]
        exact Nat.le_of_succ_le_succ hn
      · rw [hsource, Core.queue_setQueue]
        exact hrest
      · rw [htarget, Core.queue_setQueue, List.length_append, List.length_singleton]
        omega
      · rw [hsource, htarget, Core.queue_setQueue, Core.inboxUse_setQueue_append]
        simp only [hmcls, htrump, if_true]
        exact Nat.add_assoc _ _ _ ▸ hflits

/-- Entries of one label alone: no other label counts any (R323). -/
theorem Core.labCount_eq_zero {k : Core} {lab l : Label} (hall : ∀ c, ∀ m ∈ k.queue c, m.hdr.lab = lab) (hl : l ≠ lab) :
    k.labCount l = 0 := by
  rw [Core.labCount, List.length_eq_zero_iff, List.filter_eq_nil_iff]
  intro m hm hml
  exact hl ((of_decide_eq_true hml).symm.trans (hall _ m hm))

theorem Core.labCount_eq_length {k : Core} {lab : Label} (hall : ∀ c, ∀ m ∈ k.queue c, m.hdr.lab = lab) :
    k.labCount lab = (k.queue (trgCls (k.trigger lab))).length := by
  rw [Core.labCount, List.filter_eq_self.2 fun m hm => decide_eq_true (hall _ m hm)]

/-- A fold of which no element does anything. -/
theorem foldl_eq_self {α β : Type} {f : α → β → α} {a : α} {l : List β} (hf : ∀ j ∈ l, f a j = a) : l.foldl f a = a := by
  induction l with
  | nil => rfl
  | cons j l ih => rw [List.foldl_cons, hf j List.mem_cons_self, ih fun x hx => hf x (List.mem_cons_of_mem j hx)]

/-- A fold of which one element alone does something. -/
theorem foldl_eq_of_only {α β : Type} {f : α → β → α} {i : β} : ∀ {l : List β} (a : α), l.Nodup → i ∈ l →
    (∀ a, ∀ j ∈ l, j ≠ i → f a j = a) → l.foldl f a = f a i
  | [], _, _, hi, _ => by cases hi
  | j :: l, a, hnodup, hi, hf => by
    obtain ⟨hj, hl⟩ := List.nodup_cons.1 hnodup
    rw [List.foldl_cons]
    by_cases hji : j = i
    · subst hji
      exact foldl_eq_self fun x hx => hf _ x (List.mem_cons_of_mem j hx) fun e => hj (e ▸ hx)
    · rw [hf a j List.mem_cons_self hji]
      exact foldl_eq_of_only a hl ((List.mem_cons.1 hi).resolve_left fun e => hji e.symm)
        fun a x hx => hf a x (List.mem_cons_of_mem j hx)

/-- R323: where no other label has a difference, one label alone moves from a core to another. -/
theorem State.spreadFrom_eq {snap : State} {a b : CoreIx} {lab : Label} (s : State)
    (hothers : ∀ l, l ≠ lab → (snap.core a).labCount l = 0) :
    s.spreadFrom snap a b = if (snap.core a).spreads lab && trgSpread ((snap.core b).trigger lab) then
      s.moveEntries a b lab (Nat.min 8 (((snap.core a).labCount lab - (snap.core b).labCount lab) / 4)) else s := by
  rw [State.spreadFrom, foldl_eq_of_only (i := lab.toNat) s List.nodup_range (List.mem_range.2 lab.isLt)]
  · simp only [BitVec.ofNat_toNat, BitVec.setWidth_eq]
  · intro u j hj hne
    have hl : BitVec.ofNat 7 j ≠ lab := by
      rintro rfl
      exact hne (Nat.mod_eq_of_lt (List.mem_range.1 hj)).symm
    simp only [hothers _ hl]
    split
    · simp [State.moveEntries]
    · rfl

/-- A core that has no more entries of any label moves none. -/
theorem State.spreadFrom_of_le {snap : State} {a b : CoreIx} {lab : Label} (s : State)
    (hothers : ∀ l, l ≠ lab → (snap.core a).labCount l = 0) (hle : (snap.core a).labCount lab ≤ (snap.core b).labCount lab) :
    s.spreadFrom snap a b = s := by
  rw [State.spreadFrom_eq s hothers, Nat.sub_eq_zero_of_le hle]
  split
  · simp [State.moveEntries]
  · rfl

@[simp] theorem Core.queue_spread (k : Core) (n : Nat) (cls : Cls) : ({ k with spread := n } : Core).queue cls = k.queue cls := by
  cases cls <;> rfl

/-- In a team of two each core is the other's partner, whatever the window. -/
theorem execSpreadMove_two {s : State} {c b : CoreIx} (hteam : s.team (clusterOf c) (s.core c).job = [c, b])
    (hmember : (s.core c).member = true) (hwindow : (s.core c).spread ≤ s.cycle.toNat / 256) :
    execSpreadMove c s = .next ([c, b].foldl (fun t x => t.modCore x fun k => { k with spread := s.cycle.toNat / 256 + 1 })
      ((s.spreadFrom s c b).spreadFrom s b c)) := by
  rw [execSpreadMove]
  simp only [hteam, hmember]
  rw [if_neg (by simp [hwindow])]
  by_cases hw : s.cycle.toNat / 256 % 2 = 0
  · simp [hw, List.range_succ]
  · simp [hw, List.range_succ]

theorem execSpreadMove_moved {s : State} {c b : CoreIx} {cls : Cls} {n : Nat} (hbc : b ≠ c)
    (hteam : s.team (clusterOf c) (s.core c).job = [c, b]) (hmember : (s.core c).member = true)
    (hwindow : (s.core c).spread ≤ s.cycle.toNat / 256) (hfrom : State.Moved s (s.spreadFrom s c b) c b cls n)
    (hback : ∀ u : State, u.spreadFrom s b c = u) :
    ∃ t, exec (.spreadMove c) s = .next t ∧ (t.core c).queue cls = ((s.core c).queue cls).drop n ∧
      (t.core b).queue cls = (s.core b).queue cls ++
        (((s.core c).queue cls).take n).map (fun m => { m with placed := s.cycle.toNat + 1 }) ∧
      (∀ x, x ≠ c → x ≠ b → t.core x = s.core x) ∧ { t with cores := s.cores } = s := by
  refine ⟨_, execSpreadMove_two hteam hmember hwindow, ?_⟩
  rw [hback, List.foldl_cons, List.foldl_cons, List.foldl_nil]
  refine ⟨?_, ?_, fun x hxc hxb => ?_,
    State.frame_trans hfrom.frame (State.frame_trans (State.frame_modCore _ c _) (State.frame_modCore _ b _))⟩
  · rw [State.core_modCore_ne _ _ hbc.symm, State.core_modCore, Core.queue_spread, hfrom.source, Core.queue_setQueue]
  · rw [State.core_modCore, State.core_modCore_ne _ _ hbc, Core.queue_spread, hfrom.target, Core.queue_setQueue]
  · rw [State.core_modCore_ne _ _ hxb, State.core_modCore_ne _ _ hxc, hfrom.others x hxc hxb]

/-! ### The obligation -/

/-- Settles O41, by what the dealer chooses, by what `recv` takes, and by induction on the number of entries that move. -/
theorem starts : Obligations.Starts := by
  unfold Obligations.Starts
  intro c s
  dsimp only
  refine ⟨?start, ?recv, ?spread⟩
  case start =>
    intro cls cls' t pre m post hdealing hstart hissue hq hpre hm ht hcode hhigh hnext
    exact execHandlerStart_of_choice (State.startChoice_eq hdealing hstart hissue hm hhigh hnext) hq hpre ht (trgCls_of_code hcode)
  case recv =>
    intro lab t since cls pre m post hfrozen hheld ht hleast hq hpre hfirst hoverflow
    exact execRecvDelivery_eq hfrozen hheld (Core.earliest_sleepers ht hleast) (Core.dequeueFirst_eq hq hpre hfirst)
      (Core.thread_setQueue _ _ _ t) hoverflow
  case spread =>
    intro b lab cls hteam hbc hmember hwindow htrump hall hclass hspread hcount hcode hspread' hcode' hle hroom hflits
    have hc (c' : Cls) (m : Message) (hm : m ∈ (s.core c).queue c') : m.hdr.lab = lab := hall c' m (List.mem_append_left _ hm)
    have hb (c' : Cls) (m : Message) (hm : m ∈ (s.core b).queue c') : m.hdr.lab = lab := hall c' m (List.mem_append_right _ hm)
    have hcls : trgCls ((s.core c).trigger lab) = cls := trgCls_of_code hcode.symm
    have hcls' : trgCls ((s.core b).trigger lab) = cls := trgCls_of_code (hcode.symm.trans (congrArg BitVec.toNat hcode'.symm))
    have hcountc : (s.core c).labCount lab = ((s.core c).queue cls).length := hcls ▸ Core.labCount_eq_length hc
    have hcountb : (s.core b).labCount lab = ((s.core b).queue cls).length := hcls' ▸ Core.labCount_eq_length hb
    have htr : Cls.isTrump cls = false := Cls.isTrump_of_ne htrump
    have hspreads : ((s.core c).spreads lab && trgSpread ((s.core b).trigger lab)) = true := by
      rw [Core.spreads, hcls, htr, Bool.not_false, Bool.and_true, Bool.and_eq_true, Bool.and_eq_true, Bool.not_eq_true']
      exact ⟨⟨hspread, hcount⟩, hspread'⟩
    have hn : Nat.min 8 ((((s.core c).queue cls).length - ((s.core b).queue cls).length) / 4) ≤ ((s.core c).queue cls).length :=
      Nat.le_trans (Nat.min_le_right _ _) (Nat.le_trans (Nat.div_le_self _ _) (Nat.sub_le _ _))
    refine execSpreadMove_moved hbc hteam hmember hwindow ?_ fun u =>
      State.spreadFrom_of_le u (fun l => Core.labCount_eq_zero hb) (hcountb ▸ hcountc ▸ hle)
    rw [State.spreadFrom_eq s fun l => Core.labCount_eq_zero hc, if_pos hspreads, hcountc, hcountb]
    exact State.moveEntries_moved hbc htrump hcls hn (fun m hm => ⟨hc cls m hm, hclass m hm⟩) hroom hflits

end Sys2Proof.Machine

/-! SUPPORT. The far access instructions: where they send requests, what they leave in the commit buffer, and the commit
before a blocking atomic (R136 to R151). -/

namespace Sys2Proof.Machine

/-! ### The route of a request (R90, R116) -/

/-- An update of a core that leaves its team as it was. -/
def KeepsTeam (f : Core → Core) : Prop := ∀ k, (f k).member = k.member ∧ (f k).job = k.job

theorem State.core_modCore_eq (s : State) (c d : CoreIx) (f : Core → Core) :
    (s.modCore c f).core d = if d = c then f (s.core d) else s.core d := by
  by_cases h : d = c
  · subst h; rw [if_pos rfl, State.core_modCore]
  · rw [if_neg h, State.core_modCore_ne s f h]

section
variable {f : Core → Core} (hf : KeepsTeam f) (s : State) (c : CoreIx)
include hf

theorem State.team_modCore (cl job : BitVec 8) : (s.modCore c f).team cl job = s.team cl job := by
  have h (d : CoreIx) : ((s.modCore c f).core d).member = (s.core d).member ∧ ((s.modCore c f).core d).job = (s.core d).job := by
    rw [State.core_modCore_eq]
    split
    · exact hf _
    · exact ⟨rfl, rfl⟩
  simp only [State.team, fun d => (h d).1, fun d => (h d).2]

theorem State.physical_modCore (part : Nat) (job : BitVec 8) (tgt pa : Nat) :
    (s.modCore c f).physical part job tgt pa = s.physical part job tgt pa := by
  unfold State.physical
  simp only [State.team_modCore hf]
  rfl

theorem State.firstStage_modCore (ent : Option (Nat × Word × Word)) (part va bytes kind : Nat) :
    (s.modCore c f).firstStage ent part va bytes kind = s.firstStage ent part va bytes kind := by
  simp only [State.firstStage, State.transAt, State.physical_modCore hf]
  rfl

theorem State.aimed_modCore (g : Flight) (cl : BitVec 8) (port : Nat) : (s.modCore c f).aimed g cl port = s.aimed g cl port := by
  simp only [State.aimed, State.firstStage_modCore hf]
  rfl

theorem State.sendRequest_modCore (p : Packet) (stream : Option (ThrIx × Nat)) :
    (s.modCore c f).sendRequest c p stream = { s.modCore c f with net := (s.sendRequest c p stream).net } := by
  simp only [State.sendRequest, State.aimed_modCore hf]
  rfl

end

theorem keepsTeam_addReq (r : Req) : KeepsTeam fun k => { k with reqs := k.reqs ++ [r] } := fun _ => ⟨rfl, rfl⟩

theorem keepsTeam_setThread (t : ThrIx) (th : Thread) : KeepsTeam fun k => k.setThread t th := fun _ => ⟨rfl, rfl⟩

/-! ### A request that the guard passes (R108, R127, R131) -/

/-- The request of an owner is on its way, as the claims say it. -/
theorem sentFor_eq (s : State) (c : CoreIx) (owner : Owner) (p : Packet) (stream : Option (ThrIx × Nat)) :
    Claims.sentFor s c owner p stream = State.sendRequest (s.modCore c fun k => { k with reqs := k.reqs ++
      [{ txid := p.hdr.txid, pkt := p, owner := owner, sentAt := s.cycle.toNat, timer := s.cycle.toNat }] }) c p stream := by
  rw [State.sendRequest_modCore (keepsTeam_addReq _)]
  rfl

theorem State.request_of_guard {s : State} {c : CoreIx} {job : BitVec 8} {words : List Word} {tx : BitVec 16}
    (htx : s.freeTxid c = some tx) (hguard : s.guard c job true (homeOf (words.getD 0 0)) 0 = true)
    (owner : Owner) (cls : Cls) (kind aux : Nat) (tile : Option Word) (psn : List Nat) (stream : Option (ThrIx × Nat)) :
    s.request c owner job cls kind words aux tile psn stream =
      (Claims.sentFor s c owner
        { hdr := { dmod := homeOf (words.getD 0 0), cls := reqCls cls, plen := BitVec.ofNat 5 (Nat.min 16 (plenOf words)),
                   kind := BitVec.ofNat 4 kind, src := s.coreName c, job := job, txid := tx, aux := BitVec.ofNat 16 aux },
          words := padWords words, tile := tile, poison := psn } stream, tx, false) := by
  simp only [State.request, htx, hguard, Option.getD_some, if_true, sentFor_eq]

theorem reqClass_eq (th : Thread) : Claims.reqClass th = reqCls th.cls := by
  unfold Claims.reqClass Thread.cls
  rcases th.inst with _ | ⟨_, _ | _ | _ | _⟩ <;> rfl

/-- A payload of whole flits goes out as it is, and the claims' PLEN is the header's. -/
theorem requestOf_eq (s : State) (c : CoreIx) (t : ThrIx) (tx : BitVec 16) (kind aux : Nat) {words : List Word}
    (heven : words.length % 2 = 0) (hlen : words.length ≤ 32) :
    Claims.requestOf s c t tx (BitVec.ofNat 4 kind) words (BitVec.ofNat 16 aux) =
      { hdr := { dmod := homeOf (words.getD 0 0), cls := reqCls (s.getTh c t).cls,
                 plen := BitVec.ofNat 5 (Nat.min 16 (plenOf words)), kind := BitVec.ofNat 4 kind, src := s.coreName c,
                 job := (s.core c).job, txid := tx, aux := BitVec.ofNat 16 aux },
        words := padWords words } := by
  have hpad : padWords words = words := by rw [padWords, if_neg (by omega)]
  have hplen : Nat.min 16 (plenOf words) = words.length / 2 := by
    show min 16 (plenOf words) = _
    rw [plenOf]; omega
  rw [hpad, hplen, ← reqClass_eq]
  rfl

section
variable {s : State} {g : Word} {n flits : Nat} {tx : BitVec 16} (h : Claims.maySend s g n flits tx)
include h

theorem mayRequest_of_maySend : s.mayRequest s.cur.core false flits = true := by
  obtain ⟨-, hinject, hroom, htx, -⟩ := h
  have hroom' : decide ((s.core s.cur.core).reserved false + flits ≤ 512) = true := decide_eq_true hroom
  rw [State.mayRequest, htx, hinject, if_neg Bool.false_ne_true, hroom']
  rfl

theorem noWrites_of_maySend : s.th.wrs.any (fun w => sameWords g n w.gva w.bytes) = false :=
  List.any_eq_false.mpr fun w hw => Bool.eq_false_iff.mp (h.1 w hw)

/-- The request of the executing thread (R108). -/
theorem request_of_maySend (kind aux : Nat) {rest : List Word} (hodd : rest.length % 2 = 1) (hlen : rest.length < 32) :
    s.request s.cur.core (.thread s.cur.thr) s.k.job s.th.cls kind (g :: rest) aux =
      (Claims.requested s (Claims.reqPacket s tx (BitVec.ofNat 4 kind) (g :: rest) (BitVec.ofNat 16 aux)), tx, false) := by
  obtain ⟨-, -, -, htx, hguard⟩ := h
  rw [State.request_of_guard htx (words := g :: rest) hguard, Claims.reqPacket, requestOf_eq]
  · rfl
  · rw [List.length_cons]; omega
  · exact hlen

end

/-! ### Addresses and operands -/

theorem State.gva_eq (s : State) (a : Word) : s.gva a = Claims.gvaOf s a := rfl

theorem State.gvaOk_eq_true_iff (s : State) (g : Word) : s.gvaOk g = true ↔ Claims.farAllowed s g := by
  rw [State.gvaOk, State.reaches, Bool.and_eq_true, Bool.or_eq_true, decide_eq_true_iff, decide_eq_true_iff]
  rfl

theorem State.farCheck_eq_none {s : State} {g : Word} {align : Nat} (halign : g.toNat % align = 0)
    (hallowed : Claims.farAllowed s g) : s.farCheck g align = none := by
  simp [State.farCheck, halign, (State.gvaOk_eq_true_iff s g).mpr hallowed]

theorem State.blockCheck_eq_ok {s : State} {g b : Word} {n p : Nat} (hg : g.toNat % 16 = 0) (hb : b.toNat % 16 = 0)
    (hallowed : Claims.farAllowed s g) (hnear : s.nearPlace s.cur.core b n = some p) : s.blockCheck g b n = .ok p := by
  simp [State.blockCheck, hg, hb, (State.gvaOk_eq_true_iff s g).mpr hallowed, hnear]

theorem destOf_eq (d : SReg) : destOf d = Claims.readDest d := rfl
theorem lanesOn_eq (q : Byte) : lanesOn q = Claims.lanesOf q := rfl

theorem byteMask_eq (o n : Nat) : byteMask o n = Claims.bytesMask o n := by
  rw [byteMask, Claims.bytesMask, Nat.shiftLeft_eq]

/-! ### Far reads (R136, R138, R143, R144, R149) -/

/-- A far read that may be sent: the request leaves and the read is recorded. -/
theorem farRead_of_maySend {s : State} {g : Word} {n : Nat} {tx : BitVec 16}
    (h : Claims.maySend s g n ((n + 15) / 16 + 1) tx) (srcs : List SReg) (kind : ReadKind) (dest : Dest) (sext : Bool) :
    s.farRead (s.th.poppedBy (popsOf srcs)) g n kind dest sext =
      (Claims.requested s (Claims.reqPacket s tx 1 [g, BitVec.ofNat 64 n] 0)).setTh
        { s.th.passed 4 srcs with reads := s.th.reads ++
          [{ txid := tx, kind := kind, dest := dest, addr := g, bytes := n, sext := sext, fwd := s.th.farForward g n }] } := by
  have hreq := request_of_maySend h 1 0 (rest := [BitVec.ofNat 64 n]) rfl (by simp)
  have hcls : (s.th.passed 4 srcs).cls = s.th.cls := rfl
  simp only [State.farRead, noWrites_of_maySend h, mayRequest_of_maySend h, Thread.passed_eq, hcls, hreq, Bool.false_or,
    Bool.not_true]
  cases kind <;> rfl

/-- Settles O19: each read is the shared far read of its checked address. -/
theorem farReads : Obligations.FarReads := by
  unfold Obligations.FarReads
  intro sz x d a b vd qp off cls lab t s tx p
  dsimp only
  refine ⟨fun halign hallowed hsend => ?ldf, fun halign hallowed hq hsend => ?vldf, fun halign hallowed hq => ?vldfNone,
    fun hg hb hallowed hnear hsend => ?get⟩
  case ldf =>
    simp only [exec_ldf, execLdf, Thread.rd_eq, sextW, State.gva_eq, State.farCheck_eq_none halign hallowed,
      farRead_of_maySend hsend, destOf_eq]
  case vldf =>
    simp only [exec_vldf, execVldf, Thread.rd_eq, sextW, State.gva_eq, State.farCheck_eq_none halign hallowed, if_neg hq,
      farRead_of_maySend (n := 64) hsend]
  case vldfNone =>
    simp only [exec_vldf, execVldf, Thread.rd_eq, sextW, State.gva_eq, State.farCheck_eq_none halign hallowed, if_pos hq,
      Thread.passed_eq]
  case get =>
    simp only [exec_get, execGet, Thread.rd2_eq, State.gva_eq, blockBytes, State.blockCheck_eq_ok hg hb hallowed hnear,
      farRead_of_maySend hsend]

/-! ### Far writes (R139, R143, R144, R146, R151) -/

/-- The buffer after a far store, merged or at its end (R139). -/
theorem getD_mergeFar (g d : Word) (m : BitVec 16) (b : List Entry) :
    (mergeFar g d m b).getD (b ++ [.far g d m]) = Claims.withFar g d m b := by
  induction b with
  | nil => rfl
  | cons e es ih =>
    have later : ((mergeFar g d m es).map (e :: ·)).getD (e :: es ++ [.far g d m]) = e :: Claims.withFar g d m es := by
      rw [← ih]
      cases mergeFar g d m es <;> rfl
    cases e with
    | far g' d' m' =>
      rw [mergeFar, Claims.withFar]
      by_cases hmerge : g' = g ∧ hasAmo g es = false
      · rw [if_pos hmerge, if_pos ⟨hmerge.1, by rw [hmerge.2]; rfl⟩]; rfl
      · rw [if_neg hmerge, if_neg fun h => hmerge ⟨h.1, by simpa using h.2⟩]; exact later
    | near => exact later
    | put => exact later
    | amo => exact later
    | msg => exact later
    | mark => exact later

theorem foldl_mergeFar (ws : List (Word × Word × BitVec 16)) (b : List Entry) :
    ws.foldl (fun b w => (mergeFar w.1 w.2.1 w.2.2 b).getD (b ++ [.far w.1 w.2.1 w.2.2])) b = Claims.withFars ws b := by
  simp only [getD_mergeFar]
  rfl

theorem State.withRoom_eq {s : State} {n : Nat} (h : s.th.used + n ≤ 64) (go : State → State) : s.withRoom n go = go s := by
  rw [State.withRoom, if_pos h]

theorem entriesSize_concat (b : List Entry) (e : Entry) : entriesSize (b ++ [e]) = entriesSize b + e.size := by
  simp [entriesSize]

/-- Room for one entry more. -/
theorem used_le_of_fits {s : State} {e : Entry} (h : Claims.fits s (s.th.buf ++ [e])) : s.th.used + e.size ≤ 64 := by
  rwa [Claims.fits, entriesSize_concat, Nat.add_sub_cancel_left] at h

/-- What the far stores leave: their entries, and the instruction completed. -/
theorem State.farStores_eq {s : State} {ws : List (Word × Word × BitVec 16)}
    (h : Claims.fits s (Claims.withFars ws s.th.buf)) (srcs : List SReg) :
    s.farStores (s.th.poppedBy (popsOf srcs)) ws =
      s.setTh { s.th.passed 4 srcs with buf := Claims.withFars ws s.th.buf } := by
  simp only [State.farStores, foldl_mergeFar]
  rw [State.withRoom_eq h, ← Thread.passed_eq, Thread.advance_eq, Thread.advance_eq]
  rfl

/-- What an entry that never merges leaves: it stands at the end, and the instruction is completed. -/
theorem State.withRoom_append {s : State} {e : Entry} (h : Claims.fits s (s.th.buf ++ [e])) (srcs : List SReg) :
    (s.withRoom e.size fun u => u.setTh (({ s.th.poppedBy (popsOf srcs) with buf := s.th.buf ++ [e] } : Thread).advance 4)) =
      s.setTh { s.th.passed 4 srcs with buf := s.th.buf ++ [e] } := by
  rw [State.withRoom_eq (used_le_of_fits h), ← Thread.passed_eq, Thread.advance_eq, Thread.advance_eq]
  rfl

theorem length_leBytes (n x : Nat) : (leBytes n x).length = n := by
  induction n generalizing x with
  | zero => rfl
  | succ n ih => rw [leBytes, List.length_cons, ih]

theorem length_flatMap_leBytes (ws : List Word) : (ws.flatMap fun w => leBytes 8 w.toNat).length = 8 * ws.length := by
  induction ws with
  | nil => rfl
  | cons w ws ih => rw [List.flatMap_cons, List.length_append, length_leBytes, ih, List.length_cons]; omega

theorem State.length_nearBytes (s : State) (p n : Nat) : (s.nearBytes p n).length = n := by
  rw [State.nearBytes, List.length_take, List.length_drop, length_flatMap_leBytes, List.length_map, List.length_range]
  omega

/-- Settles O20: each write is a far store or an entry of its own. -/
theorem farWrites : Obligations.FarWrites := by
  unfold Obligations.FarWrites
  intro sz op dbl d a b vd qp off t s p
  dsimp only
  refine ⟨fun halign hallowed hfits => ?stf, fun halign hallowed hfits => ?vstf, fun hg hb hallowed hnear hfits => ?put,
    fun halign hallowed hfits => ?amoPost⟩
  case stf =>
    simp only [exec_stf, execStf, Thread.rd2_eq, sextW, State.gva_eq, State.farCheck_eq_none halign hallowed, byteMask_eq]
    rw [State.farStores_eq hfits]
    rfl
  case vstf =>
    simp only [exec_vstf, execVstf, Thread.rd_eq, sextW, State.gva_eq, State.farCheck_eq_none halign hallowed, lanesOn_eq]
    rw [State.farStores_eq hfits]
  case put =>
    have hsize : (s.nearBytes p (16 * (t.toNat + 1))).length = 16 * (t.toNat + 1) := s.length_nearBytes p _
    simp only [exec_put, execPut, Thread.rd2_eq, State.gva_eq, blockBytes, State.blockCheck_eq_ok hg hb hallowed hnear]
    have hput := State.withRoom_append hfits [a, b]
    rw [Entry.size, hsize] at hput
    exact congrArg Host.Outcome.next hput
  case amoPost =>
    simp only [exec_amoPost, execAmoPost, Thread.rd2_eq, State.gva_eq, State.farCheck_eq_none halign hallowed]
    exact congrArg Host.Outcome.next (State.withRoom_append hfits [a, b])

/-! ### Blocking atomics (R146, R148) -/

/-- A request recorded at the executing core. -/
theorem requested_eq (s : State) (p : Packet) : Claims.requested s p =
    { s.modK fun k => { k with reqs := k.reqs ++
        [{ txid := p.hdr.txid, pkt := p, owner := .thread s.cur.thr, sentAt := s.cycle.toNat, timer := s.cycle.toNat }] } with
      net := (s.sendRequest s.cur.core p).net } := rfl

theorem State.th_sendRequest (s : State) (c : CoreIx) (p : Packet) (stream : Option (ThrIx × Nat)) :
    (s.sendRequest c p stream).th = s.th := rfl

theorem th_requested (s : State) (p : Packet) : (Claims.requested s p).th = s.th := by
  rw [Claims.requested, Claims.requestedBy, sentFor_eq, State.th_sendRequest]
  exact congrArg (fun k => k.thread s.cur.thr) (s.core_modCore s.cur.core _)

section
variable (s : State) (th : Thread)

theorem State.freeTxid_setTh : (s.setTh th).freeTxid s.cur.core = s.freeTxid s.cur.core := by
  have hcore : (s.setTh th).core s.cur.core = s.k.setThread s.cur.thr th := s.k_setTh th
  simp only [State.freeTxid, hcore]
  rfl

theorem State.reserved_setTh : (s.setTh th).k.reserved false = s.k.reserved false := by
  rw [State.k_setTh]
  rfl

/-- What a request does to the machine is not a matter of the thread that sends it. -/
theorem requested_setTh_setTh (p : Packet) (th' : Thread) :
    (Claims.requested (s.setTh th) p).setTh th' = (Claims.requested s p).setTh th' := by
  have hnet : ((s.setTh th).sendRequest s.cur.core p).net = (s.sendRequest s.cur.core p).net := by
    rw [State.setTh, State.putTh, State.sendRequest_modCore (keepsTeam_setThread _ th)]
  rw [requested_eq, requested_eq, State.setTh_cur, hnet]
  simp [State.setTh, State.putTh, State.modK, State.modCore, State.setCore, State.core, Core.setThread]

variable {s th}

theorem maySend_setTh {g : Word} {n flits : Nat} {tx : BitVec 16} (hwrs : th.wrs = s.th.wrs) (h : Claims.maySend s g n flits tx) :
    Claims.maySend (s.setTh th) g n flits tx := by
  obtain ⟨hwords, hinject, hroom, htx, hguard⟩ := h
  refine ⟨?_, hinject, ?_, (s.freeTxid_setTh th).trans htx, ?_⟩
  · rw [State.th_setTh, hwrs]; exact hwords
  · rw [State.reserved_setTh]; exact hroom
  · rw [State.k_setTh]; exact hguard

theorem reqPacket_setTh (hinst : th.inst = s.th.inst) (tx : BitVec 16) (kind : BitVec 4) (words : List Word) (aux : BitVec 16) :
    Claims.reqPacket (s.setTh th) tx kind words aux = Claims.reqPacket s tx kind words aux := by
  have hcls : Claims.reqClass ((s.setTh th).getTh s.cur.core s.cur.thr) = Claims.reqClass s.th := by
    rw [show (s.setTh th).getTh s.cur.core s.cur.thr = th from s.th_setTh th, reqClass_eq, reqClass_eq, Thread.cls, hinst]
    rfl
  have hjob : ((s.setTh th).core s.cur.core).job = s.k.job := by
    rw [show (s.setTh th).core s.cur.core = s.k.setThread s.cur.thr th from s.k_setTh th]
    rfl
  simp only [Claims.reqPacket, Claims.requestOf, State.setTh_cur, hcls, hjob]
  rfl

end

/-- A commit of a thread that has nothing to commit only counts. -/
theorem State.commitThread_of_empty {s : State} {c : CoreIx} {t : ThrIx} (hbuf : (s.getTh c t).buf = [])
    (hheld : (s.getTh c t).held = []) :
    s.commitThread c t = s.putTh c t { s.getTh c t with commits := (s.getTh c t).commits + 1 } := by
  simp only [State.commitThread, hbuf, hheld, State.parts, List.map_nil, List.append_nil, State.pruneMarks, List.length_nil,
    State.nearInstants]

/-- A thread whose commit has begun and has left nothing to apply or inject. -/
def Thread.committed (th : Thread) : Thread := { th with begun := true, commits := th.commits + 1 }

/-- A commit point of a thread with nothing to commit: the instruction goes on at once (R248, R259). -/
theorem State.atCommit_of_empty {s : State} (hbuf : s.th.buf = []) (hheld : s.th.held = []) (hbegun : s.th.begun = false)
    (go : State → State) : s.atCommit go = go (s.setTh s.th.committed) := by
  have hcommit : (s.setTh { s.th with begun := true }).commitThread s.cur.core s.cur.thr = s.setTh s.th.committed := by
    have hth : (s.setTh { s.th with begun := true }).getTh s.cur.core s.cur.thr = { s.th with begun := true } := s.th_setTh _
    rw [State.commitThread_of_empty (by rw [hth]; exact hbuf) (by rw [hth]; exact hheld), hth]
    exact s.setTh_setTh _ _
  rw [State.atCommit]
  dsimp only
  rw [if_neg (ne_true_of_eq_false hbegun), if_pos (by rw [hbuf]; rfl)]
  exact congrArg go hcommit

/-- Once such a thread waits for the reply, the commit shows in its count alone. -/
theorem Thread.blocked_committed {th : Thread} (hheld : th.held = []) (hbegun : th.begun = false) (b : Blocked) :
    { th.committed with block := some b, run := .stalled, begun := false, held := [] } =
      { th with commits := th.commits + 1, run := .stalled, block := some b } := by
  simp only [Thread.committed, hheld, hbegun]

/-- A blocking atomic of a thread with nothing to commit: the request leaves, and the thread waits for the reply. -/
theorem State.blocking_of_empty {s : State} {g : Word} {n : Nat} {tx : BitVec 16} (hbuf : s.th.buf = []) (hheld : s.th.held = [])
    (hbegun : s.th.begun = false) (h : Claims.maySend s g n 2 tx) (i : Instr) (d : SReg) (kind aux : Nat) {rest : List Word}
    (hodd : rest.length % 2 = 1) (hlen : rest.length < 32) :
    s.blocking i d g n kind (g :: rest) aux =
      (Claims.requested s (Claims.reqPacket s tx (BitVec.ofNat 4 kind) (g :: rest) (BitVec.ofNat 16 aux))).setTh
        { s.th with commits := s.th.commits + 1, run := .stalled,
                    block := some { txid := tx, dest := d, gva := g, pops := Instr.pops i } } := by
  have hu : Claims.maySend (s.setTh s.th.committed) g n 2 tx := maySend_setTh rfl h
  have hreq := request_of_maySend hu kind aux hodd hlen
  rw [reqPacket_setTh (th := s.th.committed) rfl] at hreq
  have hnone : (s.setTh s.th.committed).pruneMarks (s.setTh s.th.committed).th.wrs (s.setTh s.th.committed).th.held = [] := by
    rw [show (s.setTh s.th.committed).th.held = [] from (congrArg Thread.held (s.th_setTh _)).trans hheld]
    rfl
  rw [State.blocking, State.atCommit_of_empty hbuf hheld hbegun]
  simp only [hnone, noWrites_of_maySend hu, mayRequest_of_maySend hu, hreq, th_requested, requested_setTh_setTh,
    List.isEmpty_nil, Bool.not_true, Bool.or_false, Bool.false_eq_true, if_false]
  rw [State.th_setTh]
  exact congrArg _ (Thread.blocked_committed hheld hbegun _)

/-- Settles O21: both are the shared blocking atomic of a thread with nothing to commit. -/
theorem blockingAtomics : Obligations.BlockingAtomics := by
  unfold Obligations.BlockingAtomics
  intro op dbl d a b s tx
  dsimp only
  intro halign hallowed hbuf hheld hbegun hsend
  have hwidth : BitVec.ofNat 16 (32 * (if dbl then 3 else 2)) = if dbl then 96 else 64 := by cases dbl <;> rfl
  refine ⟨?amoFetch, ?cas⟩
  case amoFetch =>
    simp only [exec_amoFetch, execAmoFetch, Thread.rd2_eq, State.gva_eq, State.farCheck_eq_none halign hallowed]
    rw [State.blocking_of_empty hbuf hheld hbegun hsend _ d 3 _ (by simp) (by simp), BitVec.ofNat_add, hwidth]
    rfl
  case cas =>
    simp only [exec_cas, execCas, Thread.rd2_eq, State.gva_eq, State.farCheck_eq_none halign hallowed]
    rw [State.blocking_of_empty hbuf hheld hbegun hsend _ d 5 _ (by simp) (by simp), hwidth]
    rfl

/-! ### Words of the spec -/

/-- Settles O57, by decoding each listed word. -/
theorem decodeSpecWords : Obligations.DecodeSpecWords := by
  unfold Obligations.DecodeSpecWords
  refine ⟨?short, ?long⟩
  case short => decide
  case long => decide

end Sys2Proof.Machine

/-! SUPPORT. Every step keeps the memories in their canonical form (R188, R222, R338): the meanings of the instructions and
events do, one arm of the dispatch for each, and so do the parts of a move around them. -/

namespace Sys2Proof.Machine

/-! ### The dispatch -/

theorem exec_inv {s : State} (h : s.inv) (i : Instr) : KeepsOut (exec i s) :=
  match i with
  | .add .. => execAdd_inv _ _ _ h
  | .sub .. => execSub_inv _ _ _ h
  | .mul .. => execMul_inv _ _ _ h
  | .mulh .. => execMulh_inv _ _ _ h
  | .mulhu .. => execMulhu_inv _ _ _ h
  | .mulhsu .. => execMulhsu_inv _ _ _ h
  | .div .. => execDiv_inv _ _ _ h
  | .divu .. => execDivu_inv _ _ _ h
  | .rem .. => execRem_inv _ _ _ h
  | .remu .. => execRemu_inv _ _ _ h
  | .and .. => execAnd_inv _ _ _ h
  | .or .. => execOr_inv _ _ _ h
  | .xor .. => execXor_inv _ _ _ h
  | .andn .. => execAndn_inv _ _ _ h
  | .orn .. => execOrn_inv _ _ _ h
  | .sll .. => execSll_inv _ _ _ h
  | .srl .. => execSrl_inv _ _ _ h
  | .sra .. => execSra_inv _ _ _ h
  | .rol .. => execRol_inv _ _ _ h
  | .ror .. => execRor_inv _ _ _ h
  | .min .. => execMin_inv _ _ _ h
  | .minu .. => execMinu_inv _ _ _ h
  | .max .. => execMax_inv _ _ _ h
  | .maxu .. => execMaxu_inv _ _ _ h
  | .adds .. => execAdds_inv _ _ _ h
  | .subs .. => execSubs_inv _ _ _ h
  | .addsu .. => execAddsu_inv _ _ _ h
  | .subsu .. => execSubsu_inv _ _ _ h
  | .clz .. => execClz_inv _ _ h
  | .ctz .. => execCtz_inv _ _ h
  | .popc .. => execPopc_inv _ _ h
  | .bswap .. => execBswap_inv _ _ h
  | .fadd .. => execFadd_inv _ _ _ _ _ h
  | .fsub .. => execFsub_inv _ _ _ _ _ h
  | .fmul .. => execFmul_inv _ _ _ _ _ h
  | .fmin .. => execFmin_inv _ _ _ _ h
  | .fmax .. => execFmax_inv _ _ _ _ h
  | .fminn .. => execFminn_inv _ _ _ _ h
  | .fmaxn .. => execFmaxn_inv _ _ _ _ h
  | .bool3 .. => execBool3_inv _ _ _ _ h
  | .fshlImm .. => execFshlImm_inv _ _ _ _ h
  | .fshrImm .. => execFshrImm_inv _ _ _ _ h
  | .fshlReg .. => execFshlReg_inv _ _ _ _ h
  | .fshrReg .. => execFshrReg_inv _ _ _ _ h
  | .ext .. => execExt_inv _ _ _ _ h
  | .extn .. => execExtn_inv _ _ _ _ h
  | .ins .. => execIns_inv _ _ _ _ h
  | .addi .. => execAddi_inv _ _ _ h
  | .andi .. => execAndi_inv _ _ _ h
  | .ori .. => execOri_inv _ _ _ h
  | .xori .. => execXori_inv _ _ _ h
  | .slli .. => execSlli_inv _ _ _ h
  | .srli .. => execSrli_inv _ _ _ h
  | .srai .. => execSrai_inv _ _ _ h
  | .rori .. => execRori_inv _ _ _ h
  | .lui .. => execLui_inv _ _ h
  | .li .. => execLi_inv _ _ h
  | .cmp .. => execCmp_inv _ _ _ _ h
  | .cmpi .. => execCmpi_inv _ _ _ _ h
  | .sel .. => execSel_inv _ _ _ _ h
  | .lea .. => execLea_inv _ _ _ _ h
  | .ldn .. => execLdn_inv _ _ _ _ _ h
  | .stn .. => execStn_inv _ _ _ _ h
  | .ldf .. => execLdf_inv _ _ _ _ _ h
  | .stf .. => execStf_inv _ _ _ _ h
  | .amoFetch .. => execAmoFetch_inv _ _ _ _ _ h
  | .amoPost .. => execAmoPost_inv _ _ _ _ h
  | .cas .. => execCas_inv _ _ _ _ h
  | .stnb .. => execStnb_inv _ _ _ _ _ h
  | .vldn .. => execVldn_inv _ _ _ _ h
  | .vstn .. => execVstn_inv _ _ _ _ h
  | .vgthn .. => execVgthn_inv _ _ _ _ _ h
  | .vsctn .. => execVsctn_inv _ _ _ _ _ h
  | .vldf .. => execVldf_inv _ _ _ _ h
  | .vstf .. => execVstf_inv _ _ _ _ h
  | .br .. => execBr_inv _ _ _ h
  | .j .. => execJ_inv _ h
  | .jal .. => execJal_inv _ h
  | .jalr .. => execJalr_inv _ _ _ h
  | .btag .. => execBtag_inv _ h
  | .loopReg .. => execLoopReg_inv _ _ h
  | .loopImm .. => execLoopImm_inv _ _ h
  | .ret => execRet_inv h
  | .nop => execNop_inv h
  | .trap .. => execTrap_inv _ h
  | .eret => execEret_inv h
  | .yield => execYield_inv h
  | .commit => execCommit_inv h
  | .fence .. => execFence_inv _ h
  | .brk .. => execBrk_inv _ h
  | .wait .. => execWait_inv _ h
  | .send .. => execSend_inv _ _ _ _ h
  | .sendR .. => execSendR_inv _ _ _ _ h
  | .sendv .. => execSendv_inv _ _ _ _ _ h
  | .mcast .. => execMcast_inv _ _ _ _ h
  | .get .. => execGet_inv _ _ _ _ _ h
  | .put .. => execPut_inv _ _ _ h
  | .recv .. => execRecv_inv _ h
  | .arm .. => execArm_inv _ h
  | .disarm .. => execDisarm_inv _ h
  | .tcnt .. => execTcnt_inv _ _ h
  | .setf .. => execSetf_inv _ h
  | .clrf .. => execClrf_inv _ h
  | .tlaunch .. => execTlaunch_inv _ h
  | .jdone => execJdone_inv h
  | .bar .. => execBar_inv _ h
  | .arrive .. => execArrive_inv _ h
  | .csrr .. => execCsrr_inv _ _ h
  | .csrw .. => execCsrw_inv _ _ _ h
  | .csrs .. => execCsrs_inv _ _ _ h
  | .csrc .. => execCsrc_inv _ _ _ h
  | .vaddInt .. => execVaddInt_inv _ _ _ _ _ h
  | .vsubInt .. => execVsubInt_inv _ _ _ _ _ h
  | .vmulInt .. => execVmulInt_inv _ _ _ _ _ h
  | .vmulh .. => execVmulh_inv _ _ _ _ _ h
  | .vadds .. => execVadds_inv _ _ _ _ _ h
  | .vsubs .. => execVsubs_inv _ _ _ _ _ h
  | .vminInt .. => execVminInt_inv _ _ _ _ _ h
  | .vmaxInt .. => execVmaxInt_inv _ _ _ _ _ h
  | .vand .. => execVand_inv _ _ _ _ _ h
  | .vor .. => execVor_inv _ _ _ _ _ h
  | .vxor .. => execVxor_inv _ _ _ _ _ h
  | .vabsInt .. => execVabsInt_inv _ _ _ _ h
  | .vnegInt .. => execVnegInt_inv _ _ _ _ h
  | .vaddFp .. => execVaddFp_inv _ _ _ _ _ _ h
  | .vsubFp .. => execVsubFp_inv _ _ _ _ _ _ h
  | .vmulFp .. => execVmulFp_inv _ _ _ _ _ _ h
  | .vfma .. => execVfma_inv _ _ _ _ _ _ h
  | .vfms .. => execVfms_inv _ _ _ _ _ _ h
  | .vfnma .. => execVfnma_inv _ _ _ _ _ _ h
  | .vminFp .. => execVminFp_inv _ _ _ _ _ h
  | .vmaxFp .. => execVmaxFp_inv _ _ _ _ _ h
  | .vminn .. => execVminn_inv _ _ _ _ _ h
  | .vmaxn .. => execVmaxn_inv _ _ _ _ _ h
  | .vabsFp .. => execVabsFp_inv _ _ _ _ h
  | .vnegFp .. => execVnegFp_inv _ _ _ _ h
  | .vcsgn .. => execVcsgn_inv _ _ _ _ _ h
  | .vcmp .. => execVcmp_inv _ _ _ _ _ _ h
  | .vcvt .. => execVcvt_inv _ _ _ _ _ _ _ _ h
  | .vrcp .. => execVrcp_inv _ _ _ _ _ h
  | .vrsq .. => execVrsq_inv _ _ _ _ _ h
  | .vsqrt .. => execVsqrt_inv _ _ _ _ _ h
  | .vdiv .. => execVdiv_inv _ _ _ _ _ _ h
  | .vexp2 .. => execVexp2_inv _ _ _ _ _ h
  | .vlog2 .. => execVlog2_inv _ _ _ _ _ h
  | .vperm .. => execVperm_inv _ _ _ _ _ h
  | .vbcst ty .. => execVbcst_inv ty _ _ _ _ h
  | .vzip .. => execVzip_inv _ _ _ _ _ h
  | .vunzip .. => execVunzip_inv _ _ _ _ _ h
  | .vredadd .. => execVredadd_inv _ _ _ _ h
  | .vredmin .. => execVredmin_inv _ _ _ _ h
  | .vredmax .. => execVredmax_inv _ _ _ _ h
  | .vredminn .. => execVredminn_inv _ _ _ _ h
  | .vredmaxn .. => execVredmaxn_inv _ _ _ _ h
  | .vsll .. => execVsll_inv _ _ _ _ _ h
  | .vsrl .. => execVsrl_inv _ _ _ _ _ h
  | .vsra .. => execVsra_inv _ _ _ _ _ h
  | .vslli .. => execVslli_inv _ _ _ _ _ h
  | .vsrli .. => execVsrli_inv _ _ _ _ _ h
  | .vsrai .. => execVsrai_inv _ _ _ _ _ h
  | .vbool3 .. => execVbool3_inv _ _ _ _ _ h
  | .vins .. => execVins_inv _ _ _ h
  | .vext .. => execVext_inv _ _ _ h
  | .vdup .. => execVdup_inv _ _ h
  | .qset .. => execQset_inv _ _ h
  | .qget .. => execQget_inv _ _ h
  | .mop .. => execMop_inv _ _ _ _ _ _ _ _ h
  | .mopsZc .. => execMopsZc_inv _ _ _ _ _ _ _ _ _ h
  | .mopsS24 .. => execMopsS24_inv _ _ _ _ _ _ _ _ _ h
  | .mzero .. => execMzero_inv _ _ _ h
  | .mload .. => execMload_inv _ _ _ _ _ h
  | .mdrain .. => execMdrain_inv _ _ _ _ _ _ _ _ h
  | .mseed .. => execMseed_inv _ _ h
  | .tdir .. => execTdir_inv _ _ h
  | .tzero .. => execTzero_inv _ _ _ h
  | .tfill .. => execTfill_inv _ _ _ _ _ h
  | .tident .. => execTident_inv _ _ _ _ _ h
  | .xcopy .. => execXcopy_inv _ _ _ _ _ _ _ h
  | .xmapLd .. => execXmapLd_inv _ _ _ _ _ _ h
  | .xmapSt .. => execXmapSt_inv _ _ _ _ _ _ h
  | .xgather .. => execXgather_inv _ _ _ _ _ _ _ h
  | .xscatter .. => execXscatter_inv _ _ _ _ _ _ _ _ _ h
  | .xpack .. => execXpack_inv _ _ _ _ _ _ _ h
  | .xunpack .. => execXunpack_inv _ _ _ _ _ _ _ h
  | .xembed .. => execXembed_inv _ _ _ _ _ _ _ h
  | .xstream .. => execXstream_inv _ _ _ _ _ _ _ _ h
  | .rngw .. => execRngw_inv _ _ _ h
  | .rngr .. => execRngr_inv _ _ _ h
  | .rngclr .. => execRngclr_inv _ h
  | .pgw .. => execPgw_inv _ _ h
  | .pgr .. => execPgr_inv _ _ h
  | .pginv .. => execPginv_inv _ h
  | .illegalInstruction .. => execIllegalInstruction_inv _ h
  | .commitInjection .. => execCommitInjection_inv _ _ h
  | .messageArrival .. => execMessageArrival_inv _ h
  | .payloadFlitArrival .. => execPayloadFlitArrival_inv _ _ h
  | .kittyReturn .. => execKittyReturn_inv _ _ h
  | .recvDelivery .. => execRecvDelivery_inv _ _ h
  | .handlerStart .. => execHandlerStart_inv _ h
  | .spreadMove .. => execSpreadMove_inv _ h
  | .barArrival .. => execBarArrival_inv _ h
  | .barrierRelease .. => execBarrierRelease_inv _ h
  | .waitDeadline .. => execWaitDeadline_inv _ _ h
  | .watchdogStop .. => execWatchdogStop_inv _ h
  | .engineCommandStart .. => execEngineCommandStart_inv _ _ _ h
  | .engineCompletion .. => execEngineCompletion_inv _ _ h
  | .matrixCommandStart .. => execMatrixCommandStart_inv _ _ _ _ h
  | .matrixCompletion .. => execMatrixCompletion_inv _ _ h
  | .routerForward .. => execRouterForward_inv _ h
  | .gatewayArrival .. => execGatewayArrival_inv _ _ h
  | .arrivalRingReentry .. => execArrivalRingReentry_inv _ h
  | .arrivalRingFullReport .. => execArrivalRingFullReport_inv _ h
  | .linkCrcError .. => execLinkCrcError_inv _ h
  | .linkRetrain .. => execLinkRetrain_inv _ h
  | .linkDown .. => execLinkDown_inv _ h
  | .podCounterExchange .. => execPodCounterExchange_inv _ _ h
  | .rdRequest .. => execRdRequest_inv _ h
  | .wrRequest .. => execWrRequest_inv _ h
  | .amoRequest .. => execAmoRequest_inv _ h
  | .amopRequest .. => execAmopRequest_inv _ h
  | .casRequest .. => execCasRequest_inv _ h
  | .parkNoticeRepeat .. => execParkNoticeRepeat_inv _ _ h
  | .parkLimitExpiry .. => execParkLimitExpiry_inv _ _ h
  | .parkedRequestReplay .. => execParkedRequestReplay_inv _ _ h
  | .rdataReply .. => execRdataReply_inv _ h
  | .ackReply .. => execAckReply_inv _ h
  | .parkNotice .. => execParkNotice_inv _ h
  | .errReply .. => execErrReply_inv _ h
  | .farTimerExpiry .. => execFarTimerExpiry_inv _ _ h
  | .nackResend .. => execNackResend_inv _ _ h
  | .imageLoad .. => execImageLoad_inv _ h
  | .launchGateOpen .. => execLaunchGateOpen_inv _ h
  | .initialMessageRelease .. => execInitialMessageRelease_inv _ h
  | .jobRetirement .. => execJobRetirement_inv _ h
  | .tokenWrite .. => execTokenWrite_inv _ _ h
  | .tokenRelease .. => execTokenRelease_inv _ h
  | .qctlReset .. => execQctlReset_inv _ _ h
  | .meventClear .. => execMeventClear_inv _ h
  | .powercapWrite .. => execPowercapWrite_inv _ h
  | .hostRegisterWrite .. => execHostRegisterWrite_inv _ _ h
  | .attest => execAttest_inv h
  | .fwupdate => execFwupdate_inv h
  | .recover => execRecover_inv h
  | .cert => execCert_inv h
  | .reset => execReset_inv h
  | .powerGood => execPowerGood_inv h
  | .firmwareVerification => execFirmwareVerification_inv h
  | .hbmTrainingComplete => execHbmTrainingComplete_inv h
  | .earlyToFull => execEarlyToFull_inv h
  | .thermalThrottle => execThermalThrottle_inv h
  | .thermalShutdown => execThermalShutdown_inv h
  | .patrolScrub .. => execPatrolScrub_inv _ _ h
  | .softErrorThreshold => execSoftErrorThreshold_inv h
  | .governorWindow .. => execGovernorWindow_inv _ h
  | .freeze .. => execFreeze_inv _ h
  | .release .. => execRelease_inv _ h
  | .preempt .. => execPreempt_inv _ h
  | .preemptGraceEnd .. => execPreemptGraceEnd_inv _ h
  | .restore .. => execRestore_inv _ h
  | .resume .. => execResume_inv _ h
  | .ready .. => execReady_inv _ h
  | .open_ .. => execOpen_inv _ h
  | .abort .. => execAbort_inv _ h
  | .qreport .. => execQreport_inv _ h
  | .retire .. => execRetire_inv _ h
  | .tlh .. => execTlh_inv _ h
  | .cfgw .. => execCfgw_inv _ h
  | .papply .. => execPapply_inv _ h
  | .bistCompletion .. => execBistCompletion_inv _ _ h
  | .trainingFailure .. => execTrainingFailure_inv _ h
  | .linkRetrained .. => execLinkRetrained_inv _ h
  | .completedTransactionCacheExpiry .. => execCompletedTransactionCacheExpiry_inv _ h
  | .thermalThrottleEnd => execThermalThrottleEnd_inv h
  | .powerFail => execPowerFail_inv h

/-! ### A move and its clock tick -/

theorem ite_inv {p : Prop} [Decidable p] {a b : State} (ha : a.inv) (hb : b.inv) : (if p then a else b).inv := by
  split
  · exact ha
  · exact hb

theorem State.tickClock_inv {s : State} (m : Move) (h : s.inv) : (s.tickClock m).inv := by
  unfold State.tickClock
  split <;> exact h

theorem State.takePending_inv {s : State} (c : CoreIx) (t : ThrIx) (p : Byte × BitVec 4 × Word) (h : s.inv) :
    (s.takePending c t p).inv := by
  unfold State.takePending
  split
  · exact State.trapOverflow_inv _ _ _ _ h
  · exact State.trapAt_inv _ _ _ _ _ _ _ _ _ (State.modTh_inv _ _ _ h)

theorem State.takeComparator_inv {s : State} (m : Nat × Word) (h : s.inv) : (s.takeComparator m).inv := by
  unfold State.takeComparator
  split
  · exact State.report5_inv _ _ _ _ _ _ (State.freezeCore_inv _ h)
  · exact State.trap_inv _ _ _ _ _ _ h

theorem State.runInstr_inv {s : State} (i : Instr) (h : s.inv) : KeepsOut (s.runInstr i) := by
  unfold State.runInstr
  split
  · exact exec_inv (State.issued_inv h) i
  · split
    · exact exec_inv (State.issued_inv h) i
    · exact keepsOut_next (State.stallFor_inv i h)
    · exact keepsOut_next (State.trapRead_inv i _ h)
    · exact keepsOut_next (State.trap_inv _ _ _ _ _ _ (State.setTh_inv _ h))

theorem State.runWords_inv {s : State} (w0 w1 : Nat) (h : s.inv) : KeepsOut (s.runWords w0 w1) := by
  unfold State.runWords
  dsimp only
  split
  · exact exec_inv (State.issued_inv h) _
  · split
    · exact State.runInstr_inv _ h
    · exact exec_inv (State.issued_inv h) _

theorem State.issue_inv {s : State} (c : CoreIx) (t : ThrIx) (h : s.inv) : KeepsOut (s.issue c t) := by
  have hs : (s.enter c t).inv := State.enter_inv c t h
  unfold State.issue
  dsimp only
  split
  · split
    · exact keepsOut_next (State.takePending_inv _ _ _ hs)
    · split
      · exact keepsOut_next (State.trapAt_inv _ _ _ _ _ _ _ _ _ hs)
      · split
        · exact keepsOut_next (State.takeComparator_inv _ hs)
        · exact State.runWords_inv _ _ hs
  · exact keepsOut_next h

theorem State.nextMove_inv {s : State} (h : s.inv) : s.nextMove.2.inv := by
  unfold State.nextMove
  split <;> exact h

theorem State.move_inv {s : State} (m : Move) (h : s.inv) : KeepsOut (s.move m) := by
  unfold State.move
  cases m with
  | issue c t =>
    dsimp only
    split
    · exact keepsOut_next h
    · exact State.issue_inv c t h
  | event i =>
    dsimp only
    split
    · exact keepsOut_next h
    · exact exec_inv h i
  | defer ws => exact keepsOut_next (ite_inv h h)
  | fetch cl arr k ws => exact keepsOut_next (ite_inv h (State.fetchEarly_inv cl arr k ws h))
  | upset u => exact keepsOut_next (ite_inv h (State.upset_inv u h))

theorem step_inv {s : State} (h : s.inv) : KeepsOut (step s) := by
  have hn : s.nextMove.2.inv := State.nextMove_inv h
  have hmove (m : Move) : KeepsOut ((s.nextMove.2.tickClock m).move m) := State.move_inv m (State.tickClock_inv m hn)
  unfold step
  dsimp only
  split
  · split
    · exact hmove _
    · exact keepsOut_next hn
  · exact hmove _

/-- Settles O59, by the cases of a move and, for the instructions and events, of the dispatch. -/
theorem stepKeepsMemory : Obligations.StepKeepsMemory := fun _ t h => step_inv h t

end Sys2Proof.Machine

/-! SUPPORT. Stores of the masked nibbles of a word, whatever the state of its tile (R202, R222, R345). -/

namespace Sys2Proof.Machine

/-! ### Nibble masks -/

theorem testBit_packElems {w : Nat} (hw : 0 < w) (es : List Nat) (i : Nat) :
    (packElems w es).testBit i = (es.getD (i / w) 0).testBit (i % w) := by
  induction es generalizing i with
  | nil => simp [packElems]
  | cons e es ih =>
    rw [packElems, Nat.add_comm, Nat.testBit_two_pow_mul_add _ (Nat.mod_lt _ (Nat.two_pow_pos w)), Nat.testBit_mod_two_pow]
    by_cases hi : i < w
    · simp [hi, Nat.div_eq_of_lt hi, Nat.mod_eq_of_lt hi]
    · obtain ⟨k, rfl⟩ : ∃ k, i = k + w := ⟨i - w, by omega⟩
      rw [if_neg hi, Nat.add_sub_cancel, ih, Nat.add_div_right k hw, Nat.add_mod_right]
      rfl

theorem getLsbD_maskBits (m : BitVec 16) {i : Nat} (hi : i < 64) : (maskBits m).getLsbD i = m.getLsbD (i / 4) := by
  have h15 : ∀ j < 4, Nat.testBit 15 j = true := by decide
  have hnib : ((List.range 16).map fun k => if m.getLsbD k then 15 else 0).getD (i / 4) 0 =
      if m.getLsbD (i / 4) then 15 else 0 := by
    simp [show i / 4 < 16 by omega]
  rw [maskBits, BitVec.getLsbD_ofNat, testBit_packElems (by omega), hnib]
  cases m.getLsbD (i / 4) <;> simp [hi, h15 _ (Nat.mod_lt i (by omega : 0 < 4))]

theorem getLsbD_mergeWord (m : BitVec 16) (old new : Word) {i : Nat} (hi : i < 64) :
    (mergeWord m old new).getLsbD i = if m.getLsbD (i / 4) then new.getLsbD i else old.getLsbD i := by
  simp only [mergeWord, BitVec.getLsbD_or, BitVec.getLsbD_and, BitVec.getLsbD_not, getLsbD_maskBits m hi]
  cases m.getLsbD (i / 4) <;> simp [hi]

/-- Merging takes the nibbles of the mask from the new word (R345). -/
theorem nibble_mergeWord (m : BitVec 16) (old new : Word) {i : Nat} (hi : i < 16) :
    nibble (mergeWord m old new) i = if m.getLsbD i then nibble new i else nibble old i := by
  refine BitVec.eq_of_getLsbD_eq fun j hj => ?_
  have hbit := getLsbD_mergeWord m old new (i := 4 * i + j) (by omega)
  rw [show (4 * i + j) / 4 = i by omega] at hbit
  by_cases h : m.getLsbD i <;> simpa [nibble, BitVec.getLsbD_extractLsb', hj, h] using hbit

/-- A word that the old one agrees with under the mask changes nothing. -/
theorem mergeWord_of_agree {m : BitVec 16} {old new : Word} (h : (old ^^^ new) &&& maskBits m = 0) :
    mergeWord m old new = old := by
  refine BitVec.eq_of_getLsbD_eq fun i hi => ?_
  have hbit := congrArg (·.getLsbD i) h
  simp only [BitVec.getLsbD_and, BitVec.getLsbD_xor, getLsbD_maskBits m hi, BitVec.ofNat_eq_ofNat, BitVec.getLsbD_zero] at hbit
  rw [getLsbD_mergeWord m old new hi]
  split
  next hm =>
    rw [hm, Bool.and_true, bne_eq_false_iff_eq] at hbit
    exact hbit.symm
  next => rfl

/-! ### Stored bytes and words -/

theorem leVal_leBytes (n x : Nat) : leVal (leBytes n x) = x % 256 ^ n := by
  induction n generalizing x with
  | zero => simp [leBytes, leVal, Nat.mod_one]
  | succ n ih =>
    rw [leBytes, leVal, ih, BitVec.toNat_ofNat, show x % 256 % 2 ^ 8 = x % 256 by omega, Nat.pow_succ', Nat.mod_mul]

theorem State.memByte_putBytes (s : State) (p : Nat) (bs : List Byte) (k : Nat) :
    (s.putBytes p bs).memByte k = if p ≤ k ∧ k < p + bs.length then bs.getD (k - p) 0 else s.memByte k :=
  Memory.read_put s.mem p bs k

theorem State.memWord_congr {s t : State} {p q : Nat} (h : ∀ i < 8, s.memByte (p + i) = t.memByte (q + i)) :
    s.memWord p = t.memWord q := by
  unfold State.memWord
  rw [List.map_congr_left fun i hi => h i (List.mem_range.1 hi)]

/-- A word whose bytes are those of a value, from the lowest up, is the value (R11). -/
theorem State.memWord_of_leBytes {s : State} {p : Nat} {x : Word}
    (h : ∀ i < 8, s.memByte (p + i) = (leBytes 8 x.toNat).getD i 0) : s.memWord p = x := by
  have hbytes : (List.range 8).map (fun i => s.memByte (p + i)) = leBytes 8 x.toNat := by
    refine List.ext_getElem (by simp [length_leBytes]) fun i h1 h2 => ?_
    rw [length_leBytes] at h2
    simp [h i h2, length_leBytes, h2]
  rw [State.memWord, hbytes, leVal_leBytes, Nat.mod_eq_of_lt (by simpa using x.isLt), BitVec.ofNat_toNat, BitVec.setWidth_eq]

/-- Of the aligned words a masked store changes the one at its place. -/
theorem State.memWord_writeNibbles (s : State) {w q : Nat} (d : Word) (m : BitVec 16) (hw : w % 8 = 0) (hq : q % 8 = 0) :
    (s.writeNibbles w d m).memWord q = if q = w then mergeWord m (s.memWord w) d else s.memWord q := by
  unfold State.writeNibbles
  split
  next h =>
    refine State.memWord_of_leBytes fun i hi => ?_
    rw [State.memByte_putBytes, length_leBytes, if_pos (by omega), h, Nat.add_sub_cancel_left]
  next h =>
    refine State.memWord_congr fun i hi => ?_
    rw [State.memByte_putBytes, length_leBytes, if_neg (by omega)]

/-! ### Tiles -/

/-- The places of a tile have directory entries together (R193). -/
theorem hasDir_of_tile {p q : Nat} (h : q / 4096 = p / 4096) : hasDir q = hasDir p := by
  have hkind : placeKind q = placeKind p := by unfold placeKind; omega
  have hbound : q % 2 ^ 36 < hbmReserve ↔ p % 2 ^ 36 < hbmReserve := by unfold hbmReserve; omega
  simp only [hasDir, hkind, hbound]

theorem entM_mkEnt (state : Nat) (sp m : Bool) (f : Tag) (diag const : Nat) : entM (mkEnt state sp m f diag const) = m := by
  have hbit : (layOut [(state, 2), (sp.toNat, 1), (m.toNat, 1), (f.code, 4), (diag, 7), (0, 17), (const, 32)]).testBit 3 = m := by
    simp only [layOut_cons, Nat.testBit_eq_decide_div_mod_eq]
    cases m <;> simp <;> omega
  rw [entM, mkEnt, BitVec.getLsbD_ofNat, hbit]
  rfl

theorem getElem?_flatMap_of_length {α β : Type} {f : α → List β} {k : Nat} (hf : ∀ x, (f x).length = k) (l : List α)
    (i : Nat) {j : Nat} (hj : j < k) : (l.flatMap f)[k * i + j]? = l[i]?.bind fun x => (f x)[j]? := by
  induction l generalizing i with
  | nil => simp
  | cons x l ih =>
    rw [List.flatMap_cons]
    cases i with
    | zero => simp [List.getElem?_append, hf, hj]
    | succ i =>
      rw [List.getElem?_append_right (by rw [hf, Nat.mul_succ]; omega), hf,
        show k * (i + 1) + j - k = k * i + j by rw [Nat.mul_succ]; omega, ih, List.getElem?_cons_succ]

theorem length_synthBytes (e : Word) : (synthBytes e).length = 4096 := by
  have h := length_flatMap_leBytes ((List.range 512).map fun i => synthWord e (8 * i))
  rwa [List.flatMap_map, List.length_map, List.length_range] at h

theorem getD_synthBytes (e : Word) {o j : Nat} (ho : o % 8 = 0) (hlt : o < 4096) (hj : j < 8) :
    (synthBytes e).getD (o + j) 0 = (leBytes 8 (synthWord e o).toNat).getD j 0 := by
  have h8 : 8 * (o / 8) = o := by omega
  rw [List.getD_eq_getElem?_getD, List.getD_eq_getElem?_getD, ← h8, synthBytes,
    getElem?_flatMap_of_length (fun _ => length_leBytes 8 _) _ _ hj]
  simp [List.getElem?_range (show o / 8 < 512 by omega)]

theorem synthWord_of_zero {e : Word} (h : entState e = 1) (o : Nat) : synthWord e o = 0 := by
  rw [synthWord, if_pos h]

/-- A materialised tile holds what it was synthesised as; no other word changes (R202, R203). -/
theorem State.memWord_materialise (s : State) (p : Nat) {q : Nat} (hq : q % 8 = 0) :
    (s.materialise p).memWord q = if q / 4096 = p / 4096 then synthWord (s.entry p) (q % 4096) else s.memWord q := by
  have hbyte (i : Nat) (hi : i < 8) : (s.materialise p).memByte (q + i) =
      if q / 4096 = p / 4096 then (leBytes 8 (synthWord (s.entry p) (q % 4096)).toNat).getD i 0 else s.memByte (q + i) := by
    have htile : (p / 4096 * 4096 ≤ q + i ∧ q + i < p / 4096 * 4096 + 4096) ↔ q / 4096 = p / 4096 := by omega
    unfold State.materialise
    dsimp only
    split
    next hz =>
      refine (Memory.read_clear s.mem _ 4096 (q + i)).trans ?_
      rw [synthWord_of_zero hz, show leBytes 8 (0 : Word).toNat = List.replicate 8 0 from rfl, List.getD_eq_getElem?_getD,
        List.getElem?_replicate_of_lt hi]
      exact ite_congr (propext htile) (fun _ => rfl) fun _ => rfl
    next =>
      rw [State.memByte_putBytes, length_synthBytes]
      refine ite_congr (propext htile) (fun h => ?_) fun _ => rfl
      rw [← getD_synthBytes _ (by omega) (by omega) hi, show q + i - p / 4096 * 4096 = q % 4096 + i by omega]
  split
  next h => exact State.memWord_of_leBytes fun i hi => by rw [hbyte i hi, if_pos h]
  next h => exact State.memWord_congr fun i hi => by rw [hbyte i hi, if_neg h]

theorem State.entry_materialise (s : State) (p q : Nat) : (s.materialise p).entry q = s.entry q := by
  unfold State.materialise
  dsimp only
  split <;> rfl

theorem State.entry_setEntry (s : State) (p q : Nat) (e : Word) :
    (s.setEntry p e).entry q = if q / 4096 = p / 4096 then e else s.entry q :=
  SMap.get_set 1 e s.dir (p / 4096) (q / 4096)

theorem State.entry_writeNibbles (s : State) (p q : Nat) (d : Word) (m : BitVec 16) :
    (s.writeNibbles p d m).entry q = s.entry q := rfl

/-! ### Reading a word -/

theorem State.word_congr {s t : State} {p : Nat} (hmem : t.memWord p = s.memWord p) (hent : t.entry p = s.entry p) :
    t.word p = s.word p := by
  rw [State.word, State.word, hmem, hent]

/-- A word that is kept: of a place without a directory entry, or of a tile with M = 1 (R199). -/
theorem State.word_of_stored {s : State} {p : Nat} (h : hasDir p = true → entM (s.entry p) = true) :
    s.word p = s.memWord p := by
  rw [State.word, if_neg]
  simpa using h

theorem State.word_of_synth {s : State} {p : Nat} (hdir : hasDir p = true) (hm : entM (s.entry p) = false) :
    s.word p = synthWord (s.entry p) (p % 4096) := by
  rw [State.word, if_pos (by simp [hdir, hm])]

theorem State.word_markWord (s : State) (p : Nat) (m : BitVec 16) (psn : Bool) (q : Nat) :
    (s.markWord p m psn).word q = s.word q := by
  unfold State.markWord
  (repeat' split) <;> rfl

/-! ### A partial store -/

/-- A store into a kept word. -/
theorem State.word_writeNibbles {s : State} {w q : Nat} (d : Word) (m : BitVec 16) (hw : w % 8 = 0) (hq : q % 8 = 0)
    (hkept : hasDir w = true → entM (s.entry w) = true) :
    (s.writeNibbles w d m).word q = if q = w then mergeWord m (s.word w) d else s.word q := by
  have hmem := s.memWord_writeNibbles d m hw hq
  split
  next h =>
    subst h
    rw [State.word_of_stored hkept, State.word_of_stored (s := s.writeNibbles q d m) hkept, hmem, if_pos rfl]
  next h => exact State.word_congr (by rw [hmem, if_neg h]) rfl

/-- The state whose tile of a place is kept: as it is with M = 1, else materialised (R202). -/
def State.kept (s : State) (p : Nat) : State := if entM (s.entry p) then s else s.materialise p

theorem State.entry_kept (s : State) (p q : Nat) : (s.kept p).entry q = s.entry q := by
  unfold State.kept
  split
  · rfl
  · exact s.entry_materialise p q

theorem State.memWord_kept_of_tile {s : State} {p q : Nat} (hq : q % 8 = 0) (hdir : hasDir p = true) (h : q / 4096 = p / 4096) :
    (s.kept p).memWord q = s.word q := by
  have hent : s.entry q = s.entry p := by rw [State.entry, State.entry, h]
  have hdirq : hasDir q = true := (hasDir_of_tile h).trans hdir
  unfold State.kept
  split
  next hm => exact (State.word_of_stored fun _ => hent ▸ hm).symm
  next hm =>
    rw [State.memWord_materialise s p hq, if_pos h, State.word_of_synth hdirq (by simpa [hent] using hm), hent]

theorem State.memWord_kept_of_ne {s : State} {p q : Nat} (hq : q % 8 = 0) (h : q / 4096 ≠ p / 4096) :
    (s.kept p).memWord q = s.memWord q := by
  unfold State.kept
  split
  · rfl
  · rw [State.memWord_materialise s p hq, if_neg h]

/-- A store that makes its tile GENERAL (R202). -/
theorem State.word_storeKept {s : State} {w q : Nat} (d : Word) (m : BitVec 16) (sp : Bool) (f : Tag) (hw : w % 8 = 0)
    (hq : q % 8 = 0) (hdir : hasDir w = true) : (((s.kept w).writeNibbles w d m).setEntry w (mkEnt 0 sp true f 0 0)).word q =
      if q = w then mergeWord m (s.word w) d else s.word q := by
  have hmem := (s.kept w).memWord_writeNibbles d m hw hq
  have hent := ((s.kept w).writeNibbles w d m).entry_setEntry w q (mkEnt 0 sp true f 0 0)
  by_cases ht : q / 4096 = w / 4096
  · rw [State.word_of_stored fun _ => by rw [hent, if_pos ht, entM_mkEnt]]
    refine hmem.trans ?_
    rw [State.memWord_kept_of_tile hw hdir rfl, State.memWord_kept_of_tile hq hdir ht]
  · have hne : q ≠ w := fun h => ht (h ▸ rfl)
    rw [if_neg hne] at hmem ⊢
    rw [if_neg ht, State.entry_writeNibbles, State.entry_kept] at hent
    exact State.word_congr (hmem.trans (State.memWord_kept_of_ne hq ht)) hent

/-- Of the aligned words a partial store changes the one at its place, in the nibbles of the mask (R202, R345). -/
theorem State.word_storeWord (s : State) {w q : Nat} (d : Word) (m : BitVec 16) (psn : Bool) (hw : w % 8 = 0) (hq : q % 8 = 0) :
    (s.storeWord w d m psn).word q = if q = w then mergeWord m (s.word w) d else s.word q := by
  rw [← s.word_markWord w m psn w, ← s.word_markWord w m psn q]
  unfold State.storeWord
  generalize s.markWord w m psn = u
  dsimp only
  split
  next hdir =>
    split
    next hagree =>
      split
      next hm => exact State.word_writeNibbles d m hw hq fun _ => hm
      next hm =>
        have hword : mergeWord m (u.word w) d = u.word w :=
          mergeWord_of_agree (by rw [State.word_of_synth hdir (by simpa using hm)]; exact hagree.2)
        split
        next h => rw [hword, h]
        next => rfl
    next => exact State.word_storeKept d m _ _ hw hq hdir
  next hdir => exact State.word_writeNibbles d m hw hq fun h => absurd h hdir

/-- Settles O18, by the word that a partial store changes. -/
theorem storeWord : Obligations.StoreWord := by
  intro s w d m hw
  refine ⟨fun i hi => ?_, fun q hq => ?_⟩
  · rw [s.word_storeWord d m false hw hw, if_pos rfl, nibble_mergeWord m _ _ hi]
  · rw [State.byte, State.byte, s.word_storeWord d m false hw (by omega), if_neg (by omega)]

end Sys2Proof.Machine

/-! SUPPORT. A gather that finds a recorded lane which its predicate does not enable (R275, R278). -/

namespace Sys2Proof.Machine

/-- A ready thread at a gather of lane 1, from the own TCM (R84), with another lane recorded as read: word 1 for lane 0. -/
def strayLane : State := State.reset.setTh
  { run := .ready, inst := some (1, .normal), s := (Vector.replicate 32 0).set 4 0x1F00000,
    q := (Vector.replicate 8 0).set 1 0x02, lanes := [(0, 1, false)] }

/-- The enabled lane of `strayLane` is allowed, at offset 0 of the core's TCM. -/
theorem strayLane_place : ∀ i ∈ Claims.lanesOf (strayLane.th.qreg 1),
    let e := strayLane.th.source 4 [] + ((strayLane.th.vreg 2).extractLsb' (64 * i) 64 <<< (0 : BitVec 2).toNat)
    e.toNat % 8 = 0 ∧ strayLane.nearPlace strayLane.cur.core e 8 = some (tcmPlace 0 0) := by
  decide +kernel

/-- It is not read yet, and its word is not poisoned. -/
theorem strayLane_clean : ∀ i ∈ Claims.lanesOf (strayLane.th.qreg 1), match SMap.find strayLane.th.lanes i with
    | some w => w.2 = false
    | none => ¬ Claims.meetsPoison strayLane (tcmPlace 0 0) 0 16 := by
  have hlanes : Claims.lanesOf (strayLane.th.qreg 1) = [1] := by decide +kernel
  rw [hlanes]
  intro i hi
  obtain rfl := List.mem_singleton.1 hi
  exact fun h => absurd h.1 (by decide +kernel)

/-- The lowest nibble of lane 0 of a vector register in the next state. -/
def Out.lowNibble (v : VReg) : Out → BitVec 4
  | .next t => nibble (lane (t.th.vreg v) 0) 0
  | _ => 0

/-- Lane 0 of the destination gets the recorded word. -/
theorem lowNibble_vgthn_strayLane : Out.lowNibble 1 (exec (.vgthn 1 4 1 2 0) strayLane) = 1 := by
  decide +kernel

/-- Refutes O16: its hypotheses on the lanes recorded as read (R278) speak of the enabled ones only, and a recorded lane that is
not enabled is written to the destination, where R275 has it keep its value. -/
theorem not_nearVectorLoads : ¬ Obligations.NearVectorLoads := by
  intro h
  obtain ⟨-, hgather, -⟩ := h 1 2 0 4 1 0 0 strayLane fun _ => tcmPlace 0 0
  obtain ⟨t, r, hexec, hlanes, rfl⟩ := (hgather strayLane_place).1 rfl strayLane_clean
  have hloaded : nibble (lane r 0) 0 = 1 := by
    have hlow := lowNibble_vgthn_strayLane
    rwa [hexec, Out.lowNibble, State.th_setTh, Thread.vreg, Vector.getElem_set_self] at hlow
  have hkept : nibble (lane r 0) 0 = nibble (lane (strayLane.th.vreg 1) 0) 0 :=
    (hlanes 0 0 (by decide) (by decide)).trans (if_neg (by decide +kernel))
  rw [hkept] at hloaded
  exact absurd hloaded (by decide +kernel)

end Sys2Proof.Machine
